-- ==== Sys2Proof/Word.lean ====
section
/-! DEFINITION. The word and byte types of the YF7 (R4: 32-bit registers, little-endian values) and their plainest
arithmetic. -/
namespace Sys2Proof

/-- A 32-bit register or packet word (R4). -/
abbrev Word := BitVec 32

/-- A byte. -/
abbrev Byte := BitVec 8

/-- The unsigned value of bits [hi:lo] of a word. -/
def Word.bits (w : Word) (hi lo : Nat) : Nat := (w.toNat >>> lo) % 2 ^ (hi + 1 - lo)

/-- Bit n of a word. -/
def Word.bit (w : Word) (n : Nat) : Bool := w.toNat.testBit n

/-- A natural number as a word, modulo 2^32. -/
def Word.ofNat (n : Nat) : Word := BitVec.ofNat 32 n

/-- The 64-bit value of a low and a high word (R5). -/
def Word.pair (lo hi : Word) : Nat := lo.toNat + hi.toNat * 2 ^ 32

/-- Bits [hi:lo] of a natural number. -/
def natBits (n hi lo : Nat) : Nat := (n >>> lo) % 2 ^ (hi + 1 - lo)

/-- 1 for true, 0 for false. -/
def b2n (b : Bool) : Nat := if b then 1 else 0

/-- Quotient rounded up. -/
def ceilDiv (a b : Nat) : Nat := (a + b - 1) / b

/-- Round a up to a multiple of b. -/
def roundUp (a b : Nat) : Nat := ceilDiv a b * b

end Sys2Proof
end

