-- ==== Sys2Proof/Syntax.lean ====
section
/-! DEFINITION. The commands and events of the YF7, one constructor per row of the spec's table of operations, with the
operands each carries. What the outside decides (a frame's bytes, a sensor's reading, a host's answer) is an operand. -/
namespace Sys2Proof

/-- Where a command packet comes from: the next unit of a command ring (R112), or a message of the handrail lane (R133). -/
inductive PktSrc where
  | ring (n : Nat)
  | lane (seq : Nat)
deriving DecidableEq, Repr

/-- The path of a register access: the BAR or the handrail lane (R631). -/
inductive Path where
  | bar
  | lane
deriving DecidableEq, Repr

/-- What a read of stored data finds (R447 to R449, R422 to R424): good, corrected, or uncorrectable at one line of it. -/
inductive Ecc where
  | good
  | corrected
  | uncorrectable (line : Nat)
deriving DecidableEq, Repr

/-- A fabric frame: the header of R268 and its payload. -/
structure Frame where
  kind : Nat
  cls : Nat
  hops : Nat
  fwd : Bool
  admin : Bool
  age : Nat
  dst : Nat
  origin : Nat
  slot : Nat
  gen : Nat
  table : Nat
  epoch : Nat
  tenant : Nat
  vslot : Nat
  nrows : Nat
  arg0 : Word
  arg1 : Word
  payload : List Byte
deriving DecidableEq, Repr

/-- A hall time beacon, its time already corrected for the link's measured delay (The beacon and its root). -/
structure Beacon where
  rootId : Nat
  depth : Nat
  landing : Nat
  phaseNs : Nat
  len : Nat
  pendLen : Option (Nat × Nat)
  good : Bool
deriving DecidableEq, Repr

/-- The host's answer to an ATS request (R478 to R482): the page's size and permissions, absent, or no answer the
engine can use. -/
structure AtsReply where
  present : Bool
  size : Nat
  addr : Nat
  r : Bool
  w : Bool
deriving DecidableEq, Repr

/-- The host's answer to a page request (R483). -/
inductive PriReply where
  | success
  | invalid
  | failure
deriving DecidableEq, Repr

/-- How a row read comes back (R230, R422 to R425, R203): from the row cache or pinned SRAM or a stairwell, with what
the read found; or from the balloon, with its bytes, or with the status of a failed translation. -/
inductive RowRead where
  | stored (ecc : Ecc)
  | tagParity
  | balloon (data : List Byte)
deriving DecidableEq, Repr

/-- The commands, one constructor per row of the opcode table. -/
inductive Instr where
  /-- NOP (R132). Datapath no-op packet that pads rings and carries ORDER. Operands: this packet reaches the concourse from src. -/
  | nop (src : PktSrc) (pkt : List Word)
  /-- BAG (R211). Gathers the listed rows of one table and pools them into one output vector. Operands: this packet reaches the concourse from src. -/
  | bag (src : PktSrc) (pkt : List Word)
  /-- BAG_INTERACT (R385). Pools a set of bags, forms interactions and runs up to eight dense layers. Operands: this packet reaches the concourse from src. -/
  | bagInteract (src : PktSrc) (pkt : List Word)
  /-- ARRAY_OP (R374). Runs one interaction-array operation on a working or held tile. Operands: this packet reaches the concourse from src. -/
  | arrayOp (src : PktSrc) (pkt : List Word)
  /-- TILE_READ (R383). Writes out or releases a held accumulator tile. Operands: this packet reaches the concourse from src. -/
  | tileRead (src : PktSrc) (pkt : List Word)
  /-- TILE_WRITE (R383). Loads or claims a held accumulator tile and sets its mode. Operands: this packet reaches the concourse from src. -/
  | tileWrite (src : PktSrc) (pkt : List Word)
  /-- VEC_CHAIN (R396). Runs a fused chain of up to eight vector stages over VL elements. Operands: this packet reaches the concourse from src. -/
  | vecChain (src : PktSrc) (pkt : List Word)
  /-- UPDATE_BATCH (R307). Scatters gradient updates to row homes as local or remote update kites. Operands: this packet reaches the concourse from src. -/
  | updateBatch (src : PktSrc) (pkt : List Word)
  /-- SPLIT_REDUCE (R345). Adds up to eight partial buffers exactly and writes the rounded result. Operands: this packet reaches the concourse from src. -/
  | splitReduce (src : PktSrc) (pkt : List Word)
  /-- COPY (R508). Moves bulk data along a scatter-gather list on one copy channel. Operands: this packet reaches the concourse from src. -/
  | copy (src : PktSrc) (pkt : List Word)
  /-- RECHECK (R606). Repeats one piece of work on several galleries and compares the results. Operands: this packet reaches the concourse from src. -/
  | recheck (src : PktSrc) (pkt : List Word)
  /-- INLINE_WRITE (R476). Writes up to 192 bytes carried in the packet to a destination. Operands: this packet reaches the concourse from src. -/
  | inlineWrite (src : PktSrc) (pkt : List Word)
  /-- STATUS_GET (R132). Control opcode that returns engine status. Operands: the management core executes the control queue's front packet of this opcode in svcNs ns. -/
  | statusGet (svcNs : Nat)
  /-- TENANT_SET (R140). Creates or changes a tenant table entry. Operands: the management core executes the control queue's front packet of this opcode in svcNs ns. -/
  | tenantSet (svcNs : Nat)
  /-- TENANT_DESTROY (R141). Destroys a tenant that holds no ring, context or table. Operands: the management core executes the control queue's front packet of this opcode in svcNs ns. -/
  | tenantDestroy (svcNs : Nat)
  /-- PASID_BIND (R142). Binds a PASID to a tenant. Operands: the management core executes the control queue's front packet of this opcode in svcNs ns. -/
  | pasidBind (svcNs : Nat)
  /-- PASID_UNBIND (R142). Unbinds a tenant's PASID and removes its translations. Operands: the management core executes the control queue's front packet of this opcode in svcNs ns. -/
  | pasidUnbind (svcNs : Nat)
  /-- RING_CREATE (R137). Creates a command or completion ring and returns its number. Operands: the management core executes the control queue's front packet of this opcode in svcNs ns. -/
  | ringCreate (svcNs : Nat)
  /-- RING_DESTROY (R138). Stops reading a ring and destroys it, with or without cancelling unadmitted packets. Operands: the management core executes the control queue's front packet of this opcode in svcNs ns. -/
  | ringDestroy (svcNs : Nat)
  /-- RING_RESET (R139). Restarts a halted ring at the TAIL in its RCB. Operands: the management core executes the control queue's front packet of this opcode in svcNs ns. -/
  | ringReset (svcNs : Nat)
  /-- TABLE_DEFINE (R160). Defines a table's directory entry and initial shard map. Operands: the management core executes the control queue's front packet of this opcode in svcNs ns. -/
  | tableDefine (svcNs : Nat)
  /-- TABLE_STATE (R167). Schedules a table state change at a landing. Operands: the management core executes the control queue's front packet of this opcode in svcNs ns. -/
  | tableState (svcNs : Nat)
  /-- VERSION_SWITCH (R170). Opens, seals or releases a version slot, or schedules a switch. Operands: the management core executes the control queue's front packet of this opcode in svcNs ns. -/
  | versionSwitch (svcNs : Nat)
  /-- SHARD_MAP_WRITE (R188). Writes shard placements to CUR or to NEXT. Operands: the management core executes the control queue's front packet of this opcode in svcNs ns. -/
  | shardMapWrite (svcNs : Nat)
  /-- EPOCH_BUMP (R191). Schedules a shard-map epoch bump at a landing. Operands: the management core executes the control queue's front packet of this opcode in svcNs ns. -/
  | epochBump (svcNs : Nat)
  /-- MIGRATE (R294). Starts copying a shard from the old home to a target engine. Operands: the management core executes the control queue's front packet of this opcode in svcNs ns. -/
  | migrate (svcNs : Nat)
  /-- TABLE_GRANT (R164). Records or removes a hall tenant's read or update grant on a table. Operands: the management core executes the control queue's front packet of this opcode in svcNs ns. -/
  | tableGrant (svcNs : Nat)
  /-- COUNTERS_READ (R206). Writes shard load counter records, optionally clearing them. Operands: the management core executes the control queue's front packet of this opcode in svcNs ns. -/
  | countersRead (svcNs : Nat)
  /-- TELEMETRY_CFG (R132). Sets the firmware telemetry period. Operands: the management core executes the control queue's front packet of this opcode in svcNs ns. -/
  | telemetryCfg (svcNs : Nat)
  /-- SELFTEST (R602). Tests named galleries, slices or columns while serving continues. Operands: the management core executes the control queue's front packet of this opcode in svcNs ns. -/
  | selftest (svcNs : Nat)
  /-- FENCE (R593). Fences a named gallery unless the fence would leave fewer than 8 enabled. Operands: the management core executes the control queue's front packet of this opcode in svcNs ns. -/
  | fence (svcNs : Nat)
  /-- UNIT_RESET (R546). Quiesces, resets or resumes one gallery, copy channel, slice or column. Operands: the management core executes the control queue's front packet of this opcode in svcNs ns. -/
  | unitReset (svcNs : Nat)
  /-- DRAIN (R600). Enters DRAINING and completes when the engine is DRAINED. Operands: the management core executes the control queue's front packet of this opcode in svcNs ns. -/
  | drain (svcNs : Nat)
  /-- PERSIST_WRITE (R572). Writes one word of the persistent store. Operands: the management core executes the control queue's front packet of this opcode in svcNs ns. -/
  | persistWrite (svcNs : Nat)
  /-- REPAIR_MAP_WRITE (R458). Writes entries of the persistent repair map under presence. Operands: the management core executes the control queue's front packet of this opcode in svcNs ns. -/
  | repairMapWrite (svcNs : Nat)
  /-- FW_LOAD (R566). Copies a firmware image into staging and checks it. Operands: the management core executes the control queue's front packet of this opcode in svcNs ns. -/
  | fwLoad (svcNs : Nat)
  /-- FW_ACCEPT (R567). Writes a checked staged image into the inactive slot and makes it active. Operands: the management core executes the control queue's front packet of this opcode in svcNs ns. -/
  | fwAccept (svcNs : Nat)
  /-- DEBUG_ENABLE (R614). Sets the debug scope of injection and trace. Operands: the management core executes the control queue's front packet of this opcode in svcNs ns. -/
  | debugEnable (svcNs : Nat)
  /-- WEAR_OVERRIDE (R577). Lets one persistent word take writes from 950,000 without presence. Operands: the management core executes the control queue's front packet of this opcode in svcNs ns. -/
  | wearOverride (svcNs : Nat)
  /-- REMOTE_RESET (R136). Starts a presence-gated warm reset with no completion record. Operands: the management core executes the control queue's front packet of this opcode in svcNs ns. -/
  | remoteReset (svcNs : Nat)
  /-- HOST_LOSS_MODE (R497). Writes the persistent host-loss mode and override. Operands: the management core executes the control queue's front packet of this opcode in svcNs ns. -/
  | hostLossMode (svcNs : Nat)
  /-- REATTACH (R504). Copies detach-log entries to a buffer and reattaches when the log is empty. Operands: the management core executes the control queue's front packet of this opcode in svcNs ns. -/
  | reattach (svcNs : Nat)
  /-- CONC_DB (R110). Doorbell write makes the concourse read a ring's TAIL and its complete packets. Operands: a write of w to CONC_DB. -/
  | concDb (w : Word)
  /-- CONC_ENABLE (R154). Setting CONC_CTL.EN starts the administrative rings. Operands: a write of w, with EN set, to CONC_CTL. -/
  | concEnable (w : Word)
  /-- CHUNK_ADMIT (R84). Concourse admits a waiting chunk once the open flight's budgets can pay for it. Operands: the next chunk of item is admitted; gal is the gallery taken for an item that has none. -/
  | chunkAdmit (item gal : Nat)
  /-- RING_FULL_ADVISORY (R127). After 16 landings in CQ_WAIT, writes one advisory ST_RING_FULL record. Operands: command ring. -/
  | ringFullAdvisory (ring : Nat)
  /-- LANDING (R70). Hall-time tick that closes a flight, computes budgets and opens the next flight. -/
  | landing
  /-- FLIGHT_LENGTH_CHANGE (R69). Takes up an armed flight length at its named landing. -/
  | flightLengthChange
  /-- SWITCH_TAKES_EFFECT (R170). At its landing, a scheduled SWITCH makes the READY slot CURRENT and the old one OLD. -/
  | switchTakesEffect
  /-- STATE_CHANGE_TAKES_EFFECT (R169). At its landing, a scheduled table state change is checked and made. -/
  | stateChangeTakesEffect
  /-- EPOCH_BUMP_TAKES_EFFECT (R189). At its landing, CUR becomes PREV, pending NEXT becomes CUR and EPOCH rises. -/
  | epochBumpTakesEffect
  /-- MIGRATE_START (R294). At its AT_LANDING, a scheduled migration checks and sends MIG_START. -/
  | migrateStart
  /-- GRACE_END (R300). Ends a migration's read-only grace at the second landing after GRACE began. -/
  | graceEnd
  /-- SLOT_EMPTY (R176). An OLD slot becomes EMPTY two landings after it is unreferenced and switched. Operands: table and version slot. -/
  | slotEmpty (table slot : Nat)
  /-- PROMOTE_BY_AGE (R95). Promotes a class 2 item to class 1 after BULK_AGE landings. Operands: context. -/
  | promoteByAge (item : Nat)
  /-- PROMOTE_BY_MARGIN (R96). Promotes a class 2 item to class 0 when its due landing is at most two landings away. Operands: context. -/
  | promoteByMargin (item : Nat)
  /-- HELD_RUN (R56). Executes held scheduled actions at the first landing after leaving FREE_LONG. -/
  | heldRun
  /-- BEACON_SEND (R44). The root sends a hall time beacon once per microsecond. -/
  | beaconSend
  /-- BEACON (R46). An arriving beacon is checked, counted or accepted, forwarded and used for sync. Operands: arriving on port. -/
  | beacon (port : Nat) (b : Beacon)
  /-- RESYNC_STEP (R59). At the next landing, takes the beacon's landing number and phase and adjusts due landings. -/
  | resyncStep
  /-- UPSTREAM_SWITCH (R47). After 2 µs without a valid upstream beacon, switches to the alternate port. -/
  | upstreamSwitch
  /-- SYNC_FREE (R51). After 8 µs without a valid beacon, enters FREE and runs on its own clock. -/
  | syncFree
  /-- SYNC_FREE_LONG (R52). Enters FREE_LONG when the free time exceeds 1,008 µs. -/
  | syncFreeLong
  /-- REFCLK_LOSS (R20). After 1 µs without YF_REFCLK, clocks the handrail from the ring oscillator. -/
  | refclkLoss
  /-- REFCLK_RETURN (R20). After YF_REFCLK is present for 1 µs, the handrail returns to it at the next landing. -/
  | refclkReturn
  /-- FLT_ROOT_WRITE (R632). Writing FLT_ROOT changes the synchronisation state from the next landing. Operands: a write of FLT_ROOT. -/
  | fltRootWrite (path : Path) (w : Word)
  /-- FLT_LEN_AT_HI_WRITE (R67). Writing FLT_LEN_AT_HI arms a flight-length change, or is discarded under R68. Operands: a write of FLT_LEN_AT_HI. -/
  | fltLenAtHiWrite (w : Word)
  /-- RESYNC (R63). FLT_CTL.RESYNC makes the next valid beacon be treated as after a loss. -/
  | resync
  /-- LAG_CLR (R93). FLT_CTL.LAG_CLR sets the lag to 0 at the next landing. -/
  | lagClr
  /-- NRG_WINDOW (R76). Every 1 ms, updates the static energy charge and spreads the excess as a correction. Operands: measured static charge per flight and measured energy of the window. -/
  | nrgWindow (staticNj measuredNj : Nat)
  /-- GATHER (R293). A home checks and resolves an arriving GATHER and serves, forwards or refuses it. Operands: arriving frame; what its stairwell reads find. -/
  | gather (f : Frame) (ecc : Ecc)
  /-- REPLY (R275). The origin matches an arriving REPLY to its tether and pools its rows. Operands: arriving frame. -/
  | reply (f : Frame)
  /-- NACK (R284). An arriving NACK ends the kite's item with the status its REASON gives. Operands: arriving frame. -/
  | nack (f : Frame)
  /-- UPDATE (R337). A home checks an arriving UPDATE against its ledger and applies, dual-applies or forwards it. Operands: arriving frame. -/
  | update (f : Frame)
  /-- UPDATE_ACK (R325). An arriving UPDATE_ACK answers the tether and sets the home's credit. Operands: arriving frame. -/
  | updateAck (f : Frame)
  /-- MIG_START (R294). The target accepts or refuses a shard migration. Operands: arriving frame. -/
  | migStart (f : Frame)
  /-- MIG_DATA (R295). The target writes arriving migration lines into its NEXT region. Operands: arriving frame. -/
  | migData (f : Frame)
  /-- MIG_ACK (R298). The old home records acknowledged lines and sends MIG_DONE when all are acknowledged. Operands: arriving frame. -/
  | migAck (f : Frame)
  /-- MIG_DONE (R298). The target enters COMPLETE for the shard. Operands: arriving frame. -/
  | migDone (f : Frame)
  /-- HALL_READ (R528). A peer serves a hall copy read of its memory. Operands: arriving frame; what its stairwell reads find. -/
  | hallRead (f : Frame) (ecc : Ecc)
  /-- HALL_WRITE (R528). A peer applies a hall copy write to its memory. Operands: arriving frame. -/
  | hallWrite (f : Frame)
  /-- HALL_ACK (R527). The origin takes the answer to a HALL_READ or HALL_WRITE. Operands: arriving frame. -/
  | hallAck (f : Frame)
  /-- TRANSIT_FRAME (R291). The router forwards or discards a frame addressed to another engine. Operands: frame for another engine; nanoseconds it has spent in this router and the link before it; the port at which it came in with a failing frame CRC, if so. -/
  | transitFrame (f : Frame) (waitNs : Nat) (badCrc : Option Nat)
  /-- LINK_ACK (R285). A link-layer acknowledgement releases held frames on a port. Operands: the oldest count frames held on port are acknowledged. -/
  | linkAck (port count : Nat)
  /-- LINK_RETRANSMIT (R285). A frame unacknowledged for 500 ns is sent again. Operands: the oldest held frame of port. -/
  | linkRetransmit (port : Nat)
  /-- LOSS_OF_LIGHT (R286). A port that has seen no light for 1 µs declares its link down. Operands: port. -/
  | lossOfLight (port : Nat)
  /-- LINK_UP (R288). A port's link comes up. Operands: port. -/
  | linkUp (port : Nat)
  /-- PRIMARY_ROUTE_RESTORE (R288). A primary route up for 100 µs carries new frames again. Operands: port whose link has stayed up. -/
  | primaryRouteRestore (port : Nat)
  /-- ZP_PORT_ENABLE (R16). Setting ZP_PORT_CTL.EN lights the port's lasers. Operands: a write of ZP_PORT_CTL with EN set. -/
  | zpPortEnable (path : Path)
  /-- ZP_PORT_DISABLE (R286). Clearing ZP_PORT_CTL.EN darkens the lasers and takes the link down. Operands: a write of ZP_PORT_CTL with EN clear. -/
  | zpPortDisable (path : Path)
  /-- ZP_ROUTE_WRITE (R306). Writing a route entry changes routes for frames taken up afterwards. Operands: a write of ZP_ROUTE. -/
  | zpRouteWrite (path : Path) (w : Word)
  /-- SLOT_HELD_EXPIRE (R276). A HELD tether slot returns to FREE 2 µs after its answer. Operands: tether slot. -/
  | slotHeldExpire (slot : Nat)
  /-- KITE_TIMEOUT (R277). A BUSY slot unanswered within LIFE is aborted and quarantined. Operands: tether slot. -/
  | kiteTimeout (slot : Nat)
  /-- QUARANTINE_END (R277). A QUARANTINED slot returns to FREE after twice LIFE. Operands: tether slot. -/
  | quarantineEnd (slot : Nat)
  /-- KITE_ABANDON (R280). A home abandons a kite unanswered within LIFE − 32 µs of arrival. Operands: served kite. -/
  | kiteAbandon (id : Nat)
  /-- CREDIT_BACKOFF_END (R325). After BACKOFF landings, the origin takes the home's credit as DEF_CREDIT. Operands: home engine. -/
  | creditBackoffEnd (home : Nat)
  /-- ADDER_TAKE (R329). The stairwell adders take the oldest kite from the inbox into the combining buffer. -/
  | adderTake
  /-- COMBINE_FLUSH (R329). A combining-buffer line leaves in one read-modify-write at most 2 µs after its first delta. Operands: line index (local offset / 64); what the read of it finds. -/
  | combineFlush (line : Nat) (ecc : Ecc)
  /-- UPDATE_APPLIED (R330). Once every add of a kite reaches the stairwell, the home sends its UPDATE_ACK. Operands: served update. -/
  | updateApplied (id : Nat)
  /-- INBOX_TAKEUP_EXPIRE (R330). A kite not taken up by LIFE − 33 µs is removed unapplied. -/
  | inboxTakeupExpire
  /-- LEDGER_EXPIRE (R334). A ledger entry expires twice LIFE after it was recorded. -/
  | ledgerExpire
  /-- RESET_NACK_WINDOW_END (R335). Twice LIFE after a warm reset, the home stops refusing UPDATEs with REASON 8. -/
  | resetNackWindowEnd
  /-- KITE_UPD_SNAP (R343). KITE_UPD_SEL.SNAP snapshots and zeroes a table's update statistics. Operands: a write of KITE_UPD_SEL with SNAP set. -/
  | kiteUpdSnap (w : Word)
  /-- GAL_STAT_SNAP (R400). GAL_STAT_SEL.SNAP merges, snapshots and zeroes a table's bag statistics. Operands: a write of GAL_STAT_SEL with SNAP set. -/
  | galStatSnap (w : Word)
  /-- STAT_FLUSH (R400). Statistics units write their figures to the area at least every 1 ms. Operands: gallery. -/
  | statFlush (gal : Nat)
  /-- ROW_ARRIVAL (R233). A row read from cache, stairwell or balloon arrives and is pooled. Operands: list position pos of the waiting read group key (an item, or a served kite). -/
  | rowArrival (key pos : Nat) (r : RowRead)
  /-- DENSE_CREDIT (R254). The dense complex returns delivery credits, letting a DENSE delivery proceed. Operands: credits returned. -/
  | denseCredit (n : Nat)
  /-- RC_FILL (R410). A row-cache fill returns, is delivered and is allocated unless withheld. Operands: miss entry; what the stairwell read found. -/
  | rcFill (miss : Nat) (ecc : Ecc)
  /-- INV_RANGE (R430). Queues an invalidation of KIND 0 lines in a hall-address range. -/
  | invRange
  /-- INV_TABLE (R430). Queues an invalidation of a table's lines in the chosen slots. Operands: a write of RC_MNT_CMD with OP 2. -/
  | invTable (table slots : Nat)
  /-- INV_ALL (R430). Queues an invalidation of every unpinned line. -/
  | invAll
  /-- MNT_NOP (R430). Queues a maintenance request that invalidates nothing. -/
  | mntNop
  /-- MNT_WALK_DONE (R430). A maintenance walk of 8,192 sets ends and the next queued request starts. -/
  | mntWalkDone
  /-- RC_ENABLE (R427). RC_CTL.EN from 0 to 1 invalidates unpinned lines, or keeps them with KEEP. Operands: a write of RC_CTL with EN set. -/
  | rcEnable (w : Word)
  /-- RC_DISABLE (R426). Clearing RC_CTL.EN stops lookups and allocation. Operands: a write of RC_CTL with EN clear. -/
  | rcDisable (w : Word)
  /-- RC_PIN_WRITE (R420). Writing RC_PIN changes the pinned ways, invalidating newly pinned ways. Operands: a write of RC_PIN. -/
  | rcPinWrite (w : Word)
  /-- HOST_MEM_WRITE (R470). A CXL.mem host write reaches stairwell memory through the row cache. Operands: local offset and bytes. -/
  | hostMemWrite (off : Nat) (data : List Byte)
  /-- HOST_MEM_READ (R470). A CXL.mem host read returns stairwell data. Operands: local offset and length; what the stairwell read finds. -/
  | hostMemRead (off len : Nat) (ecc : Ecc)
  /-- REFRESH (R443). DRAM rows are refreshed at the column's refresh rate. Operands: column. -/
  | refresh (col : Nat)
  /-- TEMP_SAMPLE (R443). Every 10 µs, samples die temperatures and sets refresh and temperature state. Operands: column and its die readings. -/
  | tempSample (col : Nat) (temps : List Int)
  /-- SCRUB_READ (R450). The scrub reads, corrects or poisons lines over each scrub period. Operands: local offset of the line, the data or check connection its symbol error decodes to, what the read finds. -/
  | scrubRead (off conn : Nat) (ecc : Ecc)
  /-- SCRUB_PASS_END (R450). At the end of a scrub pass, counts it and zeroes the row counts. Operands: column. -/
  | scrubPassEnd (col : Nat)
  /-- REMAP_DONE (R453). The remap copy ends and the remap-table entry is installed. Operands: column. -/
  | remapDone (col : Nat)
  /-- STW_REG_CFG_WRITE (R442). Writing a partition bucket's config takes effect at once and fills it to BURST. Operands: a write of STW_REG_CFG. -/
  | stwRegCfgWrite (col : Nat) (w : Word)
  /-- MARCH_TEST_START (R460). STW_TEST_CTL.START starts a march test, or is refused. Operands: a write of STW_TEST_CTL with START set. -/
  | marchTestStart (col : Nat) (w : Word)
  /-- MARCH_TEST_DONE (R461). A march test ends and queues an INV_ALL of the row cache. Operands: column and the lines that failed, as (channel, bank, row, line) packed as in STW_TEST_FIRST. -/
  | marchTestDone (col : Nat) (fails : List Nat)
  /-- ATS_COMPLETION (R482). An ATS completion installs a translation or leads to a page request. Operands: outstanding request and the host's answer. -/
  | atsCompletion (id : Nat) (r : AtsReply)
  /-- PAGE_REQUEST_RESPONSE (R483). A PRI response retries translation or fails the access. Operands: outstanding page request and the host's answer. -/
  | pageRequestResponse (id : Nat) (r : PriReply)
  /-- PAGE_REQUEST_TIMEOUT (R483). A page request unanswered for TIMEOUT_MS fails as Invalid Request. Operands: outstanding page request. -/
  | pageRequestTimeout (id : Nat)
  /-- ATS_INVALIDATION (R485). Removes matching translations and sends the invalidation completion. Operands: PASID and range. -/
  | atsInvalidation (pasid addr size : Nat)
  /-- PRI_ENABLE_CHANGE (R483). The host changes ATS or PRI enable, clearing PRI_STOP when PRI is re-enabled. Operands: the host's new enables. -/
  | priEnableChange (ats pri : Bool)
  /-- HOT_WINDOW_END (R495). At each window end, writes hot-page records, frees counters and signals. -/
  | hotWindowEnd
  /-- HOST_LINK_DOWN (R498). At a link-down, the engine detaches and empties its TLBs. -/
  | hostLinkDown
  /-- HOST_LINK_UP (R502). At a link-up, a DETACHED engine enters ATTACHING. -/
  | hostLinkUp
  /-- HOST_LOSS_RESET (R500). In SELF_RESET, a link down for 100 ms starts a warm reset. -/
  | hostLossReset
  /-- COPY_READ_ERROR (R524). A host read error completion is retried or ends the copy and halts the channel. Operands: outstanding host read; offset of the first byte that it answers with an error. -/
  | copyReadError (id first : Nat)
  /-- CPY_CH_STOP (R521). Setting or clearing CPY_CH_CTL.STOP stops or resumes a channel. Operands: a write of CPY_CH_CTL that changes STOP on the selected channel. -/
  | cpyChStop (stop : Bool)
  /-- CPY_HALT_CLEAR (R524). Writing 1 to CPY_CH_STAT.HALT clears a channel's halt. -/
  | cpyHaltClear
  /-- POWER_ON (R538). The standby rail rises and, with YF_REFCLK good, power-on releases after 1,024 cycles. -/
  | powerOn
  /-- STANDBY_RAIL_FALL (R562). The standby rail falls and the backup domain samples alone. -/
  | standbyRailFall
  /-- VBAK_LOSS (R23). YF_VBAK falls below 1.5 V with standby off and backup contents are lost. -/
  | vbakLoss
  /-- YF_RSTIN_ASSERT (R539). YF_RSTIN# low for 1 µs asserts a cold reset. -/
  | yfRstinAssert
  /-- YF_RSTIN_RELEASE (R539). YF_RSTIN# high for 1 µs releases the cold reset. -/
  | yfRstinRelease
  /-- WARM (R540). HR_RST_CMD WARM with the key starts a warm reset. Operands: a write of HR_RST_CMD with KIND 1. -/
  | warm (path : Path) (w : Word)
  /-- COLD (R540). HR_RST_CMD COLD with the key starts a cold reset, if its path allows. Operands: a write of HR_RST_CMD with KIND 2. -/
  | cold (path : Path) (w : Word)
  /-- ABORT_PHASE_END (R541). The warm reset's abort phase ends and the domains are held in reset. -/
  | abortPhaseEnd
  /-- RESET_HOLD_END (R541). A self-timed warm or cold source releases after its hold. -/
  | resetHoldEnd
  /-- RELEASE_STEP (R552). The release sequence takes its next step after the gap or stretch. -/
  | releaseStep
  /-- DOMAIN_READY (R554). A released domain becomes ready after its bring-up work. Operands: the strap converter's code (step 1) and the first reading of each of the 64 dies (step 2). -/
  | domainReady (strap : Nat) (temps : List Int)
  /-- UNIT_RESET_DONE (R547). A reset unit becomes ready and the UNIT_RESET completes. -/
  | unitResetDone
  /-- BOOT (R564). After step 4, the boot ROM verifies and starts a firmware image. -/
  | boot
  /-- BOOT_REQUEST (R565). Once per second, the boot ROM requests an image over the handrail lane. -/
  | bootRequest
  /-- BOOT_IMAGE (R565). A lane message delivers part of a boot image. Operands: byte offset and bytes. -/
  | bootImage (off : Nat) (data : List Byte)
  /-- WDOG_EXPIRY (R612). Watchdog expiry restarts the management core, or warm-resets at stage 1. -/
  | wdogExpiry
  /-- ERR_WDOG_KICK (R612). A firmware kick restarts the watchdog count and clears STAGE. -/
  | errWdogKick
  /-- ERR_WDOG_CTL_WRITE (R613). Firmware's one write of the watchdog period and enable after a start. Operands: firmware's write. -/
  | errWdogCtlWrite (w : Word)
  /-- PERSIST_DONE (R574). A queued persistent write is persisted and the next one starts. -/
  | persistDone
  /-- RWP_REGISTER_WRITE (R573). A write to a persistent register takes effect and is queued for persisting. Operands: BAR offset and value. -/
  | rwpRegisterWrite (off : Nat) (w : Word)
  /-- HR_MFP_FUNC_WRITE (R558). Writing pin functions changes pins through the keeper, keeping a THERMTRIP# pin. Operands: value. -/
  | hrMfpFuncWrite (w : Word)
  /-- PRESENCE_PRESS (R150). YF_PRESENCE# held low for 50 ms with the seal closed makes presence valid. -/
  | presencePress
  /-- PRESENCE_EXPIRE (R152). Presence by button lapses 60 s after the press. -/
  | presenceExpire
  /-- SEAL_SAMPLE (R561). Every 10 µs, samples the seal loop and detects a break. Operands: the loop as sampled. -/
  | sealSample (closed : Bool)
  /-- BACKUP_SEAL_SAMPLE (R562). Once per second on backup power, samples the seal loop. Operands: the loop as sampled. -/
  | backupSealSample (closed : Bool)
  /-- THERMTRIP (R39). The analogue sensor at 125 °C or above drives THERMTRIP#. Operands: the analogue sensor. -/
  | thermtrip (temp : Int)
  /-- CORE_SUPPLY_RISE (R39). The core supply rises and releases THERMTRIP#. Operands: the analogue sensor. -/
  | coreSupplyRise (temp : Int)
  /-- HOT (R38). A gallery or logic sensor crosses 105 °C or returns to 100 °C and budgets halve or restore. Operands: the hottest gallery or logic sensor. -/
  | hot (temp : Int)
  /-- GAL_CE (R589). A gallery reports a correctable error, counted against GAL_CE_LIMIT. Operands: gallery. -/
  | galCe (gal : Nat)
  /-- GAL_ERROR (R589). A gallery detector fires and the gallery is fenced. Operands: gallery and detector. -/
  | galError (gal det : Nat)
  /-- SPARE_TEST_DONE (R591). A spare's 50 µs self-test ends, passing or fencing it. Operands: result. -/
  | spareTestDone (pass : Bool)
  /-- SPARE_ENABLED (R591). A passed spare becomes enabled at the next landing. -/
  | spareEnabled
  /-- FLOOR_BREACH (R595). With enabled galleries below FLOOR, requests a drain and sets REPLACE. -/
  | floorBreach
  /-- SELFTEST_UNIT_DONE (R603). A unit under self-test finishes and is retested, fenced or returned. Operands: 0, or the failure code of R604. -/
  | selftestUnitDone (code : Nat)
  /-- SELFTEST_IDLE_TIMEOUT (R602). A gallery not idle within 10 ms is returned untested. -/
  | selftestIdleTimeout
  /-- HOUR_WINDOW (R637). Every 3,600 s, hourly error counts return to 0. -/
  | hourWindow
  /-- FATAL (R598). An uncorrectable error in shared logic forces a drain. Operands: DATA0 of the FATAL record. -/
  | fatal (which : Nat)
  /-- DRAINED (R598). A draining engine holds no context or copy and becomes DRAINED. -/
  | drained
  /-- ERR_DRAIN_CMD (R600). Writing the drain key forces a drain without firmware. Operands: a write of ERR_DRAIN_CMD. -/
  | errDrainCmd (path : Path) (w : Word)
  /-- ERR_FENCE_CMD (R593). Writing the fence key fences a gallery without firmware. Operands: a write of ERR_FENCE_CMD. -/
  | errFenceCmd (path : Path) (w : Word)
  /-- ERR_INJECT (R615). Arming ERR_INJECT injects an error at the gallery's next step. -/
  | errInject
  /-- ERR_PEND_CLEAR (R588). Clearing pending class bits releases ALERT# when none enabled remain. Operands: a write of ERR_PEND. -/
  | errPendClear (path : Path) (w : Word)
  /-- ERROR_RECORD (R586). The handrail sends the next unsent error record over the lane. -/
  | errorRecord
  /-- TELEMETRY (R149). Firmware sends a periodic telemetry record, decimated under load. -/
  | telemetry
  /-- TELEMETRY_WINDOW (R149). Each 1 ms window adjusts the telemetry decimation exponent. -/
  | telemetryWindow
  /-- REG_READ (R611). A lane request reads a register and is answered once. Operands: lane request. -/
  | regRead (seq off : Nat)
  /-- REG_WRITE (R611). A lane request writes a lane-writable register or is denied. Operands: lane request. -/
  | regWrite (seq off : Nat) (w : Word)
  /-- LANE_READ_NO_RESPONSE (R611). A lane read whose domain gives no value in 10 µs is answered NO_RESPONSE. Operands: a lane request still unanswered. -/
  | laneReadNoResponse (seq : Nat)
  /-- PACKET (R133). A lane message delivers a tenant 0 command packet. Operands: the message's SEQ and payload. -/
  | packet (seq : Nat) (pkt : List Word)
  /-- LO_READ (R6). Reading a _LO register latches the matching _HI half. Operands: offset of a _LO register. -/
  | loRead (path : Path) (off : Nat)
  /-- LO_WRITE (R7). Writing a _LO register holds the half apart until the _HI write. Operands: offset of a _LO register. -/
  | loWrite (off : Nat) (w : Word)
  /-- HI_WRITE (R7). Writing a _HI register applies the whole 64-bit value. Operands: offset of a _HI register. -/
  | hiWrite (off : Nat) (w : Word)
  /-- REGISTER_WRITE (R12). A write to a register with no row of its own takes effect under its access code. Operands: BAR offset, width in bytes, value. -/
  | registerWrite (off width val : Nat)
  /-- HOST_READ_COMPLETION (R115). A read the engine issued to host memory (TAIL, packet, list, weights, copy source or prefetch) returns its data, possibly poisoned. Operands: outstanding host read; its data; the offset of its first poisoned byte, if any. -/
  | hostReadCompletion (id : Nat) (data : List Byte) (poison : Option Nat)
  /-- PARTITION_TOKEN_GAIN (R441). A partition bucket with EN = 1 gains RATE tokens per microsecond, up to BURST, releasing accesses that waited for a token. Operands: column and partition. -/
  | partitionTokenGain (col part : Nat)
  /-- LANDING_PULSE_END (R556). A LANDING pin's pulse falls WIDTH reference cycles after the landing that raised it. -/
  | landingPulseEnd
  /-- PIN_KEEPER_RELEASE (R558). Four reference cycles after a pin's function changes, the keeper lets go and the new function drives the pin. Operands: pin. -/
  | pinKeeperRelease (pin : Nat)
  /-- PRES_LED_BLINK (R556). A PRES_LED pin toggles at 4 Hz while presence is valid by lab strap, or at 1 Hz while the seal loop is open. -/
  | presLedBlink
deriving DecidableEq, Repr

end Sys2Proof
end

