-- ==== Sys2Proof/Decode.lean ====
section
/-! DEFINITION. The command that a word spells by the table's bits. No row of the table of operations gives bits: the
part's commands reach it as packets, frames, register accesses and events, so no word spells one. -/
namespace Sys2Proof

/-- No row gives bits, so a word of the table spells no command. -/
def decodeTableWord (_nbits _w : Nat) : Option Instr := none

end Sys2Proof
end

