-- ==== Sys2Proof/Machine/Numeric.lean ====
section
/-! DEFINITION. Exact values and the one rounding of the engine: R3 (nearest, ties to even), the formats of R193, R239,
and the special values of R238, R241 to R243. -/
namespace Sys2Proof.Machine

/-- An exact value: NaN, an infinity, or plus or minus num/den. A zero carries its sign (R238). -/
inductive Val where
  | nan
  | inf (neg : Bool)
  | fin (neg : Bool) (num den : Nat)
deriving DecidableEq, Repr, Inhabited

/-- Plus zero. -/
def Val.zero : Val := .fin false 0 1

/-- The value of an integer. -/
def Val.ofInt (i : Int) : Val := .fin (decide (i < 0)) i.natAbs 1

/-- The magnitude of a finite value is zero. -/
def Val.isZero : Val → Bool
  | .fin _ n _ => n == 0
  | _ => false

/-- The value is a NaN. -/
def Val.isNan : Val → Bool
  | .nan => true
  | _ => false

/-- The value is an infinity. -/
def Val.isInf : Val → Bool
  | .inf _ => true
  | _ => false

/-- A common denominator of two denominators: the larger when one divides the other. -/
def comDen (b d : Nat) : Nat := if d % b = 0 then d else if b % d = 0 then b else b * d

/-- The signed numerator over a denominator that the value's own divides. -/
def Val.numOver (v : Val) (d : Nat) : Int :=
  match v with
  | .fin neg n k => let m : Int := (n * (d / k) : Nat); if neg then -m else m
  | _ => 0

/-- Exact sum (R233, R238): NaN absorbs, opposed infinities give NaN, a zero sum is negative only when both terms are
negative zeros. -/
def Val.add (a b : Val) : Val :=
  match a, b with
  | .nan, _ => .nan
  | _, .nan => .nan
  | .inf s, .inf t => if s = t then .inf s else .nan
  | .inf s, .fin _ _ _ => .inf s
  | .fin _ _ _, .inf t => .inf t
  | .fin s n k, .fin t m l =>
    let d := comDen k l
    let sum := (Val.fin s n k).numOver d + (Val.fin t m l).numOver d
    if sum = 0 then .fin (s && t && n == 0 && m == 0) 0 1
    else .fin (decide (sum < 0)) sum.natAbs d

/-- Exact negation. -/
def Val.neg : Val → Val
  | .nan => .nan
  | .inf s => .inf (!s)
  | .fin s n k => .fin (!s) n k

/-- Magnitude. -/
def Val.abs : Val → Val
  | .nan => .nan
  | .inf _ => .inf false
  | .fin _ n k => .fin false n k

/-- Exact product. Zero times an infinity has no exact product: its value is the argument zi, which every caller takes
from Config (the spec states no result there). -/
def Val.mul (zi : Val) (a b : Val) : Val :=
  match a, b with
  | .nan, _ => .nan
  | _, .nan => .nan
  | .inf s, .inf t => .inf (s != t)
  | .inf s, .fin t m _ => if m = 0 then zi else .inf (s != t)
  | .fin s n _, .inf t => if n = 0 then zi else .inf (s != t)
  | .fin s n k, .fin t m l => .fin (s != t) (n * m) (k * l)

/-- Exact quotient by a positive count; the sign is kept (R238). -/
def Val.divNat (a : Val) (c : Nat) : Val :=
  match a with
  | .fin s n k => .fin s n (k * c)
  | v => v

/-- Exact quotient by a positive, finite, normal value such as OSCALE (R240); the sign is kept (R238). A divisor of any
other kind never reaches here, since R218 refuses it. -/
def Val.divPos (a b : Val) : Val :=
  match a, b with
  | .fin s n k, .fin _ m l => .fin s (n * l) (k * m)
  | v, _ => v

/-- a is below b. +0 counts as above -0 (R234). NaN is below nothing. -/
def Val.lt (a b : Val) : Bool :=
  match a, b with
  | .nan, _ => false
  | _, .nan => false
  | .inf s, .inf t => s && !t
  | .inf s, .fin _ _ _ => s
  | .fin _ _ _, .inf t => !t
  | .fin s n k, .fin t m l =>
    let d := comDen k l
    let x := (Val.fin s n k).numOver d
    let y := (Val.fin t m l).numOver d
    if n = 0 && m = 0 then s && !t else decide (x < y)

/-- The larger of two values; NaN wins (R234). -/
def Val.max (a b : Val) : Val :=
  if a.isNan || b.isNan then .nan else if a.lt b then b else a

/-- The smaller of two values; NaN wins. -/
def Val.min (a b : Val) : Val :=
  if a.isNan || b.isNan then .nan else if b.lt a then b else a

/-- The exact sum of a list; the empty sum is +0. -/
def Val.sum : List Val → Val
  | [] => .zero
  | [v] => v
  | v :: vs => Val.add v (Val.sum vs)

/-- num/den rounded to the nearest whole number, ties to even (R3). -/
def rne (num den : Nat) : Nat :=
  let q := num / den
  let r := num % den
  if 2 * r > den then q + 1 else if 2 * r = den then q + q % 2 else q

/-- A floating format: mantissa bits, bias, code of the largest finite value, code of infinity if the format has one,
canonical NaN (R243), and total width. -/
structure FFmt where
  man : Nat
  bias : Nat
  maxCode : Nat
  infCode : Option Nat
  nanCode : Nat
  width : Nat
deriving DecidableEq, Repr

/-- OCP E4M3 (R193). -/
def fE4M3 : FFmt := ⟨3, 7, 0x7E, none, 0x7F, 8⟩
/-- OCP E5M2 (R193). -/
def fE5M2 : FFmt := ⟨2, 15, 0x7B, some 0x7C, 0x7E, 8⟩
/-- BF16 (R193). -/
def fBF16 : FFmt := ⟨7, 127, 0x7F7F, some 0x7F80, 0x7FC0, 16⟩
/-- IEEE binary16 (R193). -/
def fFP16 : FFmt := ⟨10, 15, 0x7BFF, some 0x7C00, 0x7E00, 16⟩
/-- IEEE binary32 (R193). -/
def fFP32 : FFmt := ⟨23, 127, 0x7F7FFFFF, some 0x7F800000, 0x7FC00000, 32⟩

/-- The exact value of a code (R193, R197: subnormals are kept). -/
def FFmt.decode (f : FFmt) (code : Nat) : Val :=
  let neg := code.testBit (f.width - 1)
  let mag := code % 2 ^ (f.width - 1)
  if mag > f.maxCode then (if f.infCode = some mag then .inf neg else .nan)
  else
    let e := mag / 2 ^ f.man
    let m := mag % 2 ^ f.man
    -- the exponent of the last place is max e 1 - bias - man
    let sig := if e = 0 then m else m + 2 ^ f.man
    let ex := (if e = 0 then 1 else e)
    if ex ≥ f.bias + f.man then .fin neg (sig * 2 ^ (ex - f.bias - f.man)) 1
    else .fin neg sig (2 ^ (f.bias + f.man - ex))

/-- The code of the magnitude num/den rounded once to nearest even (R3), with no upper bound on the exponent. -/
def FFmt.roundMag (f : FFmt) (num den : Nat) : Nat :=
  if num = 0 then 0 else
    -- e0 is the floor of the base-2 logarithm of num/den, held as an Int
    let a := Nat.log2 num
    let b := Nat.log2 den
    let up : Bool := if a ≥ b then decide (num ≥ den * 2 ^ (a - b)) else decide (num * 2 ^ (b - a) ≥ den)
    let e0 : Int := (a : Int) - b + (if up then 0 else -1)
    let biased : Int := e0 + f.bias
    if biased ≥ 1 then
      -- quantum 2^(e0 - man)
      let sh : Int := e0 - f.man
      let q := if sh ≥ 0 then rne num (den * 2 ^ sh.toNat) else rne (num * 2 ^ (-sh).toNat) den
      biased.toNat * 2 ^ f.man + q - 2 ^ f.man
    else
      let sh : Int := 1 - (f.bias : Int) - f.man
      if sh ≥ 0 then rne num (den * 2 ^ sh.toNat) else rne (num * 2 ^ (-sh).toNat) den

/-- A code with a sign. -/
def FFmt.signed (f : FFmt) (neg : Bool) (mag : Nat) : Nat := if neg then mag + 2 ^ (f.width - 1) else mag

/-- The result of an output conversion: the code and whether the element saturated. -/
structure Conv where
  code : Nat
  sat : Bool
deriving DecidableEq, Repr

/-- Conversion to a floating format that saturates at its largest finite value (R240, R241, R243). An infinity keeps
its sign where the format has one and saturates where it has none. -/
def FFmt.convSat (f : FFmt) (v : Val) : Conv :=
  match v with
  | .nan => ⟨f.nanCode, false⟩
  | .inf s =>
    match f.infCode with
    | some c => ⟨f.signed s c, false⟩
    | none => ⟨f.signed s f.maxCode, true⟩
  | .fin s n d =>
    let c := f.roundMag n d
    if c > f.maxCode then ⟨f.signed s f.maxCode, true⟩ else ⟨f.signed s c, false⟩

/-- Conversion to a floating format whose overflow is an infinity of the sign (R242, R313 for FP32). -/
def FFmt.convInf (f : FFmt) (v : Val) : Nat :=
  match v with
  | .nan => f.nanCode
  | .inf s => f.signed s (f.infCode.getD f.maxCode)
  | .fin s n d =>
    let c := f.roundMag n d
    if c > f.maxCode then f.signed s (f.infCode.getD f.maxCode) else f.signed s c

/-- The nearest integer of a finite value, ties to even (R3); 0 for the others. -/
def Val.roundInt : Val → Int
  | .fin s n d => let q : Int := (rne n d : Nat); if s then -q else q
  | _ => 0

/-- A two's complement code of width w. -/
def twos (w : Nat) (i : Int) : Nat := (i % (2 ^ w : Nat)).toNat

/-- The signed value of a code of width w. -/
def signedOf (w code : Nat) : Int :=
  let c := code % 2 ^ w
  if c ≥ 2 ^ (w - 1) then (c : Int) - (2 ^ w : Nat) else c

/-- Conversion to two's complement of width w (R239, R241): saturates at the ends, NaN gives 0 and saturates. -/
def convInt (w : Nat) (v : Val) : Conv :=
  let hi : Int := (2 ^ (w - 1) : Nat) - 1
  let lo : Int := -(2 ^ (w - 1) : Nat)
  match v with
  | .nan => ⟨0, true⟩
  | .inf s => ⟨twos w (if s then lo else hi), true⟩
  | .fin _ _ _ =>
    let i := v.roundInt
    if i > hi then ⟨twos w hi, true⟩ else if i < lo then ⟨twos w lo, true⟩ else ⟨twos w i, false⟩

/-- Output formats of R239. -/
inductive OutFmt where
  | int8 | int32 | e4m3 | e5m2 | bf16 | fp16 | fp32 | fp32Pair
deriving DecidableEq, Repr

/-- OUT_FMT code (R239); all eight codes are defined. -/
def OutFmt.ofCode (n : Nat) : OutFmt :=
  match n % 8 with
  | 0 => .int8 | 1 => .int32 | 2 => .e4m3 | 3 => .e5m2 | 4 => .bf16 | 5 => .fp16 | 6 => .fp32 | _ => .fp32Pair

/-- Bytes per output element (R239). -/
def OutFmt.bytes : OutFmt → Nat
  | .int8 => 1 | .int32 => 4 | .e4m3 => 1 | .e5m2 => 1 | .bf16 => 2 | .fp16 => 2 | .fp32 => 4 | .fp32Pair => 8

/-- FP32_PAIR of an exact value: hi in the low half of the code, lo above it (R239, R242). The lo half of an exact hi is
+0 (R238). -/
def pairCode (v : Val) : Nat :=
  match v with
  | .nan => fFP32.nanCode
  | .inf s => fFP32.signed s 0x7F800000
  | .fin _ _ _ =>
    let hi := fFP32.convInf v
    match fFP32.decode hi with
    | .fin s n d =>
      let r := Val.add v (.fin (!s) n d)
      let lo := if r.isZero then 0 else fFP32.convInf r
      hi + lo * 2 ^ 32
    | _ => hi

/-- An output element (R239 to R243). -/
def OutFmt.conv (f : OutFmt) (v : Val) : Conv :=
  match f with
  | .int8 => convInt 8 v
  | .int32 => convInt 32 v
  | .e4m3 => fE4M3.convSat v
  | .e5m2 => fE5M2.convSat v
  | .bf16 => fBF16.convSat v
  | .fp16 => fFP16.convSat v
  | .fp32 => ⟨fFP32.convInf v, false⟩
  | .fp32Pair => ⟨pairCode v, false⟩

/-- The value of an FP32 code. -/
def fp32Val (w : Word) : Val := fFP32.decode w.toNat

/-- Positive, finite and normal FP32 (R161, R218). -/
def fp32PosNormal (w : Word) : Bool :=
  !w.bit 31 && decide (w.bits 30 23 ≥ 1) && decide (w.bits 30 23 ≤ 254)

/-- The least n bytes of a number, little-endian (R4). -/
def leBytes : Nat → Nat → List Byte
  | 0, _ => []
  | k + 1, n => BitVec.ofNat 8 n :: leBytes k (n / 256)

/-- The number a little-endian byte list spells (R4). -/
def ofLe : List Byte → Nat
  | [] => 0
  | b :: bs => b.toNat + 256 * ofLe bs

end Sys2Proof.Machine
end

