-- ==== Sys2Proof/Config.lean ====
section
/-! DEFINITION. What a part fixes (the profiles' figures, R29) and the free values: results the spec does not state, as
constants with no body that nothing in Lean can evaluate. -/
namespace Sys2Proof.Config

open Sys2Proof.Machine

/-! ### Free values -/

/-- The product of a zero and an infinity (DESIGN CHOICE, log 4: the spec states no result). -/
opaque zeroTimesInf : Val → Val → Val

/-- A quotient by a scale that is not positive, finite and normal (GRAD_SCALE and STATE_SCALE are not checked; log 9). -/
opaque freeQuot : Val → Word → Val

/-- A byte of a pinned window that nothing has written since the window was drawn (R420, R421). -/
opaque freePinned : Nat → Nat → Byte

/-- A byte that the spec leaves undefined, by draw and place (log 5). -/
opaque freeByte : Nat → Nat → Byte

/-- A natural number the spec leaves open, by draw (log 5). -/
opaque freeNat : Nat → Nat

/-- Which of two permitted outcomes occurs, by draw (log 5). -/
opaque freeBool : Nat → Bool

/-- Whether a firmware image passes the checks of R564 whose key and place in the image the spec does not give (log 6). -/
opaque imageOk : List Byte → Bool

/-- The version a firmware image carries (R623; log 6). -/
opaque imageVersion : List Byte → Word

/-- A word of the persistent store's boot control area or image slots as shipped (log 6). -/
opaque shippedWord : Nat → Word

/-- Fused serial number (R620; log 65). -/
opaque serial : Nat

/-- The part is of revision B1 (R620; log 65). -/
opaque revB1 : Bool

/-- A telemetry payload word, by draw and place (R149 gives no contents; log 7). -/
opaque telemetryWord : Nat → Nat → Word

/-! ### Figures by profile -/

/-- Profiles (R24, R29). -/
inductive Profile where
  | hall | rack | cabinet
deriving DecidableEq, Repr

/-- The profile of a code of ENG_PROFILE; 3 is never stored (R26). -/
def Profile.ofCode : Nat → Profile
  | 0 => .hall
  | 1 => .rack
  | _ => .cabinet

/-- Engine clock in MHz (Clocks). -/
def Profile.engMhz : Profile → Nat
  | .hall => 2400 | .rack => 2000 | .cabinet => 1200

/-- Array clock in MHz (Clocks). -/
def Profile.arrMhz : Profile → Nat
  | .hall => 1200 | .rack => 1000 | .cabinet => 600

/-- Stairwell activates per microsecond (R29). -/
def Profile.actPerUs : Profile → Nat
  | .hall => 32000 | .rack => 32000 | .cabinet => 20000

/-- Stairwell bandwidth in GB/s (R29, R620). -/
def Profile.stwGbs : Profile → Nat
  | .hall => 16384 | .rack => 16384 | .cabinet => 10240

/-- Local bag latency bound in ns (R29). -/
def Profile.bagNs : Profile → Nat
  | .hall => 800 | .rack => 1000 | .cabinet => 1800

/-- t_home in ns (R267). -/
def Profile.homeNs : Profile → Nat
  | .hall => 300 | .rack => 360 | .cabinet => 600

/-- The INT4 rate of one gallery in 10^6 operations per second (R29, R622):
16,384 cells, 16 products, 2 operations, array clock. -/
def Profile.int4PerGallery (p : Profile) : Nat := 16384 * 16 * 2 * p.arrMhz

/-- Vector FP32 rate of one gallery in 10^6 operations per second (R29, R622). -/
def Profile.vecPerGallery (p : Profile) : Nat := 128 * 8 * 2 * p.engMhz

/-! ### Time -/

/-- What an idle step advances the engine's own time by, in ns: one reference cycle (DESIGN CHOICE, log 1). -/
def idleNs : Nat := 10

end Sys2Proof.Config
end

