-- ==== Sys2Proof/Machine/RegMap.lean ====
section
/-! DEFINITION. Where every register lies (R619 and the register index), what it reads after reset, which bits software
may write (the field tables of the chapters), and the reset domain of its block (R619, R101, R466, R626). GALn
registers stand at gallery 0's block and STWk registers at column 0's. -/
namespace Sys2Proof.Machine

namespace Reg

abbrev ENG_ID : Nat := 0x000000
abbrev ENG_SERIAL_LO : Nat := 0x000008
abbrev ENG_SERIAL_HI : Nat := 0x00000C
abbrev ENG_PROFILE : Nat := 0x000010
abbrev ENG_CLK : Nat := 0x000014
abbrev ENG_CAP_GAL : Nat := 0x000020
abbrev ENG_CAP_ARR : Nat := 0x000024
abbrev ENG_CAP_VEC : Nat := 0x000028
abbrev ENG_CAP_STW : Nat := 0x00002C
abbrev ENG_CAP_LAT : Nat := 0x000030
abbrev CONC_CTL : Nat := 0x010000
abbrev CONC_STAT : Nat := 0x010004
abbrev CONC_ASQ_BASE_LO : Nat := 0x010010
abbrev CONC_ASQ_BASE_HI : Nat := 0x010014
abbrev CONC_ASQ_CFG : Nat := 0x010018
abbrev CONC_ACQ_BASE_LO : Nat := 0x010020
abbrev CONC_ACQ_BASE_HI : Nat := 0x010024
abbrev CONC_ACQ_CFG : Nat := 0x010028
abbrev CONC_ARCB_LO : Nat := 0x010030
abbrev CONC_ARCB_HI : Nat := 0x010034
abbrev CONC_CTX_USED : Nat := 0x010040
abbrev CONC_CTX_SPILL : Nat := 0x010044
abbrev CONC_MQ : Nat := 0x010050
abbrev CONC_MQ_SVC : Nat := 0x010054
abbrev CONC_BUSY_CNT : Nat := 0x010058
abbrev CONC_REJECT_CNT : Nat := 0x01005C
abbrev CONC_RING_SEL : Nat := 0x010060
abbrev CONC_RING_STATE : Nat := 0x010064
abbrev CONC_DB : Nat := 0x011000
abbrev FLT_CTL : Nat := 0x020000
abbrev FLT_SYNC : Nat := 0x020004
abbrev FLT_ROOT : Nat := 0x020008
abbrev FLT_LEN : Nat := 0x02000C
abbrev FLT_LEN_NEXT : Nat := 0x020010
abbrev FLT_LEN_AT_LO : Nat := 0x020018
abbrev FLT_LEN_AT_HI : Nat := 0x02001C
abbrev FLT_LANDING_LO : Nat := 0x020020
abbrev FLT_LANDING_HI : Nat := 0x020024
abbrev FLT_PHASE : Nat := 0x020028
abbrev FLT_PHASE_ERR : Nat := 0x02002C
abbrev FLT_FREE_TIME : Nat := 0x020030
abbrev FLT_HELD : Nat := 0x020034
abbrev FLT_BUDGET_ACT : Nat := 0x020040
abbrev FLT_BUDGET_FAB : Nat := 0x020044
abbrev FLT_BUDGET_ARR : Nat := 0x020048
abbrev FLT_BUDGET_VEC : Nat := 0x02004C
abbrev FLT_BUDGET_CPY : Nat := 0x020050
abbrev FLT_BUDGET_NRG : Nat := 0x020054
abbrev FLT_CAP_ACT : Nat := 0x020060
abbrev FLT_CAP_FAB : Nat := 0x020064
abbrev FLT_CAP_ARR : Nat := 0x020068
abbrev FLT_CAP_VEC : Nat := 0x02006C
abbrev FLT_CAP_CPY : Nat := 0x020070
abbrev FLT_CAP_NRG : Nat := 0x020074
abbrev FLT_EFF_ACT : Nat := 0x020080
abbrev FLT_EFF_FAB : Nat := 0x020084
abbrev FLT_EFF_ARR : Nat := 0x020088
abbrev FLT_EFF_VEC : Nat := 0x02008C
abbrev FLT_EFF_CPY : Nat := 0x020090
abbrev FLT_EFF_NRG : Nat := 0x020094
abbrev FLT_RSV : Nat := 0x0200A0
abbrev FLT_AGE : Nat := 0x0200A4
abbrev FLT_LAG : Nat := 0x0200A8
abbrev FLT_TRIM : Nat := 0x0200AC
abbrev FLT_LATE_CNT : Nat := 0x0200B0
abbrev FLT_PROMO_CNT : Nat := 0x0200B4
abbrev FLT_OVERCAP_CNT : Nat := 0x0200B8
abbrev FLT_FIRST_ACT : Nat := 0x0200C0
abbrev FLT_FIRST_FAB : Nat := 0x0200C4
abbrev FLT_FIRST_ARR : Nat := 0x0200C8
abbrev FLT_FIRST_VEC : Nat := 0x0200CC
abbrev FLT_FIRST_CPY : Nat := 0x0200D0
abbrev FLT_FIRST_NRG : Nat := 0x0200D4
abbrev FLT_NRG_STATIC : Nat := 0x0200E0
abbrev FLT_NRG_CORR : Nat := 0x0200E4
abbrev FLT_NRG_COEF_ACT : Nat := 0x0200F0
abbrev FLT_NRG_COEF_FAB : Nat := 0x0200F4
abbrev FLT_NRG_COEF_ARR : Nat := 0x0200F8
abbrev FLT_NRG_COEF_VEC : Nat := 0x0200FC
abbrev FLT_NRG_COEF_CPY : Nat := 0x020100
abbrev DIR_BASE_LO : Nat := 0x030000
abbrev DIR_BASE_HI : Nat := 0x030004
abbrev DIR_SMAP_BASE_LO : Nat := 0x030008
abbrev DIR_SMAP_BASE_HI : Nat := 0x03000C
abbrev DIR_SMAP_SIZE : Nat := 0x030010
abbrev DIR_STAT : Nat := 0x030014
abbrev DIR_SEL : Nat := 0x030020
abbrev DIR_SMAP_SEL : Nat := 0x030024
abbrev DIR_ENTRY0 : Nat := 0x030040
abbrev DIR_ENTRY1 : Nat := 0x030044
abbrev DIR_ENTRY2 : Nat := 0x030048
abbrev DIR_ENTRY3 : Nat := 0x03004C
abbrev DIR_ENTRY4 : Nat := 0x030050
abbrev DIR_ENTRY5 : Nat := 0x030054
abbrev DIR_ENTRY6 : Nat := 0x030058
abbrev DIR_ENTRY7 : Nat := 0x03005C
abbrev DIR_ENTRY8 : Nat := 0x030060
abbrev DIR_ENTRY9 : Nat := 0x030064
abbrev DIR_ENTRY10 : Nat := 0x030068
abbrev DIR_ENTRY11 : Nat := 0x03006C
abbrev DIR_ENTRY12 : Nat := 0x030070
abbrev DIR_ENTRY13 : Nat := 0x030074
abbrev DIR_ENTRY14 : Nat := 0x030078
abbrev DIR_ENTRY15 : Nat := 0x03007C
abbrev DIR_REF0 : Nat := 0x030080
abbrev DIR_REF1 : Nat := 0x030084
abbrev DIR_SMAP_CUR_LO : Nat := 0x030090
abbrev DIR_SMAP_CUR_HI : Nat := 0x030094
abbrev DIR_SMAP_NEXT_LO : Nat := 0x030098
abbrev DIR_SMAP_NEXT_HI : Nat := 0x03009C
abbrev DIR_SMAP_PREV_LO : Nat := 0x0300A0
abbrev DIR_SMAP_PREV_HI : Nat := 0x0300A4
abbrev DIR_SMAP_FLAGS : Nat := 0x0300A8
abbrev DIR_ESC_OVR_CNT : Nat := 0x0300C0
abbrev DIR_SLOT_LATE_CNT : Nat := 0x0300C4
abbrev DIR_REBIND_CNT : Nat := 0x0300C8
abbrev DIR_GRANT_USED : Nat := 0x0300CC
abbrev GAL_ARR_CYC : Nat := 0x040100
abbrev GAL_VEC_CYC : Nat := 0x040104
abbrev GAL_SLOT_SEL : Nat := 0x040108
abbrev GAL_SLOT_STATE : Nat := 0x04010C
abbrev GAL_REQ_SEL : Nat := 0x040110
abbrev GAL_REQ_MULT : Nat := 0x040114
abbrev GAL_REQ_BIAS : Nat := 0x040118
abbrev GAL_REQ_CFG : Nat := 0x04011C
abbrev GAL_REQ_COLSUM : Nat := 0x040120
abbrev GAL_REQ_ROWSUM : Nat := 0x040124
abbrev GAL_WIDEN_BASE_LO : Nat := 0x04F000
abbrev GAL_WIDEN_BASE_HI : Nat := 0x04F004
abbrev GAL_WIDEN_CTL : Nat := 0x04F008
abbrev GAL_WIDEN_CNT : Nat := 0x04F010
abbrev GAL_WIDEN_LOST_CNT : Nat := 0x04F014
abbrev GAL_SAT_CNT : Nat := 0x04F018
abbrev GAL_PAGE_SHARE_CNT : Nat := 0x04F01C
abbrev GAL_SPILL_BASE_LO : Nat := 0x04F020
abbrev GAL_SPILL_BASE_HI : Nat := 0x04F024
abbrev GAL_SPILL_CTL : Nat := 0x04F028
abbrev GAL_TILES : Nat := 0x04F02C
abbrev GAL_SPILL_CNT : Nat := 0x04F030
abbrev GAL_RESTORE_CNT : Nat := 0x04F034
abbrev GAL_SPILL_FAULT_CNT : Nat := 0x04F038
abbrev GAL_TILE_LOST_CNT : Nat := 0x04F03C
abbrev GAL_STAT_BASE_LO : Nat := 0x04F040
abbrev GAL_STAT_BASE_HI : Nat := 0x04F044
abbrev GAL_STAT_SEL : Nat := 0x04F048
abbrev GAL_STAT_MAXABS : Nat := 0x04F04C
abbrev GAL_STAT_SATBAGS : Nat := 0x04F050
abbrev GAL_STAT_BAGS : Nat := 0x04F054
abbrev GAL_ARR_OVF_CNT : Nat := 0x04F058
abbrev GAL_ASAT_CNT : Nat := 0x04F05C
abbrev GAL_SLOT_WAIT_CNT : Nat := 0x04F060
abbrev RC_CTL : Nat := 0x160000
abbrev RC_STAT : Nat := 0x160004
abbrev RC_PIN : Nat := 0x160008
abbrev RC_SALT0 : Nat := 0x160010
abbrev RC_SALT1 : Nat := 0x160014
abbrev RC_SALT2 : Nat := 0x160018
abbrev RC_SALT3 : Nat := 0x16001C
abbrev RC_SALT4 : Nat := 0x160020
abbrev RC_SALT5 : Nat := 0x160024
abbrev RC_SALT6 : Nat := 0x160028
abbrev RC_SALT7 : Nat := 0x16002C
abbrev RC_MNT_CMD : Nat := 0x160040
abbrev RC_MNT_ADDR_LO : Nat := 0x160044
abbrev RC_MNT_ADDR_HI : Nat := 0x160048
abbrev RC_MNT_LEN : Nat := 0x16004C
abbrev RC_MNT_STAT : Nat := 0x160050
abbrev RC_SLICE_SEL : Nat := 0x160060
abbrev RC_SLICE_MISS : Nat := 0x160064
abbrev RC_HIT_CNT : Nat := 0x160080
abbrev RC_MISS_CNT : Nat := 0x160084
abbrev RC_MERGE_CNT : Nat := 0x160088
abbrev RC_NOALLOC_CNT : Nat := 0x16008C
abbrev RC_WRUPD_CNT : Nat := 0x160090
abbrev RC_SETWAIT_CNT : Nat := 0x160094
abbrev RC_CE_CNT : Nat := 0x160098
abbrev RC_UE_CNT : Nat := 0x16009C
abbrev RC_TAGPAR_CNT : Nat := 0x1600A0
abbrev RC_PINERR_CNT : Nat := 0x1600A4
abbrev STW_CTL : Nat := 0x170000
abbrev STW_STAT : Nat := 0x170004
abbrev STW_DIE_SEL : Nat := 0x170008
abbrev STW_DIE_TEMP : Nat := 0x17000C
abbrev STW_ACT_CNT : Nat := 0x170010
abbrev STW_THROT_CNT : Nat := 0x170014
abbrev STW_REG_SEL : Nat := 0x170020
abbrev STW_REG_CFG : Nat := 0x170024
abbrev STW_REG_TOKENS : Nat := 0x170028
abbrev STW_REG_WAIT_CNT : Nat := 0x17002C
abbrev STW_CE_CNT : Nat := 0x170040
abbrev STW_UE_CNT : Nat := 0x170044
abbrev STW_ERR_ADDR_LO : Nat := 0x170048
abbrev STW_ERR_ADDR_HI : Nat := 0x17004C
abbrev STW_SCRUB_CFG : Nat := 0x170050
abbrev STW_SCRUB_PASS : Nat := 0x170054
abbrev STW_REMAP_CFG : Nat := 0x170060
abbrev STW_REMAP_USED : Nat := 0x170064
abbrev STW_REMAP_CNT : Nat := 0x170068
abbrev STW_REPAIR_PEND : Nat := 0x17006C
abbrev STW_RETIRED_CNT : Nat := 0x170070
abbrev STW_SPARE_SEL : Nat := 0x170074
abbrev STW_SPARE_FREE : Nat := 0x170078
abbrev STW_REMAP_SEL : Nat := 0x17007C
abbrev STW_REMAP_ENTRY : Nat := 0x170080
abbrev STW_LANE_USED : Nat := 0x170084
abbrev STW_TEST_CTL : Nat := 0x170090
abbrev STW_TEST_STAT : Nat := 0x170094
abbrev STW_TEST_FAIL_CNT : Nat := 0x170098
abbrev STW_TEST_FIRST : Nat := 0x17009C
abbrev STW_ADD_CNT : Nat := 0x1700A0
abbrev STW_ADD_FLUSH_CNT : Nat := 0x1700A4
abbrev KITE_CTL : Nat := 0x1B0000
abbrev KITE_STAT : Nat := 0x1B0004
abbrev KITE_QUAR : Nat := 0x1B0008
abbrev KITE_SENT_CNT : Nat := 0x1B0010
abbrev KITE_STALE_CNT : Nat := 0x1B0014
abbrev KITE_DUP_CNT : Nat := 0x1B0018
abbrev KITE_TIMEOUT_CNT : Nat := 0x1B001C
abbrev KITE_NACK_CNT : Nat := 0x1B0020
abbrev KITE_ABANDON_CNT : Nat := 0x1B0024
abbrev KITE_FWD_CNT : Nat := 0x1B0028
abbrev KITE_SLOT_WAIT_CNT : Nat := 0x1B002C
abbrev KITE_MIG_SEL : Nat := 0x1B0040
abbrev KITE_MIG_STATE : Nat := 0x1B0044
abbrev KITE_MIG_SHARD : Nat := 0x1B0048
abbrev KITE_MIG_PEER : Nat := 0x1B004C
abbrev KITE_MIG_LINES : Nat := 0x1B0050
abbrev KITE_UPD_CTL : Nat := 0x1B0100
abbrev KITE_UPD_INBOX_BASE_LO : Nat := 0x1B0104
abbrev KITE_UPD_INBOX_BASE_HI : Nat := 0x1B0108
abbrev KITE_UPD_INBOX_SIZE : Nat := 0x1B010C
abbrev KITE_UPD_INBOX_USED : Nat := 0x1B0110
abbrev KITE_LEDGER_USED : Nat := 0x1B0114
abbrev KITE_LEDGER_DUP_CNT : Nat := 0x1B0118
abbrev KITE_UPD_FULL_CNT : Nat := 0x1B011C
abbrev KITE_UPD_COMBINE_CNT : Nat := 0x1B0120
abbrev KITE_UPD_CREDIT_WAIT_CNT : Nat := 0x1B0124
abbrev KITE_UPD_DUAL_CNT : Nat := 0x1B0128
abbrev KITE_UPD_SEL : Nat := 0x1B0140
abbrev KITE_UPD_MAXD : Nat := 0x1B0144
abbrev KITE_UPD_MAXV : Nat := 0x1B0148
abbrev KITE_UPD_SAT : Nat := 0x1B014C
abbrev KITE_UPD_NAN : Nat := 0x1B0150
abbrev ZP_ID : Nat := 0x1C0000
abbrev ZP_STAT : Nat := 0x1C0004
abbrev ZP_PORT_SEL : Nat := 0x1C0008
abbrev ZP_PORT_CTL : Nat := 0x1C000C
abbrev ZP_PORT_STAT : Nat := 0x1C0010
abbrev ZP_RETX_CNT : Nat := 0x1C0014
abbrev ZP_CRC_CNT : Nat := 0x1C0018
abbrev ZP_FAILOVER_CNT : Nat := 0x1C0020
abbrev ZP_HOPDROP_CNT : Nat := 0x1C0024
abbrev ZP_AGEDROP_CNT : Nat := 0x1C0028
abbrev ZP_TRANSIT_CNT : Nat := 0x1C002C
abbrev ZP_UNROUTE_CNT : Nat := 0x1C0030
abbrev ZP_ROUTE_SEL : Nat := 0x1C0040
abbrev ZP_ROUTE : Nat := 0x1C0044
abbrev XLT_CTL : Nat := 0x1D0000
abbrev XLT_STAT : Nat := 0x1D0004
abbrev XLT_PRI_CFG : Nat := 0x1D0008
abbrev XLT_PRI_OUT : Nat := 0x1D000C
abbrev XLT_L1_MISS_CNT : Nat := 0x1D0010
abbrev XLT_L2_MISS_CNT : Nat := 0x1D0014
abbrev XLT_ATS_CNT : Nat := 0x1D0018
abbrev XLT_PRI_CNT : Nat := 0x1D001C
abbrev XLT_FAULT_CNT : Nat := 0x1D0020
abbrev XLT_INVAL_CNT : Nat := 0x1D0024
abbrev XLT_PF_CNT : Nat := 0x1D0028
abbrev XLT_PF_DROP_CNT : Nat := 0x1D002C
abbrev XLT_PRI_TIMEOUT_CNT : Nat := 0x1D0030
abbrev XLT_HOT_CFG : Nat := 0x1D0040
abbrev XLT_HOT_VEC : Nat := 0x1D0044
abbrev XLT_HOT_BASE_LO : Nat := 0x1D0048
abbrev XLT_HOT_BASE_HI : Nat := 0x1D004C
abbrev XLT_HOT_HEAD : Nat := 0x1D0050
abbrev XLT_HOT_TAIL : Nat := 0x1D0054
abbrev XLT_HOT_USED : Nat := 0x1D0058
abbrev XLT_HOT_MISS_CNT : Nat := 0x1D005C
abbrev XLT_HOT_DROP_CNT : Nat := 0x1D0060
abbrev XLT_HLOSS : Nat := 0x1D0080
abbrev XLT_HOST : Nat := 0x1D0084
abbrev XLT_DETACH_BASE_LO : Nat := 0x1D0088
abbrev XLT_DETACH_BASE_HI : Nat := 0x1D008C
abbrev XLT_DETACH_SIZE : Nat := 0x1D0090
abbrev XLT_DETACH_USED : Nat := 0x1D0094
abbrev XLT_DETACH_DROP_CNT : Nat := 0x1D0098
abbrev XLT_LINKDOWN_CNT : Nat := 0x1D009C
abbrev CPY_CH_SEL : Nat := 0x1E0000
abbrev CPY_CH_CTL : Nat := 0x1E0004
abbrev CPY_CH_STAT : Nat := 0x1E0008
abbrev CPY_CH_WM : Nat := 0x1E000C
abbrev CPY_CH_IRQ : Nat := 0x1E0010
abbrev CPY_CH_DONE : Nat := 0x1E0014
abbrev CPY_CH_BYTES_LO : Nat := 0x1E0018
abbrev CPY_CH_BYTES_HI : Nat := 0x1E001C
abbrev CPY_CH_RETRY_CNT : Nat := 0x1E0020
abbrev CPY_CH_PREEMPT_CNT : Nat := 0x1E0024
abbrev CPY_CH_FILL : Nat := 0x1E0028
abbrev CPY_HALT_LO : Nat := 0x1E0040
abbrev CPY_HALT_HI : Nat := 0x1E0044
abbrev CPY_CRC_FAIL_CNT : Nat := 0x1E0048
abbrev CPY_PF_USED_CNT : Nat := 0x1E004C
abbrev CPY_PF_DROP_CNT : Nat := 0x1E0050
abbrev MGT_FW_VER : Nat := 0x1F0000
abbrev HR_RST_CMD : Nat := 0x200000
abbrev HR_RST_CTL : Nat := 0x200004
abbrev HR_RST_GAP : Nat := 0x200008
abbrev HR_RST_STAT : Nat := 0x20000C
abbrev HR_STRAP : Nat := 0x200010
abbrev HR_MFP_FUNC : Nat := 0x200014
abbrev HR_MFP_LEVEL : Nat := 0x200018
abbrev HR_GPIO_OUT : Nat := 0x20001C
abbrev HR_LPULSE : Nat := 0x200020
abbrev HR_PRES_STAT : Nat := 0x200024
abbrev HR_BOOT_STAT : Nat := 0x200028
abbrev HR_PS_SEL : Nat := 0x200030
abbrev HR_PS_DATA : Nat := 0x200034
abbrev HR_PS_WCNT : Nat := 0x200038
abbrev HR_PS_STAT : Nat := 0x20003C
abbrev HR_BK_STAT : Nat := 0x200040
abbrev HR_BK_LANDING_LO : Nat := 0x200044
abbrev HR_BK_LANDING_HI : Nat := 0x200048
abbrev HR_BK_CNT_POWER_ON : Nat := 0x200050
abbrev HR_BK_CNT_COLD_PIN : Nat := 0x200054
abbrev HR_BK_CNT_COLD_CMD : Nat := 0x200058
abbrev HR_BK_CNT_WARM_CMD : Nat := 0x20005C
abbrev HR_BK_CNT_WDOG : Nat := 0x200060
abbrev HR_BK_CNT_REMOTE : Nat := 0x200064
abbrev HR_BK_CNT_HOST_LOSS : Nat := 0x200068
abbrev HR_BK_CNT_UNIT : Nat := 0x20006C
abbrev ERR_STAT : Nat := 0x210000
abbrev ERR_PEND : Nat := 0x210004
abbrev ERR_ALERT_EN : Nat := 0x210008
abbrev ERR_CFG : Nat := 0x21000C
abbrev ERR_DRAIN : Nat := 0x210010
abbrev ERR_DRAIN_CMD : Nat := 0x210014
abbrev ERR_FENCE_CMD : Nat := 0x210018
abbrev ERR_GAL_EN : Nat := 0x21001C
abbrev ERR_GAL_FENCED : Nat := 0x210020
abbrev ERR_SLICE_OFF : Nat := 0x210024
abbrev ERR_COMMIT : Nat := 0x210028
abbrev ERR_CAPACITY : Nat := 0x21002C
abbrev ERR_RETIRE_SEL : Nat := 0x210030
abbrev ERR_RETIRE_PAGE_LO : Nat := 0x210034
abbrev ERR_RETIRE_PAGE_HI : Nat := 0x210038
abbrev ERR_RETIRE_USED : Nat := 0x21003C
abbrev ERR_LOG_HEAD : Nat := 0x210040
abbrev ERR_LOG_SEL : Nat := 0x210044
abbrev ERR_SUPPRESS_CNT : Nat := 0x210048
abbrev ERR_LANE_LOST_CNT : Nat := 0x21004C
abbrev ERR_LOG_W0 : Nat := 0x210080
abbrev ERR_LOG_W1 : Nat := 0x210084
abbrev ERR_LOG_W2 : Nat := 0x210088
abbrev ERR_LOG_W3 : Nat := 0x21008C
abbrev ERR_LOG_W4 : Nat := 0x210090
abbrev ERR_LOG_W5 : Nat := 0x210094
abbrev ERR_LOG_W6 : Nat := 0x210098
abbrev ERR_LOG_W7 : Nat := 0x21009C
abbrev ERR_LOG_W8 : Nat := 0x2100A0
abbrev ERR_LOG_W9 : Nat := 0x2100A4
abbrev ERR_LOG_W10 : Nat := 0x2100A8
abbrev ERR_LOG_W11 : Nat := 0x2100AC
abbrev ERR_LOG_W12 : Nat := 0x2100B0
abbrev ERR_LOG_W13 : Nat := 0x2100B4
abbrev ERR_LOG_W14 : Nat := 0x2100B8
abbrev ERR_LOG_W15 : Nat := 0x2100BC
abbrev ERR_HOST_CFG : Nat := 0x2100C0
abbrev ERR_HOST_BASE_LO : Nat := 0x2100C4
abbrev ERR_HOST_BASE_HI : Nat := 0x2100C8
abbrev ERR_HOST_HEAD : Nat := 0x2100CC
abbrev ERR_HOST_TAIL : Nat := 0x2100D0
abbrev ERR_HOST_SKIP_CNT : Nat := 0x2100D4
abbrev ERR_WDOG_CTL : Nat := 0x2100E0
abbrev ERR_WDOG_KICK : Nat := 0x2100E4
abbrev ERR_WDOG_STAT : Nat := 0x2100E8
abbrev ERR_FW_RESTART_CNT : Nat := 0x2100EC
abbrev ERR_INJECT : Nat := 0x2100F0

end Reg

/-- A register word that software can write or that does not reset to 0: its offset, its reset value, and the bits a
write sets (RW, RWH, RWP). -/
structure RegRow where
  off : Nat
  reset : Nat
  mask : Nat
deriving DecidableEq, Repr

/-- Register rows, part 1 (the field tables). -/
def regRows1 : List RegRow :=
  [⟨Reg.ENG_PROFILE, 0xC02, 0xFFFFFF03⟩,
   ⟨Reg.CONC_CTL, 0x0, 0x3⟩,
   ⟨Reg.CONC_ASQ_BASE_LO, 0x0, 0xFFFFFFFF⟩,
   ⟨Reg.CONC_ASQ_BASE_HI, 0x0, 0xFFFFFFFF⟩,
   ⟨Reg.CONC_ASQ_CFG, 0x6, 0x1F⟩,
   ⟨Reg.CONC_ACQ_BASE_LO, 0x0, 0xFFFFFFFF⟩,
   ⟨Reg.CONC_ACQ_BASE_HI, 0x0, 0xFFFFFFFF⟩,
   ⟨Reg.CONC_ACQ_CFG, 0x6, 0x7FF001F⟩,
   ⟨Reg.CONC_ARCB_LO, 0x0, 0xFFFFFFFF⟩,
   ⟨Reg.CONC_ARCB_HI, 0x0, 0xFFFFFFFF⟩,
   ⟨Reg.CONC_MQ_SVC, 0x1F4, 0x0⟩,
   ⟨Reg.CONC_RING_SEL, 0x0, 0x3FFF⟩,
   ⟨Reg.FLT_ROOT, 0x0, 0x1FF7FFFF⟩,
   ⟨Reg.FLT_LEN_NEXT, 0x32, 0x1FFF⟩,
   ⟨Reg.FLT_LEN_AT_LO, 0x0, 0xFFFFFFFF⟩,
   ⟨Reg.FLT_LEN_AT_HI, 0x0, 0xFFFFFFFF⟩,
   ⟨Reg.FLT_BUDGET_ACT, 0xFFFFFFFF, 0xFFFFFFFF⟩,
   ⟨Reg.FLT_BUDGET_FAB, 0xFFFFFFFF, 0xFFFFFFFF⟩,
   ⟨Reg.FLT_BUDGET_ARR, 0xFFFFFFFF, 0xFFFFFFFF⟩,
   ⟨Reg.FLT_BUDGET_VEC, 0xFFFFFFFF, 0xFFFFFFFF⟩,
   ⟨Reg.FLT_BUDGET_CPY, 0xFFFFFFFF, 0xFFFFFFFF⟩,
   ⟨Reg.FLT_BUDGET_NRG, 0xFFFFFFFF, 0xFFFFFFFF⟩,
   ⟨Reg.FLT_RSV, 0x3219, 0xFFFF⟩,
   ⟨Reg.FLT_AGE, 0x40, 0xFFFF⟩]

/-- Register rows, part 2 (the field tables). -/
def regRows2 : List RegRow :=
  [⟨Reg.FLT_NRG_COEF_ACT, 0x5DC, 0x0⟩,
   ⟨Reg.FLT_NRG_COEF_FAB, 0x1F4, 0x0⟩,
   ⟨Reg.FLT_NRG_COEF_ARR, 0x1770, 0x0⟩,
   ⟨Reg.FLT_NRG_COEF_VEC, 0xFA0, 0x0⟩,
   ⟨Reg.FLT_NRG_COEF_CPY, 0x190, 0x0⟩,
   ⟨Reg.DIR_BASE_LO, 0x0, 0xFFC00000⟩,
   ⟨Reg.DIR_BASE_HI, 0x0, 0x8000003F⟩,
   ⟨Reg.DIR_SMAP_BASE_LO, 0x0, 0xFFE00000⟩,
   ⟨Reg.DIR_SMAP_BASE_HI, 0x0, 0x3F⟩,
   ⟨Reg.DIR_SMAP_SIZE, 0x0, 0xFFF⟩,
   ⟨Reg.DIR_SEL, 0x0, 0xFFFF⟩,
   ⟨Reg.DIR_SMAP_SEL, 0x0, 0xFFFFFF⟩,
   ⟨Reg.GAL_SLOT_SEL, 0x0, 0x3⟩,
   ⟨Reg.GAL_REQ_SEL, 0x0, 0x7FF⟩,
   ⟨Reg.GAL_WIDEN_BASE_LO, 0x0, 0xFFFF0000⟩,
   ⟨Reg.GAL_WIDEN_BASE_HI, 0x0, 0x3F⟩,
   ⟨Reg.GAL_WIDEN_CTL, 0x0, 0x1⟩,
   ⟨Reg.GAL_SPILL_BASE_LO, 0x0, 0xFFFF0000⟩,
   ⟨Reg.GAL_SPILL_BASE_HI, 0x0, 0x3F⟩,
   ⟨Reg.GAL_SPILL_CTL, 0x0, 0x1⟩,
   ⟨Reg.GAL_STAT_BASE_LO, 0x0, 0xFFF00000⟩,
   ⟨Reg.GAL_STAT_BASE_HI, 0x0, 0x8000003F⟩,
   ⟨Reg.GAL_STAT_SEL, 0x0, 0xFFFF⟩,
   ⟨Reg.RC_CTL, 0x1, 0x1F⟩]

/-- Register rows, part 3 (the field tables). -/
def regRows3 : List RegRow :=
  [⟨Reg.RC_PIN, 0x0, 0xF⟩,
   ⟨Reg.RC_SALT0, 0x0, 0x1FFF⟩,
   ⟨Reg.RC_SALT1, 0x0, 0x1FFF⟩,
   ⟨Reg.RC_SALT2, 0x0, 0x1FFF⟩,
   ⟨Reg.RC_SALT3, 0x0, 0x1FFF⟩,
   ⟨Reg.RC_SALT4, 0x0, 0x1FFF⟩,
   ⟨Reg.RC_SALT5, 0x0, 0x1FFF⟩,
   ⟨Reg.RC_SALT6, 0x0, 0x1FFF⟩,
   ⟨Reg.RC_SALT7, 0x0, 0x1FFF⟩,
   ⟨Reg.RC_MNT_ADDR_LO, 0x0, 0xFFFFFFC0⟩,
   ⟨Reg.RC_MNT_ADDR_HI, 0x0, 0xFFFFFF⟩,
   ⟨Reg.RC_MNT_LEN, 0x0, 0xFFFFFFFF⟩,
   ⟨Reg.RC_SLICE_SEL, 0x0, 0xF⟩,
   ⟨Reg.STW_CTL, 0x3, 0x7FFF⟩,
   ⟨Reg.STW_DIE_SEL, 0x0, 0xF⟩,
   ⟨Reg.STW_REG_SEL, 0x0, 0x3F⟩,
   ⟨Reg.STW_REG_CFG, 0x0, 0xFFFFFFFF⟩,
   ⟨Reg.STW_SCRUB_CFG, 0x18, 0xFF⟩,
   ⟨Reg.STW_REMAP_CFG, 0x2, 0xF⟩,
   ⟨Reg.STW_SPARE_SEL, 0x0, 0x7FF⟩,
   ⟨Reg.STW_REMAP_SEL, 0x0, 0xFFF⟩,
   ⟨Reg.STW_TEST_CTL, 0x0, 0x8000000F⟩,
   ⟨Reg.KITE_CTL, 0x3E8, 0xFFFF⟩,
   ⟨Reg.KITE_MIG_SEL, 0x0, 0x1F⟩]

/-- Register rows, part 4 (the field tables). -/
def regRows4 : List RegRow :=
  [⟨Reg.KITE_UPD_CTL, 0x30, 0x3FF⟩,
   ⟨Reg.KITE_UPD_INBOX_BASE_LO, 0x0, 0xFFC00000⟩,
   ⟨Reg.KITE_UPD_INBOX_BASE_HI, 0x0, 0x3F⟩,
   ⟨Reg.KITE_UPD_INBOX_SIZE, 0x0, 0x1F⟩,
   ⟨Reg.KITE_UPD_SEL, 0x0, 0xFFFF⟩,
   ⟨Reg.ZP_ID, 0x0, 0x7FFFF⟩,
   ⟨Reg.ZP_PORT_SEL, 0x0, 0xF⟩,
   ⟨Reg.ZP_PORT_CTL, 0x0, 0x1⟩,
   ⟨Reg.ZP_ROUTE_SEL, 0x0, 0x1FFF⟩,
   ⟨Reg.ZP_ROUTE, 0x0, 0x3FF⟩,
   ⟨Reg.XLT_CTL, 0x5, 0x1F⟩,
   ⟨Reg.XLT_PRI_CFG, 0x2000064, 0x3FFFFFF⟩,
   ⟨Reg.XLT_HOT_CFG, 0x1000A0C, 0xFFFFFF3F⟩,
   ⟨Reg.XLT_HOT_VEC, 0x0, 0x7FF⟩,
   ⟨Reg.XLT_HOT_BASE_LO, 0x0, 0xFFFFFFC0⟩,
   ⟨Reg.XLT_HOT_BASE_HI, 0x0, 0xFFFFFFFF⟩,
   ⟨Reg.XLT_HOT_HEAD, 0x0, 0xFFFFFFFF⟩,
   ⟨Reg.XLT_HLOSS, 0x0, 0x3⟩,
   ⟨Reg.XLT_DETACH_BASE_LO, 0x0, 0xFFFF0000⟩,
   ⟨Reg.XLT_DETACH_BASE_HI, 0x0, 0x3F⟩,
   ⟨Reg.XLT_DETACH_SIZE, 0x0, 0x1F⟩,
   ⟨Reg.CPY_CH_SEL, 0x0, 0x3F⟩,
   ⟨Reg.CPY_CH_CTL, 0x16, 0x1F⟩,
   ⟨Reg.CPY_CH_WM, 0x4000700, 0xFFF0FFF⟩]

/-- Register rows, part 5 (the field tables). -/
def regRows5 : List RegRow :=
  [⟨Reg.CPY_CH_IRQ, 0x0, 0x7FFFFFF⟩,
   ⟨Reg.HR_RST_CTL, 0x0, 0x3⟩,
   ⟨Reg.HR_RST_GAP, 0x800, 0xFFFF⟩,
   ⟨Reg.HR_MFP_FUNC, 0x5000000, 0xF0F0F0F⟩,
   ⟨Reg.HR_GPIO_OUT, 0x0, 0xF⟩,
   ⟨Reg.HR_LPULSE, 0xA, 0xFFF⟩,
   ⟨Reg.HR_PS_SEL, 0x0, 0x3FFF⟩,
   ⟨Reg.ERR_ALERT_EN, 0xFFC, 0xFFF⟩,
   ⟨Reg.ERR_CFG, 0x100040, 0xFFFFFF⟩,
   ⟨Reg.ERR_COMMIT, 0x0, 0x3FFFF⟩,
   ⟨Reg.ERR_RETIRE_SEL, 0x0, 0xFFFF⟩,
   ⟨Reg.ERR_LOG_SEL, 0x0, 0x3FF⟩,
   ⟨Reg.ERR_HOST_CFG, 0xC, 0x7FF001F⟩,
   ⟨Reg.ERR_HOST_BASE_LO, 0x0, 0xFFFFFFC0⟩,
   ⟨Reg.ERR_HOST_BASE_HI, 0x0, 0xFFFFFFFF⟩,
   ⟨Reg.ERR_HOST_HEAD, 0x0, 0xFFFFFFFF⟩,
   ⟨Reg.ERR_INJECT, 0x0, 0x8000007F⟩]

/-- Every register word with writable bits or a reset value other than 0. -/
def regRows : List RegRow := regRows1 ++ regRows2 ++ regRows3 ++ regRows4 ++ regRows5

/-- The base of a block of GALn or STWk folded onto its first instance; any other offset is itself. -/
def regNorm (off : Nat) : Nat :=
  let o := off % 0x1000000
  if 0x40000 ≤ o ∧ o < 0x160000 then 0x40000 + o % 0x10000
  else if 0x170000 ≤ o ∧ o < 0x1B0000 then 0x170000 + o % 0x10000
  else o

/-- The row of a register key: a BAR offset, plus 2^24 times an index where a selector shows one of several. -/
def regRow (key : Nat) : Option RegRow := regRows.find? (fun r => r.off == regNorm key)

/-- What a register reads after reset. -/
def regReset (key : Nat) : Word :=
  match regRow key with
  | some r => Word.ofNat r.reset
  | none => 0

/-- The bits of a register that a write sets. -/
def regMask (key : Nat) : Word :=
  match regRow key with
  | some r => Word.ofNat r.mask
  | none => 0

/-- Reset domains of registers (R619, Reset values by domain). -/
inductive Dom where
  | handrail | persistent | backup | fused | stairwells | cache | concourse | galleries | zhoni | none
deriving DecidableEq, Repr

/-- FLT registers of R101: they are held in the handrail domain. -/
def isHallReg (o : Nat) : Bool :=
  o == Reg.FLT_SYNC || o == Reg.FLT_ROOT || o == Reg.FLT_LEN || o == Reg.FLT_LEN_NEXT
    || o == Reg.FLT_LEN_AT_LO || o == Reg.FLT_LEN_AT_HI || o == Reg.FLT_LANDING_LO || o == Reg.FLT_LANDING_HI
    || o == Reg.FLT_PHASE || o == Reg.FLT_PHASE_ERR || o == Reg.FLT_FREE_TIME

/-- RWP registers (R626). -/
def isRwp (o : Nat) : Bool :=
  o == Reg.ENG_PROFILE || o == Reg.ZP_ID || o == Reg.XLT_HLOSS || o == Reg.HR_RST_CTL || o == Reg.HR_RST_GAP
    || o == Reg.HR_MFP_FUNC

/-- The reset domain of a register. -/
def regDom (key : Nat) : Dom :=
  let o := regNorm key
  if isRwp o then .persistent
  else if o == Reg.ENG_ID || o == Reg.ENG_SERIAL_LO || o == Reg.ENG_SERIAL_HI then .fused
  else if o < 0x10000 then .handrail
  else if o < 0x20000 then .concourse
  else if o < 0x30000 then (if isHallReg o then .handrail else .concourse)
  else if o < 0x40000 then .concourse
  else if o < 0x160000 then .galleries
  else if o < 0x170000 then .cache
  else if o < 0x1B0000 then .stairwells
  else if o == Reg.KITE_CTL then .handrail
  else if o < 0x1C0000 then .zhoni
  else if o < 0x1D0000 then .handrail
  else if o < 0x200000 then .concourse
  else if 0x200040 ≤ o ∧ o < 0x200070 then .backup
  else if o < 0x220000 then .handrail
  else if o < 0x230000 then .concourse
  else .none

/-- The offset lies in a block (R619). -/
def inBlock (off : Nat) : Bool := decide (off < 0x230000)

/-- The _LO registers of the map whose _HI stands four bytes above (R5). -/
def loRegs : List Nat :=
  [Reg.ENG_SERIAL_LO, Reg.CONC_ASQ_BASE_LO, Reg.CONC_ACQ_BASE_LO, Reg.CONC_ARCB_LO, Reg.FLT_LEN_AT_LO, Reg.FLT_LANDING_LO, Reg.DIR_BASE_LO, Reg.DIR_SMAP_BASE_LO, Reg.DIR_SMAP_CUR_LO, Reg.DIR_SMAP_NEXT_LO, Reg.DIR_SMAP_PREV_LO, Reg.GAL_WIDEN_BASE_LO, Reg.GAL_SPILL_BASE_LO, Reg.GAL_STAT_BASE_LO, Reg.RC_MNT_ADDR_LO, Reg.STW_ERR_ADDR_LO, Reg.KITE_UPD_INBOX_BASE_LO, Reg.XLT_HOT_BASE_LO, Reg.XLT_DETACH_BASE_LO, Reg.CPY_CH_BYTES_LO, Reg.CPY_HALT_LO, Reg.HR_BK_LANDING_LO, Reg.ERR_RETIRE_PAGE_LO, Reg.ERR_HOST_BASE_LO]

/-- The offset names a _LO register (R5). -/
def isLo (off : Nat) : Bool := loRegs.any (· == regNorm off)

/-- The offset names a _HI register (R5). -/
def isHi (off : Nat) : Bool := decide (off ≥ 4) && loRegs.any (· == regNorm (off - 4))

end Sys2Proof.Machine
end

