-- ==== Sys2Proof/Machine/State.lean ====
section
/-! DEFINITION. Everything the spec gives the YF7 to hold, as plain data, and the state right after reset. Times are
nanoseconds on the engine's own count (`now`); landings and counts are natural numbers. Registers with no behaviour of
their own are words of `regs` under their BAR offset; an offset not listed holds its reset value. -/
namespace Sys2Proof.Machine

/-- Why a command stops the block: an access to an address the spec says holds no memory. -/
inductive Fault where
  /-- Raised by the meanings that take a local offset from outside the register and packet checks (HOST_MEM_READ,
  HOST_MEM_WRITE, SCRUB_READ) when it is at or above 192 GiB: R468 and R263 say no memory is there. Safe. -/
  | noMemory (offset : Nat)
deriving DecidableEq, Repr

/-- Why a command has no meaning. -/
inductive Refusal where
  /-- Answered by a dispatch arm whose command has no meaning yet. Safe. -/
  | notModelled (mnemonic : String)
deriving DecidableEq, Repr

/-- A sparse map: keys strictly rising. -/
abbrev SMap (α : Type) := List (Nat × α)

/-! ### Hall time and the flight -/

/-- FLT_SYNC.STATE (R50). -/
inductive SyncState where
  | standalone | root | synced | free | freeLong
deriving DecidableEq, Repr

/-- The action of a scheduled control packet (R134). -/
inductive SchedAct where
  | tableState (table target : Nat)
  | switch (table slot : Nat)
  | epochBump (table : Nat)
  | migrate (table shard target : Nat)
  | graceEnd (table shard : Nat)
deriving DecidableEq, Repr

/-- A control packet taken in by the concourse (R132), with what its record needs. -/
structure MqPkt where
  seq : Nat
  tenant : Nat
  src : PktSrc
  cq : Option Nat
  index : Nat
  words : List Word
  due : Nat
deriving DecidableEq, Repr

/-- One action of the schedule table (R134), or the end of a grace (R300). `named` is false for an action whose packet
named no landing. -/
structure Sched where
  landing : Nat
  seq : Nat
  named : Bool
  held : Bool
  act : SchedAct
  pkt : Option MqPkt
deriving DecidableEq, Repr

/-- Hall time, held in the handrail domain (R64, R101). -/
structure Hall where
  sync : SyncState
  upActive : Bool
  depth : Nat
  stepCnt : Nat
  root : Word              -- FLT_ROOT as written
  rootInForce : Word       -- FLT_ROOT as the synchronisation state follows it (R632)
  len : Nat                -- flight length in force, reference cycles
  lenNext : Nat            -- FLT_LEN_NEXT.LEN
  lenAt : Nat              -- FLT_LEN_AT
  lenPend : Option (Nat × Nat)   -- armed or announced change: length, landing
  lenHeld : Bool           -- the change is held under R55
  landing : Nat
  landingAt : Nat          -- time of the current landing
  slewNs : Int             -- offset still to be slewed; positive when this engine is ahead
  slewed : Int             -- lengthening of the flight now open by the slew
  stepPend : Option (Nat × Nat × Nat × Nat)  -- landing, phase and flight length of the beacon, and its arrival (R59)
  phaseErr : Int
  lastBeacon : Option Nat  -- time of the last valid beacon; none before the first
  lastUp : Option Nat      -- last valid beacon on UP_PORT
  lastAlt : Option Nat     -- last valid beacon on ALT_PORT
  goodRun : Nat            -- consecutive valid beacons within 10 ns (R53)
  resync : Bool            -- R63
  beaconDrop : Nat         -- beacons counted and discarded (R46)
  lastSent : Option Nat    -- last beacon this root sent
  lastLanding : Nat        -- landing number of the last valid beacon (SYNC_FREE's DATA0)
  refLost : Bool           -- R20
  refReturn : Bool         -- YF_REFCLK is back; the handrail returns to it at the next landing
deriving DecidableEq, Repr

/-- One value for each budgeted resource. -/
structure Bud where
  act : Nat
  fab : Nat
  arr : Nat
  vec : Nat
  cpy : Nat
  nrg : Nat
deriving DecidableEq, Repr

/-- The resources of the budgets table. -/
inductive Res where
  | act | fab | arr | vec | cpy | nrg
deriving DecidableEq, Repr

/-- Energy window of R33 and R76. -/
structure Nrg where
  chargedPj : Nat          -- charged in the window now running
  corr : Nat               -- FLT_NRG_CORR, nJ per flight
  corrEnd : Nat            -- time at which the correction ends
  staticNj : Nat           -- FLT_NRG_STATIC
deriving DecidableEq, Repr

/-- The flight now open and its accounts (Budgets, Admission, Late work). Energy is kept in picojoules. -/
structure Flight where
  cap : Bud
  eff : Bud
  effAct : List Nat        -- the four column shares
  usedAct : List Nat       -- charged to each column share by originated work
  usedPool : Nat           -- charged against the sum of the shares, columns not yet known (R633)
  used : Bud               -- charged by originated work; nrg in pJ, act unused
  origAct : Bool           -- originated work has been charged activates in this flight (R84)
  promo : Bud              -- charged by promoted items (R98); nrg in pJ
  rsvAct : List Nat        -- served-kite activates charged per column (R79)
  rsvFab : Nat
  rsvNrg : Nat
  debtAct : List Nat       -- taken from the next flight's shares (R79, R633)
  debtFab : Nat
  debtCpy : Nat
  debtNrg : Nat
  lost : Bud               -- what earlier flights took from this one; nrg in pJ, act unused
  lostAct : List Nat
  refused : Option Res     -- resource that first refused a chunk (R100)
  inboxHeld : Bool         -- the inbox has held a kite since the flight opened (R100)
  lag : Nat
  trim : Nat
  lagClr : Bool
  hot : Bool               -- R38 is in force
  hotNext : Bool
  dueTimes : SMap Nat      -- time of each past landing at which items are still due (R90)
  nrg : Nrg
deriving DecidableEq, Repr

/-! ### Concourse: rings, tenants, contexts, control queue -/

/-- Why an ACTIVE ring is not read (CONC_RING_STATE). -/
inductive RingWait where
  | no
  | cq (since : Nat)
  | ctx
deriving DecidableEq, Repr

/-- A command ring (R104 to R113). -/
structure CmdRing where
  tenant : Nat
  engine : Bool
  poll : Bool
  log2 : Nat
  cq : Nat
  base : Nat
  rcb : Nat
  head : Nat
  tail : Nat               -- last TAIL read
  halted : Bool
  destroying : Bool
  wait : RingWait
  wbHead : Nat             -- last HEAD_WB written
  wbLanding : Option Nat   -- landing of the last HEAD_WB write
  buf : List Byte          -- bytes read from the head on and not yet taken
  again : Bool             -- a doorbell or poll came while a read of it was under way
deriving DecidableEq, Repr

/-- A completion ring (R124 to R129). -/
structure CplRing where
  tenant : Nat
  engine : Bool
  log2 : Nat
  vector : Nat
  coalesce : Nat
  base : Nat
  rcb : Nat
  written : Nat            -- records written, free running
  head : Nat               -- last HEAD read
  reserved : Nat           -- slots reserved and not yet written or released
  sinceMsg : Nat           -- records counted towards the next COALESCE-th
  advised : Bool
  headRead : Option Nat    -- landing of the last HEAD read
deriving DecidableEq, Repr

/-- A tenant table entry, its four words (R140). -/
structure TenEntry where
  w0 : Word
  w1 : Word
  w2 : Word
  w3 : Word
deriving DecidableEq, Repr

/-- The binding of an item to a slot and an epoch (R83, R174). -/
structure Bind where
  table : Nat
  slot : Nat
  epoch : Nat
deriving DecidableEq, Repr

/-- How a row of a bag is served. -/
inductive RowSrc where
  | cache | local | pinned | kite | balloon
deriving DecidableEq, Repr

/-- A row of an admitted chunk: its list positions, its ID, its source, its first byte's address where it lies (a local
offset, a window offset, or a host address), the lines of it that have come so far, and, once arrived, its bytes. -/
structure RowSlot where
  chunk : Nat
  pos : List Nat
  row : Nat
  src : RowSrc
  addr : Nat
  parts : SMap (List Byte)
  data : Option (List Byte)
deriving DecidableEq, Repr

/-- The bag descriptor (R211) with its table and addresses. -/
structure BagDesc where
  table : Nat
  pool : Nat
  outFmt : Nat
  listPtr : Bool
  listLoc : Bool
  wgt : Nat
  wfmt : Nat
  vhint : Nat
  dest : Nat
  noWiden : Bool
  count : Nat
  oscale : Word
  destAddr : Nat
  listAddr : Nat
  wgtAddr : Nat
deriving DecidableEq, Repr

/-- A bag being pooled. -/
structure BagRun where
  desc : BagDesc
  bind : Option Bind
  gallery : Option Nat
  ids : SMap Nat           -- row IDs by list position, as far as read
  wts : SMap Nat           -- weight codes by list position, as far as read
  next : Nat               -- next list position to admit
  rows : List RowSlot
  cached : Nat
  kites : Nat
  balloon : Nat
  sat : Bool
  ovf : Bool
  escOvr : Bool
  rebind : Bool
  rerun : Bool
  finishDue : Bool         -- a re-run of the finish alone is due (R248)
  widened : Option Nat     -- offset of the widened record from the area base
  done : Bool              -- it has pooled and converted for the last time
  settled : Bool           -- and its widened record, if one was due, is written
deriving DecidableEq, Repr

/-- A charge of one chunk: activates by column, activates whose columns are not yet known, and the rest. -/
structure Charge where
  acts : List Nat
  pool : Nat
  fab : Nat
  arr : Nat
  vec : Nat
  cpy : Nat
deriving DecidableEq, Repr

/-- An admitted chunk that has not completed, and what it was charged. -/
structure Chunk where
  id : Nat
  flight : Nat             -- landing that opened the flight it was charged to
  bag : Nat                -- bag of a set; 0 otherwise
  first : Nat              -- first list position, and how many
  count : Nat
  charge : Charge
  promoted : Bool
  waiting : Nat            -- rows, kites or reads still outstanding
deriving DecidableEq, Repr

/-- How an item ends: status, DETAIL, AUX. -/
structure Ending where
  status : Nat
  detail : Nat
  aux : Nat
deriving DecidableEq, Repr

/-- An array operand (R375), table operands already resolved (R376). -/
structure Operand where
  fmt : Nat
  esc : Nat
  loc : Nat
  stride : Nat
  scale : Word
  zp : Int
  addr : Nat
  sums : Nat
deriving DecidableEq, Repr

/-- An update entry of a block (R308). -/
structure UpdEntry where
  pos : Nat
  row : Nat
  state : Word
  deltas : List Nat
deriving DecidableEq, Repr

/-- A kite of an update batch (R322): home and shard, and its entries by list position. -/
structure UpdKite where
  home : Nat
  shard : Nat
  entries : List UpdEntry
deriving DecidableEq, Repr

/-- A piece of a copy (R515): one LINEAR entry or one row of a TILE2D entry. -/
structure CpyTile where
  entry : Nat              -- first slot of its entry
  off : Nat                -- byte offset within the entry
  src : Nat
  dst : Nat
  len : Nat
  state : Nat              -- 0 not started, 1 reading, 2 read, 3 writing, 4 written, 5 failed
  data : List Byte
  sent : Nat               -- bytes of it whose hall kites have been sent
  kites : Nat              -- hall pieces still unanswered
  retries : Nat
deriving DecidableEq, Repr

/-- The stages a copy passes after its last entry. -/
inductive CpyStage where
  | data | crc | fence | flag
deriving DecidableEq, Repr

/-- What an accepted packet is doing, opcode by opcode. -/
inductive Work where
  /-- NOP, and packets with nothing of their own to hold. -/
  | none
  /-- BAG: one bag. -/
  | bag (b : BagRun)
  /-- BAG_INTERACT: the bags, and the next interaction pass or layer chunk (R390, R391). -/
  | interact (bags : List BagRun) (layers : List Bind) (stage : Nat) (vecs : List (List Nat)) (asat aovf : Bool)
  /-- ARRAY_OP: the tile it holds and the result bytes once formed (R374). -/
  | array (binding : Option Bind) (restored ovf : Bool) (maxabs sat : Nat)
  /-- TILE_READ and TILE_WRITE (R383). -/
  | tile
  /-- VEC_CHAIN: statistics of the chain (R401). -/
  | vec (passes sat : Nat)
  /-- UPDATE_BATCH: binding, formed kites not yet admitted, next block, outstanding kites, counts and flags (R307). -/
  | upd (binding : Option Bind) (kites : List UpdKite) (next : Nat) (outstanding localN remoteN : Nat)
      (sat nan rebind creditWait : Bool)
  /-- SPLIT_REDUCE: next element and saturation (R345). -/
  | reduce (next : Nat) (sat : Bool)
  /-- COPY: tiles formed, next slot to admit, the CRC once all data is written, stage, flags (R508). -/
  | copy (tiles : List CpyTile) (next : Nat) (crc : Word) (stage : CpyStage) (started preempted retried : Bool)
  /-- INLINE_WRITE (R476). -/
  | inlineW
deriving DecidableEq, Repr

/-- Input an item reads from host memory or engine memory before it can go on, by a key of its own. -/
abbrev Inputs := SMap (List Byte)

/-- A recheck in progress (R605 to R608): the galleries G1, G2, G3 (31 where no run was made), the results of the runs
made so far in order, the gallery of the run in hand, the work each run starts from, and the expected bytes asked for
and read. -/
structure Rck where
  gals : List Nat
  runs : List (List Byte)
  cur : Nat
  words : List Word
  expectEn : Bool
  expectAddr : Nat
  expect : Option (List Byte)
  waitExpect : Bool
  suspect : Nat
deriving DecidableEq, Repr

/-- A request context: one accepted datapath packet (R123). -/
structure Item where
  seq : Nat
  tenant : Nat
  hallId : Nat
  src : PktSrc
  cq : Option Nat
  index : Nat
  words : List Word
  op : Nat
  cls : Nat                -- class in force
  cls0 : Nat               -- class of the packet
  accLanding : Nat
  due : Nat
  spilled : Bool
  wasSpilled : Bool
  admitAt : Nat            -- admissible from this landing (R222)
  admitted : Bool
  gallery : Option Nat
  moved : Bool
  heldBack : Bool          -- its next chunk was held back by the promoted cap (R99)
  waited : Bool            -- its next chunk has been counted as waiting for a slot or for credit (R325, R366)
  chunks : List Chunk
  nextChunk : Nat
  inputs : Inputs
  work : Work
  writes : Nat             -- result writes not yet committed
  ending : Option Ending
  rck : Option Rck         -- the work is a run of a RECHECK
deriving DecidableEq, Repr

/-- A control packet whose execution goes on after the management core has put it aside. `persist` holds the writes that
have not yet found room in the persistent store's queue, and the word written last. -/
inductive MgmtKind where
  | openSlot (table slot : Nat)
  | ringDestroy (ring : Nat)
  | ringReset (ring : Nat)
  | unitReset (kind unit readyAt : Nat)
  | drain
  | selftest
  | persist (left : List (Nat × Word)) (last : Nat)
  | fwLoad (size : Nat)
  | counters (homed : Nat)
  | migrate (table shard : Nat)
deriving DecidableEq, Repr

/-- A control packet put aside (Opcodes). -/
structure MgmtOp where
  pkt : MqPkt
  kind : MgmtKind
deriving DecidableEq, Repr

/-- The concourse and the management core's queue. -/
structure Conc where
  cmd : SMap CmdRing
  cpl : SMap CplRing
  ten : SMap TenEntry      -- the TEN window
  tenEff : SMap TenEntry   -- quotas, SHARE, PART and CLASS_MIN in force (R140)
  items : List Item        -- contexts in order of acceptance
  nextSeq : Nat
  mq : List MqPkt
  mqSvc : List Nat         -- service times of the last 64 control packets
  ops : List MgmtOp
  sched : List Sched       -- the schedule table, in order of acceptance
  decim : Nat
  mqHigh : Bool            -- at or above 75 % throughout the window so far
  mqLow : Bool             -- below 25 % throughout the window so far
  telePeriod : Word        -- TELEMETRY_CFG
  teleCount : Nat          -- telemetry instants since the last record sent
deriving DecidableEq, Repr

/-- The control queue's fill has changed: whether it has stayed at or above 75 % (192 of 256), or below 25 % (64),
throughout the window so far (R149). -/
def Conc.noteMq (c : Conc) : Conc :=
  { c with mqHigh := c.mqHigh && decide (c.mq.length ≥ 192), mqLow := c.mqLow && decide (c.mq.length < 64) }

/-! ### Tables -/

/-- The three views and PEND of a shard-map entry (R187). -/
structure ShardEnt where
  cur : Nat
  next : Nat
  prev : Nat
  pend : Bool
deriving DecidableEq, Repr

/-- A shard's load counters (R207). -/
structure LoadCnt where
  reads : Nat
  updates : Nat
  peak : Nat
  inFlight : Nat           -- rows read in the flight now open
  since : Nat              -- landing of the last clear
deriving DecidableEq, Repr

/-- Table states (R166). -/
inductive TState where
  | free | loading | serving | training | retiring
deriving DecidableEq, Repr

/-- Slot states (R170). -/
inductive SState where
  | empty | filling | ready | current | old
deriving DecidableEq, Repr

/-- One version slot of a table: state, landing of its switch out, first landing with no reference (R176). -/
structure VSlot where
  st : SState
  switched : Nat
  zeroAt : Option Nat
deriving DecidableEq, Repr

/-- The updates' statistics of a table (Statistics of Scatter Updates), as FP32 codes and counts. -/
structure UpdStat where
  maxd : Nat
  maxv : Nat
  sat : Nat
  nan : Nat
deriving DecidableEq, Repr

/-- A directory entry that is not FREE (R159): its packet words, and the fields the engine sets. -/
structure Table where
  words : List Word        -- the sixteen words as TABLE_DEFINE carried them
  st : TState
  slot0 : VSlot
  slot1 : VSlot
  cur : Nat
  epoch : Nat
  bumpPend : Bool
  nocache : Bool
  nocacheClr : Bool        -- TRAINING has been left; NOCACHE clears when no bound update runs (R179)
  shards : SMap ShardEnt
  load : SMap LoadCnt
  defined : Nat            -- landing of its TABLE_DEFINE
deriving DecidableEq, Repr

/-- The table directory and grants. -/
structure Dir where
  tables : SMap Table
  grants : List (Nat × Nat × Bool × Bool)     -- table, hall tenant, READ, UPDATE
  grantsNext : List (Nat × Nat × Bool × Bool) -- as written; in force from the next landing (R164)
deriving DecidableEq, Repr

/-! ### Galleries -/

/-- A cell of an accumulator tile: INT32 code with OVF, or the FP32 pair (R353, R354). -/
structure Cell where
  a : Nat
  b : Nat
deriving DecidableEq, Repr

/-- A held tile (R361): mode, cells that are not zero by index row × 128 + column, where it lives, last use. -/
structure Tile where
  tenant : Nat
  num : Nat
  lost : Bool
  real : Bool
  cells : SMap Cell
  home : Option (Nat × Nat)  -- gallery and slot; none when spilled
  lastUse : Nat
  noSpill : Bool             -- a spill of it faulted (R368)
deriving DecidableEq, Repr

/-- One gallery: power, fence, quiesce, its own registers that the spec gives no other home. -/
structure Gal where
  enabled : Bool
  fenced : Bool
  on : Bool
  quiesced : Bool
  testing : Bool
  working : Option Nat     -- item on the working tile
  workReal : Bool
  ceHour : Nat             -- correctable errors in the current hour window
  pend : SMap (Nat × Nat × Nat)  -- statistics pending by table: MAXABS, SATBAGS, BAGS (R400)
  req : SMap (Word × Word × Word)  -- requantisation registers by set × 128 + channel: MULT, BIAS, word 2
  colsum : SMap Word
  rowsum : SMap Word
deriving DecidableEq, Repr

/-! ### Row cache -/

/-- A tag (R403). -/
structure Tag where
  table : Nat
  slot : Nat
  kind : Nat
  key : Nat
deriving DecidableEq, Repr

/-- A valid unpinned line. -/
structure RcLine where
  tag : Tag
  data : List Byte
deriving DecidableEq, Repr

/-- A miss entry (R408). `waiters` are the reads it serves: a reader (twice an item's number, or twice a served kite's
plus 1) and a place in its list. `held` is set while it waits for a place in its set and slice (R409). -/
structure RcMiss where
  id : Nat
  slice : Nat
  set : Nat
  tag : Tag
  cls : Nat
  ways : Nat               -- way quota of the requester, 0 for none
  noAlloc : Bool
  held : Bool
  waiters : List (Nat × Nat)
deriving DecidableEq, Repr

/-- Maintenance requests (R430 to R433). -/
inductive MntOp where
  | nop
  | range (lo hi : Nat)
  | table (t : Nat) (s0 s1 : Bool)
  | all
  | pin (oldWays newWays : Nat)
  | init (clearStale : Bool)
deriving DecidableEq, Repr

/-- A queued or running request: who asked (0 software, 1 engine), and what waits for it. -/
structure Mnt where
  id : Nat
  op : MntOp
  engine : Bool
deriving DecidableEq, Repr

/-- The row cache. -/
structure RCache where
  lines : SMap RcLine      -- (slice × 8192 + set) × 16 + way
  lru : SMap Nat           -- slice × 8192 + set
  misses : List RcMiss
  nextMiss : Nat
  peak : SMap Nat
  queue : List Mnt
  running : Option Mnt
  overflow : List Mnt      -- engine requests that wait for a place (R432)
  nextMnt : Nat
  init : Bool
  stale : Bool
  saltDirty : Bool
  pinCap : Nat             -- pinned ways whose window is in force (R420)
  pinGen : Nat             -- draws the undefined contents of a newly pinned window
  pinned : SMap Byte       -- window bytes that have been written
  pinErr : List Nat        -- 8-byte words of the window with an uncorrectable error (R424)
  off : List Nat           -- slices out of service (R596)
  quiesced : List Nat      -- slices quiesced (R546)
  ueHour : SMap Nat        -- per slice, in the current hour window
deriving DecidableEq, Repr

/-! ### Stairwells -/

/-- STW_STAT.TSTATE. -/
inductive TTemp where
  | x1 | x2 | x4 | throttle | halt
deriving DecidableEq, Repr

/-- One column. -/
structure Col where
  temp : TTemp
  frac : TTemp             -- state whose fraction the open flight uses (R37)
  temps : List Int
  sampled : Bool
  remap : List Word        -- repair entries in use, by index (R457)
  pendRep : List Nat       -- pending rows, packed as channel + 32·bank + 2048·row
  spareUsed : SMap Nat     -- spare rows used, by channel + 32·bank
  lanes : SMap Nat         -- spare lanes used, by channel
  rowCe : SMap Nat         -- correctable errors this scrub pass, by packed row
  connCe : SMap Nat        -- symbol errors this pass by channel × 288 + connection (R459)
  remapBusy : List Nat     -- packed rows whose live remap copies run, oldest first
  retired : Nat
  spareExh : Bool
  tableFull : Bool
  tokens : SMap Nat
  waiting : SMap Nat       -- accesses waiting for a token, by partition
  test : Option Word       -- STW_TEST_CTL of the running test
  quiesced : Bool
  refreshes : Nat
deriving DecidableEq, Repr

/-- The stairwells: one DRAM contents for all four columns, and each column's base logic. -/
structure Stw where
  mem : List Host.Cell     -- bytes by local offset
  poison : List Nat        -- poisoned lines, by local offset / 64, rising
  cols : List Col
deriving DecidableEq, Repr

/-! ### Kites -/

/-- What a tether belongs to. -/
inductive TethOwner where
  | gather (item bag chunk : Nat) (rows : List Nat)     -- request positions: row IDs in order
  | upd (item chunk count : Nat)
  | dual (served : Nat)
  | migStart (table shard : Nat)
  | migData (table shard first count : Nat)
  | hall (item tile off len : Nat) (write : Bool)
deriving DecidableEq, Repr

/-- Tether slot states other than FREE (R272 to R277). -/
inductive TethState where
  | busy | held | quar
deriving DecidableEq, Repr

/-- A tether slot that is not FREE. -/
structure Tether where
  gen : Nat
  st : TethState
  since : Nat
  dst : Nat
  seen : List Nat          -- request positions that have arrived (R275)
  owner : TethOwner
deriving DecidableEq, Repr

/-- A kite that waits for a FREE slot (R273). -/
structure WaitKite where
  frame : Frame
  owner : TethOwner
deriving DecidableEq, Repr

/-- A migration with this engine as source or target (R294 to R301). `state` is KITE_MIG_STATE.STATE. -/
structure Mig where
  table : Nat
  shard : Nat
  peer : Nat
  state : Nat
  late : Bool              -- passed through LATE
  slots : List Nat         -- slots being copied, in order
  next : Nat               -- next line to read for the copy, over the slots in order
  acked : List (Nat × Nat) -- acknowledged (or received) line ranges: first, count
  lines : Nat              -- KITE_MIG_LINES
  graceDone : Bool
  pkt : Option MqPkt
deriving DecidableEq, Repr

/-- A kite this engine serves and has not yet answered. -/
structure Served where
  id : Nat
  frame : Frame
  arrived : Nat
  rows : List (Nat × Nat × Option (List Byte))  -- request position, row ID, data once read
  pendLines : Nat          -- adds that have not reached the stairwell (R330)
  taken : Bool             -- taken up by the adders
  duals : Nat              -- dual-apply copies not yet acknowledged (R339)
  dualLost : Bool
  failed : Option Nat      -- line with an uncorrectable error (R331)
  sat : Bool
  nan : Bool
  item : Option Nat        -- a local kite of this item (R322)
deriving DecidableEq, Repr

/-- A ledger entry (R332 to R334). -/
structure Ledger where
  keyOrigin : Nat
  tenant : Nat
  batch : Nat
  block : Nat
  mask : Nat
  expires : Nat
  kite : Nat
deriving DecidableEq, Repr

/-- One element's combined delta in the combining buffer (R329). -/
structure Delta where
  off : Nat                -- local offset of the element
  kind : Nat               -- storage: 0 INT8, 1 E4M3, 2 E5M2, 3 BF16, 4 FP32, 5 INT32
  scale : Word             -- SCALE of the stored codes
  zp : Int
  gscale : Word            -- GRAD_SCALE or STATE_SCALE
  isum : Int               -- sum of integer codes
  hi : Nat                 -- FP32 pair of floating values
  lo : Nat
  maxd : Nat               -- largest delta value, FP32 code
  count : Nat
  isInt : Bool
deriving DecidableEq, Repr

/-- A line waiting in the combining buffer. -/
structure CombLine where
  line : Nat
  table : Nat
  since : Nat
  deltas : List Delta
  kites : List Nat         -- served kites with an add in it
deriving DecidableEq, Repr

/-- A deferred dual-apply copy (R297). -/
structure DualWait where
  served : Nat
  frame : Frame
  table : Nat
  shard : Nat
  lines : List Nat         -- lines of the copy still to be acknowledged, counted over the slots being copied
deriving DecidableEq, Repr

/-- The kite terminal, the update inbox and the ledger. -/
structure Kites where
  tethers : SMap Tether
  gens : SMap Nat
  fresh : Nat              -- next slot never allocated
  freed : List Nat         -- FREE slots behind the fresh ones
  quarAll : Option Nat     -- after a warm reset, every slot is QUARANTINED until then (R282)
  quarWait : Bool          -- that quarantine starts at the reset's release
  waiting : List WaitKite
  migSrc : List Mig
  migDst : List Mig
  served : List Served
  nextServed : Nat
  inbox : List Nat         -- served updates in the inbox, oldest first
  inboxTail : Nat          -- units ever taken into the inbox's ring
  comb : List CombLine
  ledger : List Ledger
  credit : SMap Nat        -- credit cache by home
  backoff : SMap Nat       -- landing at which a home's backoff ends
  nackUntil : Option Nat   -- R335
  nackWait : Bool
  dualWait : List DualWait
  upd : SMap UpdStat       -- per table
deriving DecidableEq, Repr

/-! ### Zhoni ports -/

/-- A frame held on a port until acknowledged. -/
structure HeldFrame where
  frame : Frame
  transit : Bool
  sent : Nat
  tries : Nat
deriving DecidableEq, Repr

/-- A port. -/
structure Port where
  lit : Bool               -- its lasers are lit
  up : Bool
  upSince : Nat
  settled : Bool           -- the link has never come up again, or has then stayed up for 100 µs (R288)
  light : Bool
  retryDown : Bool
  held : List HeldFrame    -- frames not yet acknowledged, the first 1,024 sent, the rest queued
deriving DecidableEq, Repr

/-- Router and link layers, held in the handrail domain (R292). -/
structure Zp where
  ports : List Port
deriving DecidableEq, Repr

/-! ### Translation, host link -/

/-- A TLB entry (R478). `l1` are the requesters whose L1 holds it. -/
structure Tlb where
  pasid : Nat
  page : Nat               -- address of its first byte
  size : Nat
  r : Bool
  w : Bool
  lastUse : Nat
  l1 : List Nat
deriving DecidableEq, Repr

/-- What a host access is for. -/
inductive HPurpose where
  | tail (ring : Nat)
  | packets (ring upto : Nat)
  | cqHead (ring : Nat)
  | wbHead (ring : Nat)
  | list (item bag first : Nat)
  | weights (item bag first : Nat)
  | input (item key wh : Nat)
  | coldRow (key pos : Nat)
  | widenHead (item bag : Nat)
  | widen (item bag : Nat) (body : List Byte) (units : Nat)
  | result (item bag wh : Nat)
  | record (ring : Nat) (item : Option Nat) (irq : Bool)
  | spill (tile : Nat)
  | restore (item tile : Nat)
  | cpyRead (item tile : Nat)
  | cpyWrite (item tile : Nat)
  | cpyFence (item : Nat)
  | fwImage (op : Nat)
  | counters (op : Nat)
  | migRead (table shard first count : Nat)
  | migWrite (table shard first count : Nat)
deriving DecidableEq, Repr

/-- A host access: waiting for translations, or a read that has left and not returned. -/
structure HAcc where
  id : Nat
  req : Nat                -- requester number
  tenant : Nat
  pasid : Option Nat       -- none for a bus address (R143)
  addr : Nat
  len : Nat
  write : Option (List Byte)
  more : List (Nat × List Byte)  -- further ranges a write of one tile covers, with their bytes
  purpose : HPurpose
  issued : Bool
  prefetch : Bool
  noPri : Bool             -- its page faults make no page request (R481, R484)
  fails : List (Nat × Bool)  -- pages that have failed, and whether for want of permission (R490)
deriving DecidableEq, Repr

/-- An outstanding ATS request. -/
structure Ats where
  id : Nat
  pasid : Nat
  page : Nat
  write : Bool
  prefetch : Bool
  afterPri : Bool
  req : Nat
  sent : Bool
deriving DecidableEq, Repr

/-- An outstanding or waiting page request. -/
structure Pri where
  id : Nat
  pasid : Nat
  page : Nat
  write : Bool
  at_ : Nat
  sent : Bool
deriving DecidableEq, Repr

/-- A stride detector (R487). -/
structure Detector where
  last : Nat
  stride : Int
  run : Nat
  pasid : Nat
deriving DecidableEq, Repr

/-- A hot-page counter (R494). -/
structure HotCnt where
  pasid : Nat
  tenant : Nat
  page : Nat
  count : Nat
  table : Nat
  shard : Option Nat
deriving DecidableEq, Repr

/-- XLT_HOST.STATE (R498). -/
inductive HostSt where
  | attached | detached | attaching
deriving DecidableEq, Repr

/-- The translation unit and the host link's state. -/
structure Xlt where
  tlb : List Tlb
  accs : List HAcc
  nextId : Nat
  ats : List Ats
  pri : List Pri
  detectors : SMap Detector
  hot : List HotCnt
  atsAvail : Bool
  priAvail : Bool
  priStop : Bool
  host : HostSt
  link : Bool
  fresh : Bool             -- the link was down when a reset was released: the next link-up finds nothing to reattach
  mode : Bool              -- host-loss mode in force: CONTINUE
  downSince : Nat
  logHead : Nat            -- detach log: entries freed
  logTail : Nat            -- detach log: entries written (SEQ)
  denseCredits : Nat
  denseWait : List (Nat × Nat × List Byte)   -- item, handle, bytes waiting for a credit (R254)
deriving DecidableEq, Repr

/-- A copy channel's state that no register word holds. -/
structure Chan where
  lat : List Nat           -- copies of the latency class, in the order their first entries were admitted
  bulk : List Nat
  halt : Bool
  stopRead : Bool          -- the latency class reached HIWM and not yet LOWM
  stopReadB : Bool
  quiesced : Bool
deriving DecidableEq, Repr

/-! ### Reset, pins, presence, persistence -/

/-- The release sequence. -/
inductive RstPhase where
  | run | abort | held | releasing
deriving DecidableEq, Repr

/-- One reset source of R537: whether asserted, and for timed ones when it ends its hold. -/
structure Rst where
  phase : RstPhase
  step : Nat               -- last step taken
  ready : Nat              -- last step whose domain is ready; later ones are held in reset outside RUN
  por : Bool
  porUntil : Option Nat    -- release of the power-on source
  coldPin : Bool
  coldCmd : Option Nat     -- time at which the commanded cold source releases
  warm : Option Nat        -- time at which the warm source releases
  abortEnd : Option Nat
  assertAt : Nat           -- first assertion of any source in the reset now ending
  stepAt : Nat             -- time the last step was taken
  gapFrom : Option Nat     -- when the gap before the next step began; none when that step is taken at once (R552)
  wide : Bool              -- the stairwells wait for the bring-up of a power-on or cold reset
  standby : Bool           -- the standby rail is up
  pincfg : Bool
  large : Bool             -- style
  strap : Nat              -- converter code
  refused : Bool
  outLow : Option Nat      -- YF_RSTOUT# is driven low, until this time at the earliest
deriving DecidableEq, Repr

/-- A pin's output side. -/
structure Pin where
  func : Nat               -- function now driving it
  keep : Option (Nat × Bool)  -- keeper: time it lets go, level
  pulse : Option Nat       -- LANDING: time at which the pulse now high falls
deriving DecidableEq, Repr

/-- Presence and the seal loop (R150, R561). -/
structure Pres where
  press : Option Nat       -- time of the last valid press still authorising
  lastPress : Option Nat   -- time of the last valid press
  sealOpen : Bool
  openRun : Nat
  broken : Bool
  blink : Bool
deriving DecidableEq, Repr

/-- The backup domain (R568). -/
structure Bk where
  valid : Bool
  lost : Bool
  sealTrip : Bool
  therm : Bool
  cause : Nat
  landing : Nat
  cnt : List Nat           -- causes 1 to 8
  gone : Bool              -- contents lost under R23, not yet reported
deriving DecidableEq, Repr

/-- A queued persistent write (R575). `count` says whether it is counted. -/
structure PsWrite where
  word : Nat
  value : Word
  engine : Bool
deriving DecidableEq, Repr

/-- The persistent store: words and counts that are not zero, the queue, overrides (R572 to R578). -/
structure Ps where
  words : SMap Word
  counts : SMap Nat
  busy : Option (PsWrite × Nat)   -- the write being persisted and when it began
  queue : List PsWrite
  unlocked : List Nat
  presRef : Bool
  wearRef : Bool
  drop : Bool
  torn : Bool
  tornWord : Option (Nat × Word)  -- a write cut short by a loss of power, to be resolved in step 1
deriving DecidableEq, Repr

/-- Boot and the management core (R564 to R567, R612). -/
structure Boot where
  state : Nat              -- HR_BOOT_STAT.STATE
  slot : Nat
  fromLane : Bool
  fwVer : Word
  image : SMap Byte        -- bytes received over the lane
  staged : Option (List Byte)
  wdogCtl : Word
  wdogStage : Nat
  wdogStart : Nat
  wdogWritten : Bool
  running : Bool           -- the watchdog count runs
  lastReq : Option Nat
deriving DecidableEq, Repr

/-- A self-test in progress (R602 to R604). -/
structure SelfTest where
  pkt : MqPkt
  gals : List Nat          -- still to test
  slices : List Nat
  cols : List Nat
  cur : Option (Nat × Nat)  -- kind and unit under test
  started : Option Nat     -- when it went idle and the test began
  since : Nat              -- when it left assignment
  retest : Option Nat      -- code of a first failure
  failG : Nat
  failS : Nat
  failC : Nat
  skipG : Nat
  code : Nat
deriving DecidableEq, Repr

/-- ERR_DRAIN.STATE (R598). -/
inductive DrainSt where
  | none | requested | draining | drained
deriving DecidableEq, Repr

/-- Error log, drain, spares, debug (Faults, Spares and the Handrail). -/
structure Err where
  log : SMap (List Word)   -- by index
  seq : Nat                -- SEQ of the next record
  sent : Nat               -- SEQ of the next record to go over the lane
  supp : List (Nat × Nat × Nat × Nat × Nat)   -- code, unit kind, unit, time of last record, suppressed since
  drain : DrainSt
  drainCause : Nat
  belowFloor : Bool        -- R595 has acted and the count has stayed below FLOOR
  fenceUnsaved : Bool
  cmdRefused : Bool
  dbgScope : Nat
  spareTest : Option (Nat × Nat)   -- spare under its 50 µs test, and when it began
  spareReady : Option Nat  -- spare that passed and is enabled at the next landing
  retire : List Nat        -- retired pages, by local offset
  retireFull : Bool
  hourStart : Nat
  tempFence : List Nat     -- fenced by injection, not persisted (R615)
  therm : Bool             -- THERMTRIP# is asserted
  core : Bool              -- the core supply is up
  capGal : Nat             -- ENG_CAP_GAL.COUNT, as the last landing left it (R621)
  injFlip : List Nat       -- galleries whose next result has one bit flipped (R615, KIND 3)
deriving DecidableEq, Repr

/-- Everything the engine has sent to the outside, oldest first. -/
inductive Out where
  | hostWrite (pasid : Option Nat) (addr : Nat) (data : List Byte)
  | hostRead (id : Nat) (pasid : Option Nat) (addr len : Nat)
  | msix (vector : Nat)
  | atsRequest (id pasid page : Nat) (write : Bool)
  | pageRequest (id pasid page : Nat) (write : Bool)
  | invalDone (pasid addr : Nat)
  | frame (port : Nat) (f : Frame)
  | beacon (port : Nat) (landing phaseNs len : Nat) (pend : Option (Nat × Nat)) (root depth : Nat)
  | lane (kind result seq : Nat) (payload : List Word)
  | dense (handle : Nat) (data : List Byte)
  | barRead (value : Nat)
  | cxlRead (data : List Byte) (poison : Bool)
  | cxlWriteDone
deriving DecidableEq, Repr

/-- The YF7. -/
structure State where
  now : Nat
  active : Nat             -- ENG_PROFILE.ACTIVE
  regs : SMap Word         -- registers that hold a plain word or count, by BAR offset (+ 2^24 × index where a selector shows one of several)
  latch : SMap Word        -- R6: the latched _HI half, by offset (+ 2^24 for the lane)
  heldLo : SMap Word       -- R7: a _LO half written and not yet applied
  hall : Hall
  flt : Flight
  conc : Conc
  dir : Dir
  gals : List Gal
  tiles : SMap Tile        -- held tiles by tenant × 16 + number
  rc : RCache
  stw : Stw
  kite : Kites
  zp : Zp
  xlt : Xlt
  cpy : List Chan
  rst : Rst
  pins : List Pin
  pres : Pres
  bk : Bk
  ps : Ps
  boot : Boot
  selftest : Option SelfTest
  err : Err
  laneReqs : List (Nat × Nat)   -- lane reads not yet answered: SEQ, offset
  outs : List Out
  freeSeq : Nat            -- the model's own: index of the next free value
  pending : List Instr     -- the model's own: commands waiting, first in first out
deriving DecidableEq, Repr

/-! ### The state right after reset

Every register at the Reset column of its field table, every domain out of reset and no source asserted (log 2). -/

/-- A budget of zeros. -/
def Bud.zero : Bud := ⟨0, 0, 0, 0, 0, 0⟩

/-- Capacities of a CABINET flight of 500 ns with sixteen galleries (R71, R73). -/
def Bud.cabinet500 : Bud := ⟨10000, 25000, 4800, 9600, 4800, 75000⟩

/-- Hall time after reset: STANDALONE, flights of 50 reference cycles, landing 0 just opened (R101). -/
def Hall.reset : Hall where
  sync := .standalone
  upActive := false
  depth := 0
  stepCnt := 0
  root := 0
  rootInForce := 0
  len := 50
  lenNext := 50
  lenAt := 0
  lenPend := none
  lenHeld := false
  landing := 0
  landingAt := 0
  slewNs := 0
  slewed := 0
  stepPend := none
  phaseErr := 0
  lastBeacon := none
  lastUp := none
  lastAlt := none
  goodRun := 0
  resync := false
  beaconDrop := 0
  lastSent := none
  lastLanding := 0
  refLost := false
  refReturn := false

/-- The first flight. -/
def Flight.reset : Flight where
  cap := .cabinet500
  eff := .cabinet500
  effAct := [2500, 2500, 2500, 2500]
  usedAct := [0, 0, 0, 0]
  usedPool := 0
  used := .zero
  origAct := false
  promo := .zero
  rsvAct := [0, 0, 0, 0]
  rsvFab := 0
  rsvNrg := 0
  debtAct := [0, 0, 0, 0]
  debtFab := 0
  debtCpy := 0
  debtNrg := 0
  lost := .zero
  lostAct := [0, 0, 0, 0]
  refused := none
  inboxHeld := false
  lag := 0
  trim := 0
  lagClr := false
  hot := false
  hotNext := false
  dueTimes := []
  nrg := ⟨0, 0, 0, 0⟩

/-- Tenant 0's entry after reset (R140): VALID, SHARE 1, the full quotas. -/
def TenEntry.zero : TenEntry := ⟨0x01100000, 0, 0x00100000, 0x00002000⟩

/-- The concourse after reset: no ring, tenant 0 alone. -/
def Conc.reset : Conc where
  cmd := []
  cpl := []
  ten := [(0, .zero)]
  tenEff := [(0, .zero)]
  items := []
  nextSeq := 0
  mq := []
  mqSvc := []
  ops := []
  sched := []
  decim := 0
  mqHigh := false
  mqLow := true
  telePeriod := 0
  teleCount := 0

/-- A gallery after reset; galleries 0 to 15 are enabled (R594). -/
def Gal.reset (enabled : Bool) : Gal where
  enabled := enabled
  fenced := false
  on := enabled
  quiesced := false
  testing := false
  working := none
  workReal := false
  ceHour := 0
  pend := []
  req := []
  colsum := []
  rowsum := []

/-- The row cache after reset, its invalidation of R434 running. -/
def RCache.reset : RCache where
  lines := []
  lru := []
  misses := []
  nextMiss := 0
  peak := []
  queue := []
  running := some ⟨0, .init true, true⟩
  overflow := []
  nextMnt := 1
  init := true
  stale := false
  saltDirty := false
  pinCap := 0
  pinGen := 0
  pinned := []
  pinErr := []
  off := []
  quiesced := []
  ueHour := []

/-- A column after reset. -/
def Col.reset : Col where
  temp := .x1
  frac := .x1
  temps := [0, 0, 0, 0, 0, 0, 0, 0, 0, 0, 0, 0, 0, 0, 0, 0]
  sampled := false
  remap := []
  pendRep := []
  spareUsed := []
  lanes := []
  rowCe := []
  connCe := []
  remapBusy := []
  retired := 0
  spareExh := false
  tableFull := false
  tokens := []
  waiting := []
  test := none
  quiesced := false
  refreshes := 0

/-- The kite terminal after reset. -/
def Kites.reset : Kites where
  tethers := []
  gens := []
  fresh := 0
  freed := []
  quarAll := none
  quarWait := false
  waiting := []
  migSrc := []
  migDst := []
  served := []
  nextServed := 0
  inbox := []
  inboxTail := 0
  comb := []
  ledger := []
  credit := []
  backoff := []
  nackUntil := none
  nackWait := false
  dualWait := []
  upd := []

/-- A dark port. -/
def Port.reset : Port := ⟨false, false, 0, true, false, false, []⟩

/-- The translation unit after reset. -/
def Xlt.reset : Xlt where
  tlb := []
  accs := []
  nextId := 0
  ats := []
  pri := []
  detectors := []
  hot := []
  atsAvail := false
  priAvail := false
  priStop := false
  host := .attached
  link := false
  fresh := false
  mode := false
  downSince := 0
  logHead := 0
  logTail := 0
  denseCredits := 0
  denseWait := []

/-- A copy channel after reset. -/
def Chan.reset : Chan where
  lat := []
  bulk := []
  halt := false
  stopRead := false
  stopReadB := false
  quiesced := false

/-- The reset controller in RUN. -/
def Rst.reset : Rst where
  phase := .run
  step := 6
  ready := 6
  por := false
  porUntil := none
  coldPin := false
  coldCmd := none
  warm := none
  abortEnd := none
  assertAt := 0
  stepAt := 0
  gapFrom := none
  wide := false
  standby := true
  pincfg := false
  large := false
  strap := 0
  refused := false
  outLow := none

/-- A pin after reset. -/
def Pin.reset (func : Nat) : Pin := ⟨func, none, none⟩

/-- Boot after reset. -/
def Boot.reset : Boot where
  state := 0
  slot := 0
  fromLane := false
  fwVer := 0
  image := []
  staged := none
  wdogCtl := 0x000101F4
  wdogStage := 0
  wdogStart := 0
  wdogWritten := false
  running := false
  lastReq := none

/-- The persistent store as shipped (R578, R626): words 0, 4 and 5; counts start at 0 (log 3). -/
def Ps.shipped : Ps where
  words := [(0, 0x00000C02), (4, 0x00000800), (5, 0x05000000)]
  counts := []
  busy := none
  queue := []
  unlocked := []
  presRef := false
  wearRef := false
  drop := false
  torn := false
  tornWord := none

/-- Error state after reset. -/
def Err.reset : Err where
  log := []
  seq := 0
  sent := 0
  supp := []
  drain := .none
  drainCause := 0
  belowFloor := false
  fenceUnsaved := false
  cmdRefused := false
  dbgScope := 0
  spareTest := none
  spareReady := none
  retire := []
  retireFull := false
  hourStart := 0
  tempFence := []
  therm := false
  core := true
  capGal := 16
  injFlip := []

/-- The machine right after reset. -/
def State.reset : State where
  now := 0
  active := 2
  regs := []
  latch := []
  heldLo := []
  hall := .reset
  flt := .reset
  conc := .reset
  dir := ⟨[], [], []⟩
  gals := List.replicate 16 (Gal.reset true) ++ List.replicate 2 (Gal.reset false)
  tiles := []
  rc := .reset
  stw := ⟨[], [], List.replicate 4 Col.reset⟩
  kite := .reset
  zp := ⟨List.replicate 16 Port.reset⟩
  xlt := .reset
  cpy := List.replicate 40 Chan.reset
  rst := .reset
  pins := [.reset 0, .reset 0, .reset 0, .reset 5]
  pres := ⟨none, none, false, 0, false, false⟩
  bk := ⟨true, false, false, false, 1, 0xFFFFFFFFFFFFFFFF, [1, 0, 0, 0, 0, 0, 0, 0], false⟩
  ps := .shipped
  boot := .reset
  selftest := none
  err := .reset
  laneReqs := []
  outs := []
  freeSeq := 0
  pending := []

end Sys2Proof.Machine
end

