-- ==== Sys2Proof/Machine/Ops.lean ====
section
/-! DEFINITION. The named operations over the state that every family shares: sparse maps, registers, stairwell memory,
error records, outputs, free values and time. -/
namespace Sys2Proof.Machine

open Sys2Proof.Config

/-! ### Sparse maps and lists -/

/-- The value under a key. -/
def mapGet {α : Type} (m : SMap α) (k : Nat) : Option α :=
  match m with
  | [] => none
  | (a, v) :: r => if a = k then some v else mapGet r k

/-- The map with a value under a key, keys kept rising. -/
def mapSet {α : Type} (m : SMap α) (k : Nat) (v : α) : SMap α :=
  match m with
  | [] => [(k, v)]
  | (a, w) :: r => if k < a then (k, v) :: (a, w) :: r else if a = k then (k, v) :: r else (a, w) :: mapSet r k v

/-- The map without a key. -/
def mapDel {α : Type} (m : SMap α) (k : Nat) : SMap α :=
  match m with
  | [] => []
  | (a, w) :: r => if a = k then r else (a, w) :: mapDel r k

/-- A count under a key; an unlisted one is 0. -/
def mapCnt (m : SMap Nat) (k : Nat) : Nat := (mapGet m k).getD 0

/-- The map with a count under a key; a count of 0 is not listed. -/
def mapPut (m : SMap Nat) (k n : Nat) : SMap Nat := if n = 0 then mapDel m k else mapSet m k n

/-- Apply f to the value under a key, if there is one. -/
def mapMod {α : Type} (m : SMap α) (k : Nat) (f : α → α) : SMap α :=
  match m with
  | [] => []
  | (a, w) :: r => if a = k then (a, f w) :: r else (a, w) :: mapMod r k f

/-- The list with f applied at an index. -/
def updAt {α : Type} (l : List α) (i : Nat) (f : α → α) : List α :=
  match l, i with
  | [], _ => []
  | x :: r, 0 => f x :: r
  | x :: r, n + 1 => x :: updAt r n f

/-- The natural numbers from a, n of them. -/
def upto (a n : Nat) : List Nat :=
  match n with
  | 0 => []
  | k + 1 => a :: upto (a + 1) k

/-- Insert into a rising list without repeats. -/
def setIns (l : List Nat) (n : Nat) : List Nat :=
  match l with
  | [] => [n]
  | a :: r => if n < a then n :: a :: r else if n = a then a :: r else a :: setIns r n

/-- Remove a number from a list. -/
def setDel (l : List Nat) (n : Nat) : List Nat := l.filter (· != n)

/-- Put an element into a list kept in order of a key, behind equal keys. -/
def insBy {α : Type} (key : α → Nat) (x : α) (l : List α) : List α :=
  match l with
  | [] => [x]
  | y :: r => if key x < key y then x :: y :: r else y :: insBy key x r

/-- A list in order of a key, equal keys kept in order. -/
def sortBy {α : Type} (key : α → Nat) (l : List α) : List α := l.foldl (fun acc x => insBy key x acc) []

/-- A mask with one bit per listed number. -/
def maskOf (l : List Nat) : Nat := l.foldl (fun m n => m ||| 2 ^ n) 0

/-- The listed sum. -/
def sumNat (l : List Nat) : Nat := l.foldl (· + ·) 0

/-! ### Registers -/

/-- A register word (R4). -/
def State.reg (s : State) (key : Nat) : Word := (mapGet s.regs key).getD (regReset key)

/-- Set a register word; a word at its reset value is not listed. -/
def State.setReg (s : State) (key : Nat) (w : Word) : State :=
  { s with regs := if w = regReset key then mapDel s.regs key else mapSet s.regs key w }

/-- Add to a count register, which wraps. -/
def State.bump (s : State) (key : Nat) (n : Nat) : State := s.setReg key (s.reg key + Word.ofNat n)

/-- Bits of a register. -/
def State.rbits (s : State) (key hi lo : Nat) : Nat := (s.reg key).bits hi lo

/-- A 64-bit register value (R5). -/
def State.reg64 (s : State) (lo : Nat) : Nat := Word.pair (s.reg lo) (s.reg (lo + 4))

/-- Key of a selected register. -/
def selKey (off idx : Nat) : Nat := off + 0x1000000 * idx

/-- A STW register of column k. -/
def stwReg (k off : Nat) : Nat := off + 0x10000 * k

/-- A GAL register of gallery n. -/
def galReg (n off : Nat) : Nat := off + 0x10000 * n

/-! ### Outputs, free values, time -/

/-- Append an output. -/
def State.emit (s : State) (o : Out) : State := { s with outs := s.outs ++ [o] }

/-- Use up one draw of a free value. -/
def State.draw (s : State) : State := { s with freeSeq := s.freeSeq + 1 }

/-- The profile in force (R24). -/
def State.prof (s : State) : Profile := .ofCode s.active

/-- Flight length in force, in ns. -/
def State.lenNs (s : State) : Nat := s.hall.len * 10

/-- Phase within the flight (FLT_PHASE), in ns. -/
def State.phaseNs (s : State) : Nat := s.now - s.hall.landingAt

/-- Whole microseconds. -/
def us (n : Nat) : Nat := n * 1000

/-- Whole milliseconds. -/
def ms (n : Nat) : Nat := n * 1000000

/-- KITE_CTL.LIFE in ns. -/
def State.lifeNs (s : State) : Nat := us (s.rbits Reg.KITE_CTL 15 0)

/-- Code of a synchronisation state (R50). -/
def SyncState.code : SyncState → Nat
  | .standalone => 0 | .root => 1 | .synced => 2 | .free => 3 | .freeLong => 4

/-- Code of a drain state (R598). -/
def DrainSt.code : DrainSt → Nat
  | .none => 0 | .requested => 1 | .draining => 2 | .drained => 3

/-- This engine's ID (R264); while VALID is 0 the stored ENGINE field stands (log 31). -/
def State.engineId (s : State) : Nat := s.rbits Reg.ZP_ID 17 0

/-- The engine refuses new work (R599). -/
def State.isDraining (s : State) : Bool := s.err.drain == .draining || s.err.drain == .drained

/-- The domain of a step of the release sequence is held in reset, the abort phase among it (R535, R541 to R544, R624). -/
def State.domHeld (s : State) (step : Nat) : Bool := s.rst.phase != .run && decide (step > s.rst.ready)

/-- The power-on source is asserted (R538): the standby rail is down, the clock has not come, or its 1,024 cycles still
run. -/
def State.porHeld (s : State) : Bool := s.rst.por && !s.rst.porUntil.any (fun t => decide (t ≤ s.now))

/-! ### Galleries -/

/-- Enabled galleries. -/
def State.enabledCount (s : State) : Nat := (s.gals.filter (·.enabled)).length

/-- Numbers of the galleries that satisfy p. -/
def galsWhere (gs : List Gal) (p : Gal → Bool) : List Nat :=
  ((upto 0 gs.length).zip gs).filterMap (fun (n, g) => if p g then some n else none)

/-- A gallery, or a default one out of range. -/
def State.gal (s : State) (n : Nat) : Gal := s.gals.getD n (Gal.reset false)

/-- Change one gallery. -/
def State.modGal (s : State) (n : Nat) (f : Gal → Gal) : State := { s with gals := updAt s.gals n f }

/-- Change one column. -/
def State.modCol (s : State) (k : Nat) (f : Col → Col) : State :=
  { s with stw := { s.stw with cols := updAt s.stw.cols k f } }

/-- A column. -/
def State.col (s : State) (k : Nat) : Col := s.stw.cols.getD k Col.reset

/-! ### Error records (R581 to R588) -/

/-- What an event says of itself; the rest of its record comes from the state (R583). -/
structure Ev where
  code : Nat
  kind : Nat := 0
  unit : Nat := 0
  table : Nat := 0xFFFF
  tenant : Nat := 0
  addr : Nat := 0
  d0 : Nat := 0
  d1 : Nat := 0
  d2 : Nat := 0
  d3 : Nat := 0
  injected : Bool := false
deriving DecidableEq, Repr

/-- ENG_PROFILE.REPLACE. -/
def State.replace (s : State) : Bool := (s.reg Reg.ENG_PROFILE).bit 31

/-- The sixteen words of a record (R583). -/
def State.recordWords (s : State) (e : Ev) (suppressed : Nat) : List Word :=
  [Word.ofNat s.err.seq,
   Word.ofNat (e.code + e.kind * 2 ^ 8 + e.unit * 2 ^ 12 + b2n (s.err.drain != .none) * 2 ^ 18
     + b2n s.replace * 2 ^ 19 + b2n e.injected * 2 ^ 20),
   Word.ofNat s.hall.landing, Word.ofNat (s.hall.landing / 2 ^ 32),
   Word.ofNat (s.engineId + b2n ((s.reg Reg.ZP_ID).bit 18) * 2 ^ 18 + s.hall.sync.code * 2 ^ 19),
   Word.ofNat (e.table + e.tenant * 2 ^ 16),
   Word.ofNat e.addr, Word.ofNat (e.addr / 2 ^ 32),
   Word.ofNat e.d0, Word.ofNat e.d1, Word.ofNat e.d2, Word.ofNat e.d3,
   Word.ofNat suppressed, Word.ofNat (min s.phaseNs 0xFFFF), 0, 0]

/-- The bytes of words (R4). -/
def wordsBytes (ws : List Word) : List Byte := ws.flatMap (fun w => leBytes 4 w.toNat)

/-- A record to the host error ring (R587). -/
def State.hostRecord (s : State) (cls : Nat) (ws : List Word) : State :=
  let cfg := s.reg Reg.ERR_HOST_CFG
  if !cfg.bit 0 then s
  else
    let size := 2 ^ cfg.bits 4 1
    let tail := s.reg Reg.ERR_HOST_TAIL
    let head := s.reg Reg.ERR_HOST_HEAD
    if s.xlt.host != .attached || decide ((tail - head).toNat ≥ size) then s.bump Reg.ERR_HOST_SKIP_CNT 1
    else
      let phase := if (tail.toNat / size) % 2 = 0 then 2 ^ 31 else 0
      let addr := s.reg64 Reg.ERR_HOST_BASE_LO + 64 * (tail.toNat % size)
      let s := s.emit (.hostWrite none addr (wordsBytes (ws.take 15 ++ [Word.ofNat phase])))
      let s := s.bump Reg.ERR_HOST_TAIL 1
      if (s.reg Reg.ERR_ALERT_EN).bit cls then s.emit (.msix (cfg.bits 26 16)) else s

/-- Write a record into the log (R585), count a record lost to the lane (R586), set the class's bit (R588), and write
the host ring (R587). -/
def State.putRecord (s : State) (e : Ev) (suppressed : Nat) : State :=
  let ws := s.recordWords e suppressed
  let cls := e.code / 16
  let lost := decide (s.err.sent + 1024 ≤ s.err.seq)
  let s := if lost then (s.bump Reg.ERR_LANE_LOST_CNT 1) else s
  let s := { s with err := { s.err with
    log := mapSet s.err.log (s.err.seq % 1024) ws
    sent := if lost then s.err.seq - 1023 else s.err.sent
    seq := s.err.seq + 1 } }
  let s := s.setReg Reg.ERR_PEND (s.reg Reg.ERR_PEND ||| Word.ofNat (2 ^ cls))
  s.hostRecord cls ws

/-- Raise an event: a record, or under R584 one more suppressed event of class 1. -/
def State.raise (s : State) (e : Ev) : State :=
  if e.code / 16 = 1 then
    match s.err.supp.find? (fun (c, k, u, _, _) => c == e.code && k == e.kind && u == e.unit) with
    | some (_, _, _, t, n) =>
      let rest := s.err.supp.filter (fun (c, k, u, _, _) => !(c == e.code && k == e.kind && u == e.unit))
      if s.now < t + ms 1 then
        let s := { s with err := { s.err with supp := rest ++ [(e.code, e.kind, e.unit, t, n + 1)] } }
        s.bump Reg.ERR_SUPPRESS_CNT 1
      else
        let s := { s with err := { s.err with supp := rest ++ [(e.code, e.kind, e.unit, s.now, 0)] } }
        s.putRecord e n
    | none =>
      let s := { s with err := { s.err with supp := s.err.supp ++ [(e.code, e.kind, e.unit, s.now, 0)] } }
      s.putRecord e 0
  else s.putRecord e 0

/-! ### Stairwell memory -/

/-- Bytes of stairwell memory (R468). -/
def memLimit : Nat := 192 * 2 ^ 30

/-- What an unlisted byte of stairwell memory reads as (log 8). -/
def memDefault : Byte := 0

/-- A byte of memory. -/
def cellGet (m : List Host.Cell) (a : Nat) : Byte := (mapGet m a).getD memDefault

/-- Store a byte, keeping the canonical form. -/
def cellPut (m : List Host.Cell) (a : Nat) (b : Byte) : List Host.Cell :=
  if b = memDefault then mapDel m a else mapSet m a b

/-- Store bytes at rising addresses. -/
def cellsPut (m : List Host.Cell) (a : Nat) (bs : List Byte) : List Host.Cell :=
  match bs with
  | [] => m
  | b :: r => cellsPut (cellPut m a b) (a + 1) r

/-- The canonical form of memory: addresses strictly rising, no byte at the default. -/
def Memory.wf : List Host.Cell → Bool
  | [] => true
  | [(_, b)] => b != memDefault
  | (a, b) :: (c, d) :: r => b != memDefault && decide (a < c) && Memory.wf ((c, d) :: r)

/-- Bytes at an offset. -/
def State.memBytes (s : State) (off n : Nat) : List Byte := (upto off n).map (cellGet s.stw.mem)

/-- Store bytes at an offset. -/
def State.memStore (s : State) (off : Nat) (bs : List Byte) : State :=
  { s with stw := { s.stw with mem := cellsPut s.stw.mem off bs } }

/-- Hall address of a local offset on this engine (R262). -/
def State.hallAddr (s : State) (off : Nat) : Nat := s.engineId * 2 ^ 38 + off

/-- The lines a byte range touches. -/
def linesOf (off n : Nat) : List Nat := if n = 0 then [] else upto (off / 64) ((off + n - 1) / 64 - off / 64 + 1)

/-! ### Tenants -/

/-- A tenant's entry in force (R140). -/
def State.tenant (s : State) (t : Nat) : TenEntry := (mapGet s.conc.tenEff t).getD ⟨0x01000000, 0, 0, 0⟩

/-- HALL_ID. -/
def TenEntry.hallId (e : TenEntry) : Nat := e.w0.bits 19 0
/-- VALID. -/
def TenEntry.valid (e : TenEntry) : Bool := e.w0.bit 20
/-- PASID_VALID. -/
def TenEntry.pasidValid (e : TenEntry) : Bool := e.w0.bit 21
/-- SUSPENDED. -/
def TenEntry.suspended (e : TenEntry) : Bool := e.w0.bit 22
/-- SHARE. -/
def TenEntry.share (e : TenEntry) : Nat := e.w0.bits 31 24
/-- PASID. -/
def TenEntry.pasid (e : TenEntry) : Nat := e.w1.bits 19 0
/-- PART. -/
def TenEntry.part (e : TenEntry) : Nat := e.w1.bits 25 20
/-- RC_WAYS. -/
def TenEntry.rcWays (e : TenEntry) : Nat := e.w1.bits 29 26
/-- CLASS_MIN. -/
def TenEntry.classMin (e : TenEntry) : Nat := e.w1.bits 31 30
/-- CTX_QUOTA. -/
def TenEntry.ctxQuota (e : TenEntry) : Nat := e.w2.bits 20 0
/-- RC_CLASS. -/
def TenEntry.rcClass (e : TenEntry) : Nat := e.w2.bits 23 21
/-- RING_QUOTA. -/
def TenEntry.ringQuota (e : TenEntry) : Nat := e.w3.bits 13 0
/-- MSIX_BASE. -/
def TenEntry.msixBase (e : TenEntry) : Nat := e.w3.bits 26 16
/-- MSIX_LOG. -/
def TenEntry.msixLog (e : TenEntry) : Nat := e.w3.bits 30 27

/-- The PASID a tenant's host addresses are under; none for tenant 0 by bus address (R143). -/
def State.pasidOf (s : State) (t : Nat) : Option Nat :=
  let e := s.tenant t
  if e.pasidValid then some e.pasid else none

/-- The tenant can reach host memory (R143). -/
def State.hostReach (s : State) (t : Nat) : Bool := t == 0 || (s.tenant t).pasidValid

/-! ### Status codes (R130) -/

namespace St

/-- ST_OK. -/
abbrev ok : Nat := 0x0000
/-- ST_OK_WIDENED. -/
abbrev okWidened : Nat := 0x0001
/-- ST_OK_LATE. -/
abbrev okLate : Nat := 0x0002
/-- ST_OK_WIDENED_LATE. -/
abbrev okWidenedLate : Nat := 0x0003
/-- ST_BUSY_RETRY. -/
abbrev busyRetry : Nat := 0x0100
/-- ST_RING_FULL. -/
abbrev ringFull : Nat := 0x0101
/-- ST_RING_HALTED. -/
abbrev ringHalted : Nat := 0x0102
/-- ST_DENIED. -/
abbrev denied : Nat := 0x0200
/-- ST_PRESENCE_REQUIRED. -/
abbrev presence : Nat := 0x0201
/-- ST_WEAR_LIMIT. -/
abbrev wearLimit : Nat := 0x0202
/-- ST_XLATE_FAULT. -/
abbrev xlateFault : Nat := 0x0300
/-- ST_XLATE_PERM. -/
abbrev xlatePerm : Nat := 0x0301
/-- ST_MEM_UNCORRECTED. -/
abbrev memUnc : Nat := 0x0400
/-- ST_CRC_MISMATCH. -/
abbrev crcMismatch : Nat := 0x0401
/-- ST_KITE_TIMEOUT. -/
abbrev kiteTimeout : Nat := 0x0500
/-- ST_UNSYNCED. -/
abbrev unsynced : Nat := 0x0501
/-- ST_UNREACHABLE. -/
abbrev unreachable : Nat := 0x0502
/-- ST_FENCED. -/
abbrev fenced : Nat := 0x0600
/-- ST_DRAINING. -/
abbrev draining : Nat := 0x0601
/-- ST_NO_RESOURCE. -/
abbrev noResource : Nat := 0x0602
/-- ST_BAD_OPCODE. -/
abbrev badOpcode : Nat := 0x0700
/-- ST_BAD_LENGTH. -/
abbrev badLength : Nat := 0x0701
/-- ST_BAD_FIELD. -/
abbrev badField : Nat := 0x0702
/-- ST_BAD_DEADLINE. -/
abbrev badDeadline : Nat := 0x0703
/-- ST_BAD_TABLE. -/
abbrev badTable : Nat := 0x0704
/-- ST_BAD_FORMAT. -/
abbrev badFormat : Nat := 0x0705
/-- ST_BAD_STATE. -/
abbrev badState : Nat := 0x0706
/-- ST_BAD_LANDING. -/
abbrev badLanding : Nat := 0x0707
/-- ST_ABORTED_RESET. -/
abbrev abortedReset : Nat := 0x0800
/-- ST_CANCELLED. -/
abbrev cancelled : Nat := 0x0801
/-- ST_FW_RESTART. -/
abbrev fwRestart : Nat := 0x0802

end St

/-! ### Outcomes -/

/-- A command that goes on to a next state: it takes no time on the engine's count and leaves the queue of waiting
commands alone (log 1). -/
def ran (s t : State) : Host.Outcome State Fault Refusal := .next { t with pending := s.pending, now := s.now }

/-- The engine's time has come to an instant: it moves forward to it, if it is not there yet (log 1). -/
def State.due (s : State) (t : Nat) : State := { s with now := max s.now t }

/-- A timed event that goes on to a next state: the engine's time is that of the event, never before the time it had, and
the queue of waiting commands is left alone (log 1). -/
def came (s t : State) : Host.Outcome State Fault Refusal := .next { t with pending := s.pending, now := max s.now t.now }

end Sys2Proof.Machine
end

