-- ==== Sys2Proof/Machine/Operands.lean ====
section
/-! DEFINITION. The fields of a directory entry (R159), row formats and the exact value of an element (R193 to R201),
and the address of a row (R183). -/
namespace Sys2Proof.Machine

open Sys2Proof.Config

/-! ### Directory entry fields (R159) -/

/-- A word of the entry. -/
def Table.word (t : Table) (i : Nat) : Word := t.words.getD i 0
/-- PLACE: replicated. -/
def Table.replicated (t : Table) : Bool := (t.word 0).bit 19
/-- PIN. -/
def Table.pin (t : Table) : Bool := (t.word 0).bit 20
/-- FORMAT. -/
def Table.format (t : Table) : Nat := (t.word 0).bits 27 24
/-- ESC_SLOTS. -/
def Table.esc (t : Table) : Nat := (t.word 0).bits 30 28
/-- OWNER. -/
def Table.owner (t : Table) : Nat := (t.word 1).bits 19 0
/-- Row dimension. -/
def Table.dim (t : Table) : Nat := (t.word 2).bits 10 0 + 1
/-- Row stride in bytes. -/
def Table.stride (t : Table) : Nat := (t.word 2).bits 21 11 * 4
/-- Row count. -/
def Table.rows (t : Table) : Nat := (t.word 3).toNat + (t.word 4).bits 7 0 * 2 ^ 32 + 1
/-- SCALE. -/
def Table.scale (t : Table) : Word := t.word 5
/-- ZERO_POINT. -/
def Table.zp (t : Table) : Int := signedOf 16 ((t.word 6).bits 15 0)
/-- SMAP_IDX. -/
def Table.smapIdx (t : Table) : Nat := (t.word 7).bits 27 0
/-- VBASE of a slot, in bytes. -/
def Table.vbase (t : Table) (slot : Nat) : Nat := (t.word (8 + slot)).bits 21 0 * 65536
/-- BALLOON base of a slot. -/
def Table.balloon (t : Table) (slot : Nat) : Nat := Word.pair (t.word (10 + 2 * slot)) (t.word (11 + 2 * slot))
/-- GRAD_SCALE. -/
def Table.gradScale (t : Table) : Word := t.word 14
/-- STATE_SCALE. -/
def Table.stateScale (t : Table) : Word := t.word 15
/-- Number of shards (R183). -/
def Table.shardCount (t : Table) : Nat := ceilDiv t.rows 65536
/-- A version slot. -/
def Table.slot (t : Table) (n : Nat) : VSlot := if n = 0 then t.slot0 else t.slot1
/-- Change a version slot. -/
def Table.modSlot (t : Table) (n : Nat) (f : VSlot → VSlot) : Table :=
  if n = 0 then { t with slot0 := f t.slot0 } else { t with slot1 := f t.slot1 }

/-- Code of a table state (R166). -/
def TState.code : TState → Nat
  | .free => 0 | .loading => 1 | .serving => 2 | .training => 3 | .retiring => 4

/-- Code of a slot state (R170). -/
def SState.code : SState → Nat
  | .empty => 0 | .filling => 1 | .ready => 2 | .current => 3 | .old => 4

/-- The directory entry of a table. -/
def State.table (s : State) (t : Nat) : Option Table := mapGet s.dir.tables t

/-- State of a table; FREE where there is no entry. -/
def State.tstate (s : State) (t : Nat) : TState :=
  match s.table t with
  | some e => e.st
  | none => .free

/-- Change a table's entry. -/
def State.modTable (s : State) (t : Nat) (f : Table → Table) : State :=
  { s with dir := { s.dir with tables := mapMod s.dir.tables t f } }

/-! ### Formats -/

/-- FORMAT is defined (R193). -/
def fmtDefined (f : Nat) : Bool := decide (f ≤ 8)
/-- Element bits (R193). -/
def fmtBits (f : Nat) : Nat := if f < 2 then 4 else if f < 6 then 8 else if f < 8 then 16 else 32
/-- The format has escapes. -/
def fmtEsc (f : Nat) : Bool := f == 1 || f == 3
/-- The format is an integer one. -/
def fmtInt (f : Nat) : Bool := decide (f < 4)
/-- The floating format of a code 4 to 8 (R193). -/
def fmtFloat (f : Nat) : FFmt :=
  match f with
  | 4 => fE4M3 | 5 => fE5M2 | 6 => fBF16 | 7 => fFP16 | _ => fFP32

/-- Bytes of the data part (R195). -/
def dataBytes (f dim : Nat) : Nat := ceilDiv (dim * fmtBits f) 8

/-- Bytes of a row (R195, R196). -/
def rowBytes (f dim esc : Nat) : Nat :=
  if fmtEsc f then roundUp (dataBytes f dim) 2 + 2 * esc else dataBytes f dim

/-- Row size of a table. -/
def Table.rowSize (t : Table) : Nat := rowBytes t.format t.dim t.esc

/-- Code of element i of a row (R194). -/
def elemCode (f : Nat) (row : List Byte) (i : Nat) : Nat :=
  let w := fmtBits f
  if w = 4 then ((row.getD (i / 2) 0).toNat / (if i % 2 = 0 then 1 else 16)) % 16
  else ofLe ((row.drop (i * (w / 8))).take (w / 8))

/-- The code is the escape of its format (R193). -/
def isEscCode (f code : Nat) : Bool := (f == 1 && code == 8) || (f == 3 && code == 0x80)

/-- Signed value of an integer code. -/
def intCode (f code : Nat) : Int := signedOf (fmtBits f) code

/-- A decoded element: its code, its value before scale for an unescaped one, its exact value, and whether it was an
escape and one without a slot (R198 to R200). -/
structure Elem where
  code : Nat
  raw : Val
  val : Val
  esc : Bool
  noSlot : Bool
deriving DecidableEq, Repr

/-- The product of exact values, a zero times an infinity being free (log 4). -/
def vmul (a b : Val) : Val := Val.mul (zeroTimesInf a b) a b

/-- An unescaped element's value without its scale: code minus zero point, or the decoded value (R200). -/
def rawVal (f : Nat) (zp : Int) (code : Nat) : Val :=
  if fmtInt f then .ofInt (intCode f code - zp) else (fmtFloat f).decode code

/-- Elements from position i, n of them, the next escape slot j (R198, R199). -/
def decodeElems (f : Nat) (scale : Word) (zp : Int) (escStart esc : Nat) (row : List Byte) (i j n : Nat) : List Elem :=
  match n with
  | 0 => []
  | k + 1 =>
    let c := elemCode f row i
    if isEscCode f c then
      let v := if j < esc then fBF16.decode (ofLe ((row.drop (escStart + 2 * j)).take 2)) else .zero
      ⟨c, v, v, true, !decide (j < esc)⟩ :: decodeElems f scale zp escStart esc row (i + 1) (j + 1) k
    else
      let r := rawVal f zp c
      ⟨c, r, vmul r (fp32Val scale), false, false⟩ :: decodeElems f scale zp escStart esc row (i + 1) j k

/-- The elements of a row of a table. -/
def Table.elems (t : Table) (row : List Byte) : List Elem :=
  decodeElems t.format t.scale t.zp (roundUp (dataBytes t.format t.dim) 2) t.esc row 0 0 t.dim

/-- ZERO_POINT lies in the range of its format (R201). -/
def zpOk (f : Nat) (zp : Int) : Bool :=
  match f with
  | 0 => decide (-8 ≤ zp ∧ zp ≤ 7)
  | 1 => decide (-7 ≤ zp ∧ zp ≤ 7)
  | 2 => decide (-128 ≤ zp ∧ zp ≤ 127)
  | 3 => decide (-127 ≤ zp ∧ zp ≤ 127)
  | _ => decide (zp = 0)

/-! ### Placement (R183, R186) -/

/-- HOME of a placement. -/
def plHome (p : Nat) : Nat := natBits p 17 0
/-- TIER of a placement. -/
def plTier (p : Nat) : Nat := natBits p 19 18
/-- LOCAL of a placement. -/
def plLocal (p : Nat) : Nat := natBits p 35 20
/-- A placement has a valid TIER and no RSVD bit (R186). -/
def plOk (p : Nat) : Bool := decide (plTier p < 2) && decide (p < 2 ^ 36)

/-- The stored entry of a shard. -/
def Table.shard (t : Table) (sh : Nat) : ShardEnt := (mapGet t.shards sh).getD ⟨0, 0, 0, false⟩

/-- Change a shard's stored entry. -/
def Table.setShard (t : Table) (sh : Nat) (e : ShardEnt) : Table := { t with shards := mapSet t.shards sh e }

/-- Local offset of a row of a replicated table. -/
def Table.replAddr (t : Table) (slot row : Nat) : Nat := t.vbase slot + row * t.stride

/-- Byte address of a row under a placement: a local offset for TIER STAIRWELL, a host address for BALLOON (R183). -/
def Table.rowAddr (t : Table) (slot pl row : Nat) : Nat :=
  let base := if plTier pl = 0 then t.vbase slot else t.balloon slot
  base + (plLocal pl * 65536 + row % 65536) * t.stride

/-- Base of the pinned window among local offsets (R417). -/
def pinBase : Nat := 0x3C00000000

end Sys2Proof.Machine
end

