-- ==== Sys2Proof/Machine/Flags.lean ====
section
/-! DEFINITION. The add of a combined delta (R313 to R318, R343) and the flags it gives: saturation, the NaN count and
the statistics of a table; the compensated FP32 pair of R329 and R354. -/
namespace Sys2Proof.Machine

open Sys2Proof.Config

/-- x divided by a scale; a scale that is not positive, finite and normal gives a free quotient (log 9). -/
def vdiv (x : Val) (scale : Word) : Val := if fp32PosNormal scale then x.divPos (fp32Val scale) else freeQuot x scale

/-- Add an exact term to an FP32 pair (R354): hi, lo as codes. -/
def pairAdd (hi lo : Nat) (t : Val) : Nat × Nat :=
  let sum := Val.add (fFP32.decode hi) t
  let h := fFP32.convInf sum
  let r := Val.add sum (fFP32.decode h).neg
  (h, fFP32.convInf (Val.add (fFP32.decode lo) r))

/-- The exact value of a pair. -/
def pairVal (hi lo : Nat) : Val := Val.add (fFP32.decode hi) (fFP32.decode lo)

/-- What one add makes of one element: the new code (none keeps the stored one), saturation, and the NaN case. -/
structure AddRes where
  code : Option Nat
  sat : Bool
  nan : Bool
  x : Val
deriving DecidableEq, Repr

/-- Bytes of a storage kind: INT8, E4M3, E5M2, BF16, FP32, INT32. -/
def storeBytes (kind : Nat) : Nat := if kind < 3 then 1 else if kind = 3 then 2 else 4

/-- The floating format of a storage kind 1 to 4. -/
def storeFmt (kind : Nat) : FFmt :=
  match kind with
  | 1 => fE4M3 | 2 => fE5M2 | 3 => fBF16 | _ => fFP32

/-- The exact delta: the integer sum and the pair, times its scale. -/
def Delta.value (d : Delta) : Val :=
  let sum := if d.isInt then .ofInt d.isum else Val.add (.ofInt d.isum) (pairVal d.hi d.lo)
  vmul sum (fp32Val d.gscale)

/-- The result of adding a delta to a stored code (R314, R317, R318). -/
def Delta.apply (d : Delta) (code : Nat) : AddRes :=
  if d.kind = 5 then
    let c := (code + twos 32 d.isum) % 2 ^ 32
    ⟨some c, false, false, vmul (.ofInt (signedOf 32 c)) (fp32Val d.scale)⟩
  else
    let stored := if d.kind = 0 then .ofInt (signedOf 8 code - d.zp) else (storeFmt d.kind).decode code
    let x := Val.add (vmul stored (fp32Val d.scale)) d.value
    if d.kind = 0 then
      if x.isNan || x.isInf then ⟨none, false, true, x⟩
      else
        let i := (vdiv x d.scale).roundInt + d.zp
        if i > 127 then ⟨some 127, true, false, x⟩
        else if i < -128 then ⟨some 128, true, false, x⟩
        else ⟨some (twos 8 i), false, false, x⟩
    else
      let f := storeFmt d.kind
      if x.isNan then ⟨some f.nanCode, false, true, x⟩
      else if x.isInf then
        if d.kind = 1 then ⟨some f.nanCode, false, true, x⟩
        else if d.kind = 4 then ⟨some (f.convInf x), false, false, x⟩
        else ⟨some (f.signed (match x with | .inf b => b | _ => false) f.maxCode), true, false, x⟩
      else if d.kind = 4 then ⟨some (f.convInf (vdiv x d.scale)), false, false, x⟩
      else
        let c := f.convSat (vdiv x d.scale)
        ⟨some c.code, c.sat, false, x⟩

/-- The larger magnitude as an FP32 code; a NaN leaves the figure (R343). -/
def maxMag (fig : Nat) (v : Val) : Nat :=
  if v.isNan then fig
  else
    let c := fFP32.convInf v.abs
    if c > fig then c else fig

/-- Note an add in a table's statistics (R343). -/
def UpdStat.note (u : UpdStat) (maxd : Nat) (r : AddRes) : UpdStat where
  maxd := if maxd > u.maxd then maxd else u.maxd
  maxv := maxMag u.maxv r.x
  sat := min (u.sat + b2n r.sat) 0xFFFFFFFF
  nan := min (u.nan + b2n r.nan) 0xFFFFFFFF

/-- Combine a further delta into a waiting one (R329). -/
def Delta.combine (a b : Delta) : Delta :=
  let (h, l) := if b.isInt then (a.hi, a.lo) else pairAdd a.hi a.lo (pairVal b.hi b.lo)
  { a with
    isum := a.isum + b.isum
    hi := h
    lo := l
    maxd := if b.maxd > a.maxd then b.maxd else a.maxd
    count := a.count + b.count
    isInt := a.isInt && b.isInt }

end Sys2Proof.Machine
end

