-- ==== Sys2Proof/Machine/RowCache.lean ====
section
/-! DEFINITION. The row cache: placing of lines (R404), lookups, allocation (R415), write probes (R411), errors (R422 to
R425), the range maintenance engine (R430 to R433), and the pinned window (R417 to R421). -/
namespace Sys2Proof.Machine

open Sys2Proof.Config

/-! ### Placing (R404) -/

/-- Exclusive-or of the base-b digits of a number, n of them. -/
def xorDigits (b k n : Nat) : Nat :=
  match n with
  | 0 => 0
  | m + 1 => Nat.xor (k % b) (xorDigits b (k / b) m)

/-- Slice of a key. -/
def rcSlice (key : Nat) : Nat := xorDigits 16 key 14

/-- Set of a key under a salt. -/
def rcSetOf (key salt : Nat) : Nat := Nat.xor (xorDigits 8192 (key / 16) 4) salt

/-- The salt of a tenant class. -/
def State.salt (s : State) (cls : Nat) : Nat := s.rbits (Reg.RC_SALT0 + 4 * cls) 12 0

/-- The distinct salt values (R411). -/
def State.salts (s : State) : List Nat := ((upto 0 8).map s.salt).eraseDups

/-- Key of a set among all sets. -/
def rcSetKey (slice set : Nat) : Nat := slice * 8192 + set

/-- Lookups are served: EN = 1 and INIT = 0 (RC_STAT.ACTIVE). -/
def State.rcActive (s : State) : Bool := (s.reg Reg.RC_CTL).bit 0 && !s.rc.init

/-- The slice takes part: in service, not quiesced and not under self-test (R596, R546, R602). -/
def State.sliceOn (s : State) (slice : Nat) : Bool :=
  !s.rc.off.contains slice && !s.rc.quiesced.contains slice && (s.selftest.bind (·.cur)) != some (1, slice)

/-- Change the row cache. -/
def State.modRc (s : State) (f : RCache → RCache) : State := { s with rc := f s.rc }

/-! ### Lookup and replacement -/

/-- The way of a set that holds a tag. -/
def RCache.find (r : RCache) (slice set : Nat) (t : Tag) : Option Nat :=
  (upto 0 16).find? (fun w =>
    match mapGet r.lines (rcSetKey slice set * 16 + w) with
    | some l => decide (l.tag = t)
    | none => false)

/-- Tree pseudo-LRU: point every node on the way's path away from it (R415). Node 1 is the root; bit n is node n; 0
points to the lower subtree. -/
def lruTouch (bits way : Nat) : Nat :=
  let step := fun (b node dir : Nat) =>
    if dir = 1 then (if b.testBit node then b - 2 ^ node else b) else b ||| 2 ^ node
  let d3 := way / 8 % 2
  let d2 := way / 4 % 2
  let d1 := way / 2 % 2
  let d0 := way % 2
  let n1 := 2 + d3
  let n2 := 2 * n1 + d2
  let n3 := 2 * n2 + d1
  step (step (step (step bits 1 d3) n1 d2) n2 d1) n3 d0

/-- Walk the tree, taking the other subtree where the indicated one holds no eligible way (R415). -/
def lruWalk (bits : Nat) (ok : Nat → Bool) (node lo width fuel : Nat) : Nat :=
  match fuel with
  | 0 => lo
  | f + 1 =>
    let half := width / 2
    let up := bits.testBit node
    let has := fun (a : Nat) => (upto a half).any ok
    let goUp := if up then has (lo + half) else !has lo
    if goUp then lruWalk bits ok (2 * node + 1) (lo + half) half f else lruWalk bits ok (2 * node) lo half f

/-- The way to allocate, among those eligible (R415); quota q bounds the ways, 0 for none. -/
def State.rcVictim (s : State) (slice set q : Nat) : Nat :=
  let pinned := s.rbits Reg.RC_PIN 3 0
  let ok := fun w => decide (w < 16 - pinned) && (q == 0 || decide (w < q))
  let key := rcSetKey slice set
  match (upto 0 16).find? (fun w => ok w && (mapGet s.rc.lines (key * 16 + w)).isNone) with
  | some w => w
  | none => lruWalk (mapCnt s.rc.lru key) ok 1 0 16 4

/-- Note a use of a way. -/
def State.rcTouch (s : State) (slice set way : Nat) : State :=
  let key := rcSetKey slice set
  s.modRc (fun r => { r with lru := mapPut r.lru key (lruTouch (mapCnt r.lru key) way) })

/-- Look a line up, noting a hit's use: its bytes if it hits. A set under an uncorrectable or parity error is handled by
the callers that are told of one. -/
def State.rcLookup (s : State) (cls : Nat) (t : Tag) : State × Option (List Byte) :=
  let slice := rcSlice t.key
  let set := rcSetOf t.key (s.salt cls)
  match s.rc.find slice set t with
  | some w => (s.rcTouch slice set w, (mapGet s.rc.lines (rcSetKey slice set * 16 + w)).map (·.data))
  | none => (s, none)

/-- The line is present, with no effect of the look. -/
def State.rcHas (s : State) (cls : Nat) (t : Tag) : Bool :=
  s.rcActive && s.sliceOn (rcSlice t.key) && (s.rc.find (rcSlice t.key) (rcSetOf t.key (s.salt cls)) t).isSome

/-- Allocate a line (R407, R415). -/
def State.rcAlloc (s : State) (cls q : Nat) (t : Tag) (data : List Byte) : State :=
  let slice := rcSlice t.key
  let set := rcSetOf t.key (s.salt cls)
  if !s.rcActive || !s.sliceOn slice then s.bump Reg.RC_NOALLOC_CNT 1
  else
    let way := match s.rc.find slice set t with
      | some w => w
      | none => s.rcVictim slice set q
    let s := s.modRc (fun r => { r with lines := mapSet r.lines (rcSetKey slice set * 16 + way) ⟨t, data⟩ })
    s.rcTouch slice set way

/-! ### Write probes (R411 to R414) -/

/-- Overlay bytes at a place of a line. -/
def overlay (old : List Byte) (off : Nat) (new : List Byte) : List Byte :=
  old.take off ++ new ++ old.drop (off + new.length)

/-- Probe one line under one salt with bytes written at an offset in it. -/
def State.rcProbe1 (s : State) (key salt off : Nat) (bs : List Byte) : State :=
  let slice := rcSlice key
  let set := rcSetOf key salt
  if !s.sliceOn slice then s
  else
    (upto 0 16).foldl (fun (s : State) w =>
      let k := rcSetKey slice set * 16 + w
      match mapGet s.rc.lines k with
      | some l =>
        if l.tag.kind = 0 ∧ l.tag.key = key then
          (s.modRc (fun r => { r with lines := mapSet r.lines k ⟨l.tag, overlay l.data off bs⟩ })).bump Reg.RC_WRUPD_CNT 1
        else s
      | none => s) s

/-- Withhold allocation from misses on a line (R410). -/
def State.rcWithhold (s : State) (p : Tag → Bool) : State :=
  s.modRc (fun r => { r with misses := r.misses.map (fun m => if p m.tag then { m with noAlloc := true } else m) })

/-- A write of part of one line probes the cache (R411); while EN = 0 it probes nothing (R414). -/
def State.rcWriteLine (s : State) (line off : Nat) (bs : List Byte) : State :=
  let key := s.hallAddr (line * 64) / 64
  let s := s.rcWithhold (fun t => t.kind == 0 && t.key == key)
  if !(s.reg Reg.RC_CTL).bit 0 then s
  else s.salts.foldl (fun (s : State) salt => s.rcProbe1 key salt off bs) s

/-! ### The range maintenance engine (R430 to R433) -/

/-- The lines an operation invalidates (R430). -/
def MntOp.hits (op : MntOp) (k : Nat) (t : Tag) : Bool :=
  match op with
  | .nop => false
  | .range lo hi => t.kind == 0 && decide (lo ≤ t.key * 64) && decide (t.key * 64 < hi)
  | .table tb s0 s1 => t.table == tb && ((t.slot == 0 && s0) || (t.slot == 1 && s1))
  | .all => true
  | .pin old new => decide (k % 16 ≥ 16 - new) && decide (k % 16 < 16 - old)
  | .init _ => true

/-- Start an operation: it invalidates every matching line present, and withholds the allocation of matching misses
(R410, R431). -/
def State.mntStart (s : State) (m : Mnt) : State :=
  let s := s.modRc (fun r => { r with
    lines := r.lines.filter (fun (k, l) => !m.op.hits k l.tag)
    running := some m })
  s.rcWithhold (fun t => m.op.hits 0 t && (match m.op with | .pin _ _ => false | _ => true))

/-- Put a request in the queue; it starts at once when none runs. Engine requests beyond the sixteen places wait
(R432); those of R433 go to the head. -/
def State.mntQueue (s : State) (op : MntOp) (engine head : Bool) : State × Nat :=
  let id := s.rc.nextMnt
  let m : Mnt := ⟨id, op, engine⟩
  let s := s.modRc (fun r => { r with nextMnt := id + 1 })
  if s.rc.running.isNone then (s.mntStart m, id)
  else if head then (s.modRc (fun r => { r with queue := m :: r.queue }), id)
  else if s.rc.queue.length < 16 && s.rc.overflow.isEmpty then (s.modRc (fun r => { r with queue := r.queue ++ [m] }), id)
  else (s.modRc (fun r => { r with overflow := r.overflow ++ [m] }), id)

/-- A software request: discarded with DROP while sixteen wait (R432). -/
def State.mntSoft (s : State) (op : MntOp) : State :=
  if s.rc.queue.length ≥ 16 then s.setReg Reg.RC_MNT_STAT (s.reg Reg.RC_MNT_STAT ||| 0x40)
  else (s.mntQueue op false false).1

/-! ### Errors -/

/-- Count an uncorrectable or parity event against the slice's limit; at the limit the slice leaves service (R596). -/
def State.sliceError (s : State) (slice : Nat) : State :=
  let n := mapCnt s.rc.ueHour slice + 1
  let s := s.modRc (fun r => { r with ueHour := mapPut r.ueHour slice n })
  if n ≥ s.rbits Reg.ERR_CFG 23 16 && !s.rc.off.contains slice then
    (s.modRc (fun r => { r with off := setIns r.off slice })).raise { code := 0x33, kind := 2, unit := slice, d0 := 1 }
  else s

/-- An uncorrectable error in an unpinned line: the line is invalidated and the access is a miss (R423). -/
def State.rcUe (s : State) (cls : Nat) (t : Tag) : State :=
  let slice := rcSlice t.key
  let set := rcSetOf t.key (s.salt cls)
  let s := match s.rc.find slice set t with
    | some w => s.modRc (fun r => { r with lines := mapDel r.lines (rcSetKey slice set * 16 + w) })
    | none => s
  let s := (s.bump Reg.RC_UE_CNT 1).raise { code := 0x11, kind := 2, unit := slice, addr := t.key * 64 }
  s.sliceError slice

/-- A tag parity error: every unpinned way of the set is invalidated (R425). -/
def State.rcTagParity (s : State) (cls : Nat) (t : Tag) : State :=
  let slice := rcSlice t.key
  let set := rcSetOf t.key (s.salt cls)
  let s := s.modRc (fun r => { r with lines := r.lines.filter (fun (k, _) => k / 16 != rcSetKey slice set) })
  let s := (s.bump Reg.RC_TAGPAR_CNT 1).raise { code := 0x12, kind := 2, unit := slice, d0 := set }
  s.sliceError slice

/-! ### The pinned window (R417 to R421) -/

/-- Bytes of the window in force. -/
def State.pinBytes (s : State) : Nat := s.rc.pinCap * 8 * 2 ^ 20

/-- A byte of the window; one that nothing has written is free (log 5). -/
def State.pinGet (s : State) (o : Nat) : Byte := (mapGet s.rc.pinned o).getD (freePinned s.rc.pinGen o)

/-- Read the window; at or beyond the capacity a byte reads 0 and the access counts (R419). -/
def State.pinRead (s : State) (o n : Nat) : State × List Byte :=
  let s' := if o + n > s.pinBytes then s.bump Reg.RC_PINERR_CNT 1 else s
  (s', (upto o n).map (fun a => if a < s.pinBytes then s.pinGet a else 0))

/-- Write the window; bytes at or beyond the capacity are discarded and the access counts (R419). A write that covers a
whole word clears its error (R424). -/
def State.pinWrite (s : State) (o : Nat) (bs : List Byte) : State :=
  let s := if o + bs.length > s.pinBytes then s.bump Reg.RC_PINERR_CNT 1 else s
  let cap := s.pinBytes
  let cells := ((upto o bs.length).zip bs).filter (fun (a, _) => decide (a < cap))
  s.modRc (fun r => { r with
    pinned := cells.foldl (fun m (a, b) => mapSet m a b) r.pinned
    pinErr := r.pinErr.filter (fun w => !(decide (o ≤ 8 * w) && decide (8 * w + 8 ≤ o + bs.length))) })

/-- An uncorrectable error of the pinned words a range covers: the offset of the first (R424). -/
def State.pinBad (s : State) (o n : Nat) : Option Nat :=
  (s.rc.pinErr.find? (fun w => decide (o < 8 * w + 8) && decide (8 * w < o + n))).map (fun w => 8 * w)

/-- Count and report an uncorrectable pinned word (R424). -/
def State.pinUe (s : State) (o : Nat) : State :=
  let a := (o / 64) * 64
  let s := s.modRc (fun r => { r with pinErr := setIns r.pinErr (o / 8) })
  (s.bump Reg.RC_UE_CNT 1).raise { code := 0x21, kind := 2, unit := a / 64 % 16, addr := s.hallAddr (pinBase + a) }

end Sys2Proof.Machine
end

