-- ==== Sys2Proof/Machine/Memory.lean ====
section
/-! DEFINITION. Access to engine memory: DRAM placing (R437), partition tokens (R440, R441), error correction and poison
(R447 to R449), repair (R451 to R456), retirement (R455, R597), the adders (R463), forced flushes (R464), and reads and
writes of local offsets and the pinned window. -/
namespace Sys2Proof.Machine

open Sys2Proof.Config

/-! ### DRAM places (R437) -/

/-- A line's place. -/
structure Dram where
  row : Nat
  channel : Nat
  column : Nat
  bank : Nat
  line : Nat
deriving DecidableEq, Repr

/-- The place of a local offset. -/
def dramOf (off : Nat) : Dram :=
  let p := off / 2048
  let q := p % 2 ^ 25
  let row := p / 2 ^ 25 * 4096 + q / 8192
  { row := row
    channel := q % 32
    column := Nat.xor (q / 32 % 4) (row % 4)
    bank := Nat.xor (q / 128 % 64) (row % 64)
    line := off / 64 % 32 }

/-- A DRAM row of a column, packed: channel, bank, row. -/
def Dram.packed (d : Dram) : Nat := d.channel + 32 * d.bank + 2048 * d.row

/-- The local offset of the page that a packed row of a column holds (R437, inverted). -/
def pageOf (column packed : Nat) : Nat :=
  let channel := packed % 32
  let bank := packed / 32 % 64
  let row := packed / 2048
  let q := row % 4096 * 8192 + (Nat.xor bank (row % 64)) * 128 + (Nat.xor column (row % 4)) * 32 + channel
  (row / 4096 * 2 ^ 25 + q) * 2048

/-- A repair entry of KIND ROW made at run time (R457). -/
def repairRow (column packed : Nat) : Word :=
  Word.ofNat (column + packed % 32 * 2 ^ 2 + packed / 32 % 64 * 2 ^ 7 + packed / 2048 * 2 ^ 13 + 2 ^ 29 + 2 ^ 31)

/-- The column of a local offset. -/
def columnOf (off : Nat) : Nat := (dramOf off).column

/-- Columns of the lines a range touches, one per line. -/
def columnsOf (off n : Nat) : List Nat := (linesOf off n).map (fun l => columnOf (l * 64))

/-- A column makes no access: HALT (R445) or quiesced (R546). -/
def State.colBlocked (s : State) (k : Nat) : Bool := (s.col k).temp == .halt || (s.col k).quiesced

/-- Some column that a range touches makes no access. -/
def State.rangeBlocked (s : State) (off n : Nat) : Bool := (columnsOf off n).any s.colBlocked

/-- Count the activates of a range: one per DRAM row it touches (R438; log 10). -/
def State.countActs (s : State) (off n : Nat) : State :=
  if n = 0 then s
  else (upto (off / 2048) ((off + n - 1) / 2048 - off / 2048 + 1)).foldl
    (fun s p => s.bump (stwReg (columnOf (p * 2048)) Reg.STW_ACT_CNT) 1) s

/-- DRAM rows a range touches. -/
def pagesOf (off n : Nat) : List Nat :=
  if n = 0 then [] else upto (off / 2048) ((off + n - 1) / 2048 - off / 2048 + 1)

/-! ### Partition tokens (R440, R441) -/

/-- The bucket has the tokens asked for, or does not regulate. -/
def State.hasTokens (s : State) (k part n : Nat) : Bool :=
  !(s.reg (selKey (stwReg k Reg.STW_REG_CFG) part)).bit 31 || decide (mapCnt (s.col k).tokens part ≥ n)

/-- Draw tokens from a bucket that regulates. -/
def State.drawTokens (s : State) (k part n : Nat) : State :=
  if (s.reg (selKey (stwReg k Reg.STW_REG_CFG) part)).bit 31 then
    s.modCol k (fun c => { c with tokens := mapPut c.tokens part (mapCnt c.tokens part - n) })
  else s

/-- An access of a range under a partition: true and its tokens drawn, or false and one more access that waits. -/
def State.takeTokens (s : State) (off n part : Nat) : State × Bool :=
  let ks := columnsOf off n
  match ks.eraseDups.find? (fun k => !s.hasTokens k part (ks.filter (· == k)).length) with
  | some k =>
    ((s.modCol k (fun c => { c with waiting := mapPut c.waiting part (mapCnt c.waiting part + 1) })).bump
      (selKey (stwReg k Reg.STW_REG_WAIT_CNT) part) 1, false)
  | none => (ks.foldl (fun (s : State) k => s.drawTokens k part 1) s, true)

/-- Draw one token for each line of a stairwell range, without waiting. -/
def State.drawRange (s : State) (off n part : Nat) : State :=
  if off < memLimit then (columnsOf off n).foldl (fun (s : State) k => s.drawTokens k part 1) s else s

/-! ### Drain requests and forced drains (R598) -/

/-- Request a drain. -/
def State.requestDrain (s : State) (cause : Nat) : State :=
  if s.err.drain == .none then { s with err := { s.err with drain := .requested, drainCause := cause } } else s

/-- Enter DRAINING. -/
def State.enterDraining (s : State) (cause : Nat) : State :=
  if s.isDraining then s
  else { s with err := { s.err with drain := .draining, drainCause := cause } }

/-- Force a drain: DRAINING, and its record. -/
def State.forceDrain (s : State) (cause : Nat) : State :=
  if s.isDraining then s else (s.enterDraining cause).raise { code := 0xB1, d0 := cause }

/-! ### Retirement and repair (R451 to R455, R597) -/

/-- ERR_CAPACITY in MiB. -/
def State.capacityMib (s : State) : Nat := 196608 - ceilDiv s.err.retire.length 512

/-- After a retirement: a drain is requested when the capacity falls below the commitment, or the list is full. -/
def State.capacityCheck (s : State) : State :=
  let commit := s.rbits Reg.ERR_COMMIT 17 0
  let full := decide (s.err.retire.length ≥ 65536)
  if full || (commit != 0 && decide (s.capacityMib < commit)) then
    let s := s.requestDrain 6
    s.raise { code := 0x44, d0 := s.capacityMib, d1 := commit, d2 := b2n full }
  else s

/-- Retire the page of a packed row; why: 1 spare rows exhausted, 2 table full (R455). A page retired before stays as it
is. -/
def State.retirePage (s : State) (k packed why : Nat) : State :=
  let page := pageOf k packed
  if s.err.retire.contains page then s
  else
    let s := s.modCol k (fun c => { c with
      retired := c.retired + 1
      spareExh := c.spareExh || why == 1
      tableFull := c.tableFull || why == 2 })
    let s := { s with err := { s.err with
      retire := if s.err.retire.length < 65536 then s.err.retire ++ [page] else s.err.retire
      retireFull := s.err.retireFull || decide (s.err.retire.length ≥ 65536) } }
    let s := s.raise { code := 0x41, kind := 3, unit := k, addr := page, d0 := why }
    s.capacityCheck

/-- Take a spare row and a table entry for a packed row, or retire its page. True when taken. -/
def State.takeSpare (s : State) (k packed : Nat) : State × Bool :=
  let c := s.col k
  let bank := packed % 2048
  if mapCnt c.spareUsed bank ≥ 32 then (s.retirePage k packed 1, false)
  else if c.remap.length + c.remapBusy.length ≥ 4096 then (s.retirePage k packed 2, false)
  else (s.modCol k (fun c => { c with spareUsed := mapPut c.spareUsed bank (mapCnt c.spareUsed bank + 1) }), true)

/-! ### The adders (R463) -/

/-- Change the kite terminal's state. -/
def State.modKite (s : State) (f : Kites → Kites) : State := { s with kite := f s.kite }

/-- Change a served kite. -/
def State.modServed (s : State) (id : Nat) (f : Served → Served) : State :=
  s.modKite (fun k => { k with served := k.served.map (fun v => if v.id = id then f v else v) })

/-- Store bytes of one line with the cache probe and no other check. -/
def State.lineStore (s : State) (off : Nat) (bs : List Byte) : State :=
  (s.rcWriteLine (off / 64) (off % 64) bs).memStore off bs

/-- Note where a line's error was (STW_ERR_ADDR). -/
def State.noteErrAddr (s : State) (line : Nat) (ue : Bool) : State :=
  let k := columnOf (line * 64)
  let off := line * 64
  (s.setReg (stwReg k Reg.STW_ERR_ADDR_LO) (Word.ofNat off)).setReg (stwReg k Reg.STW_ERR_ADDR_HI)
    (Word.ofNat (off / 2 ^ 32 + b2n ue * 2 ^ 31))

/-- The table of deltas that go to a partial buffer (R344), whose adds enter no table's statistics. -/
abbrev partialTable : Nat := 65536

/-- One element of a read-modify-write: the state, saturated, NaN. -/
def State.addElem (s : State) (table : Nat) (d : Delta) : State × Bool × Bool :=
  let n := storeBytes d.kind
  let r := d.apply (ofLe (s.memBytes d.off n))
  let s := match r.code with
    | some c => s.lineStore d.off (leBytes n c)
    | none => s
  let u := (mapGet s.kite.upd table).getD ⟨0, 0, 0, 0⟩
  let s := if table = partialTable then s else s.modKite (fun k => { k with upd := mapSet k.upd table (u.note d.maxd r) })
  (s, r.sat, r.nan)

/-- One read-modify-write of a waiting line whose read finds no uncorrectable error: its deltas are applied, and the
kites with an add in it have one line less to wait for. -/
def State.addLine (s : State) (c : CombLine) : State :=
  let s := s.modKite (fun k => { k with comb := k.comb.filter (fun x => x.line != c.line) })
  let k := columnOf (c.line * 64)
  let s := (s.bump (stwReg k Reg.STW_ADD_CNT) 1).bump (stwReg k Reg.STW_ACT_CNT) 1
  let s := ((s.drawTokens k (s.rbits (stwReg k Reg.STW_CTL) 8 3) 2))
  let (s, sat, nan) := c.deltas.foldl (fun (s, a, b) d =>
    let (s, x, y) := s.addElem c.table d
    (s, a || x, b || y)) (s, false, false)
  c.kites.foldl (fun (s : State) id => s.modServed id (fun v =>
    { v with pendLines := v.pendLines - 1, sat := v.sat || sat, nan := v.nan || nan })) s

/-- A waiting line whose read is uncorrectable: it stays unchanged and the failure is reported to its kites (R331). -/
def State.failLine (s : State) (c : CombLine) : State :=
  let s := s.modKite (fun k => { k with comb := k.comb.filter (fun x => x.line != c.line) })
  let s := s.bump (stwReg (columnOf (c.line * 64)) Reg.STW_ADD_CNT) 1
  c.kites.foldl (fun (s : State) id => s.modServed id (fun v =>
    { v with pendLines := v.pendLines - 1, failed := some (v.failed.getD c.line) })) s

/-- The waiting line of the combining buffer, if any. -/
def State.combOf (s : State) (line : Nat) : Option CombLine := s.kite.comb.find? (fun c => c.line == line)

/-- An access reaches a line whose deltas wait: they are applied first (R464). -/
def State.flushLine (s : State) (line : Nat) : State :=
  match s.combOf line with
  | none => s
  | some c =>
    let s := s.bump (stwReg (columnOf (line * 64)) Reg.STW_ADD_FLUSH_CNT) c.deltas.length
    if s.stw.poison.contains line then s.failLine c else s.addLine c

/-- Apply every delta that waits for the lines of a page (R465). -/
def State.flushPage (s : State) (page : Nat) : State :=
  (upto (page / 64) 32).foldl (fun (s : State) l => s.flushLine l) s

/-! ### Candidates for repair (R451, R452) -/

/-- A row becomes a candidate. -/
def State.candidate (s : State) (k packed : Nat) : State :=
  let c := s.col k
  match s.rbits (stwReg k Reg.STW_CTL) 2 1 with
  | 0 => s.raise { code := 0x42, kind := 3, unit := k, d0 := (repairRow k packed).toNat - 2 ^ 29 }
  | 2 =>
    if c.pendRep.contains packed || c.pendRep.length ≥ 4096 then s
    else s.modCol k (fun c => { c with pendRep := c.pendRep ++ [packed] })
  | _ =>
    if c.remapBusy.contains packed then s
    else
      let s := s.flushPage (pageOf k packed)
      let (s, ok) := s.takeSpare k packed
      if ok then s.modCol k (fun c => { c with remapBusy := c.remapBusy ++ [packed] }) else s

/-- A correctable error in a line (R448). -/
def State.lineCe (s : State) (line : Nat) : State :=
  let d := dramOf (line * 64)
  let k := d.column
  let s := (s.noteErrAddr line false).bump (stwReg k Reg.STW_CE_CNT) 1
  let n := mapCnt (s.col k).rowCe d.packed + 1
  let s := s.modCol k (fun c => { c with rowCe := mapPut c.rowCe d.packed n })
  if n = s.rbits (stwReg k Reg.STW_REMAP_CFG) 3 0 then s.candidate k d.packed else s

/-- An uncorrectable error in a line: it is poisoned and reported (R449). -/
def State.lineUe (s : State) (line : Nat) : State :=
  let d := dramOf (line * 64)
  let k := d.column
  let s := { s with stw := { s.stw with poison := setIns s.stw.poison line } }
  let s := (s.noteErrAddr line true).bump (stwReg k Reg.STW_UE_CNT) 1
  let s := s.raise { code := 0x20, kind := 3, unit := k, addr := s.hallAddr (line * 64) }
  s.candidate k d.packed

/-! ### Reads and writes -/

/-- What a read of engine memory gives: the bytes, or the local offset of the first uncorrectable line. -/
structure Rd where
  data : List Byte
  bad : Option Nat
deriving DecidableEq, Repr

/-- A column that runs a march test serves no access (R461). -/
def State.inTest (s : State) (off n : Nat) : Bool := (columnsOf off n).any (fun k => (s.col k).test.isSome)

/-- An access met a march test. -/
def State.intrude (s : State) (off n : Nat) : State :=
  (columnsOf off n).eraseDups.foldl (fun (s : State) k =>
    if (s.col k).test.isSome then
      s.setReg (stwReg k Reg.STW_TEST_STAT) (s.reg (stwReg k Reg.STW_TEST_STAT) ||| 8)
    else s) s

/-- Read stairwell memory; ecc says what the read finds. -/
def State.stwRead (s : State) (off n : Nat) (ecc : Ecc) : State × Rd :=
  if s.inTest off n then (s.intrude off n, ⟨List.replicate n 0, none⟩)
  else
    let ls := linesOf off n
    let s := ls.foldl (fun (s : State) l => s.flushLine l) s
    let s := s.countActs off n
    let s := match ecc with
      | .corrected => (match ls.find? (fun l => !s.stw.poison.contains l) with
        | some l => s.lineCe l
        | none => s)
      | _ => s
    let found := fun l => s.stw.poison.contains l || (match ecc with | .uncorrectable x => x == l | _ => false)
    match ls.find? found with
    | some l => (s.lineUe l, ⟨[], some (l * 64)⟩)
    | none => (s, ⟨s.memBytes off n, none⟩)

/-- Write bytes that lie in one line: a poisoned line takes only a write of the whole of it (R449). -/
def State.stwWriteLine (s : State) (off : Nat) (bs : List Byte) : State :=
  let line := off / 64
  let s := s.flushLine line
  if s.stw.poison.contains line then
    if off % 64 = 0 ∧ bs.length = 64 then
      ({ s with stw := { s.stw with poison := setDel s.stw.poison line } }).lineStore off bs
    else s
  else s.lineStore off bs

/-- Write stairwell memory line by line; fuel bounds the lines. -/
def stwWriteGo (s : State) (off : Nat) (bs : List Byte) (fuel : Nat) : State :=
  match fuel with
  | 0 => s
  | f + 1 =>
    if bs.isEmpty then s
    else
      let k := 64 - off % 64
      stwWriteGo (s.stwWriteLine off (bs.take k)) (off + (bs.take k).length) (bs.drop k) f

/-- Write stairwell memory. -/
def State.stwWrite (s : State) (off : Nat) (bs : List Byte) : State :=
  if s.inTest off bs.length then s.intrude off bs.length
  else stwWriteGo (s.countActs off bs.length) off bs (bs.length / 64 + 2)

/-- A range lies in stairwell memory. -/
def inStw (off n : Nat) : Bool := decide (off + n ≤ memLimit)

/-- A range lies in the span of the pinned window (R417, R419). -/
def inPin (off n : Nat) : Bool := decide (pinBase ≤ off) && decide (off + n ≤ pinBase + 0x400000000)

/-- Read engine memory by local offset: the stairwells or the pinned window (R418); an offset that names no memory reads
as free bytes (R263; log 16). -/
def State.engRead (s : State) (off n : Nat) (ecc : Ecc) : State × Rd :=
  if inPin off n then
    let o := off - pinBase
    let bad := match ecc with
      | .uncorrectable l => if l * 64 < off + n && off < l * 64 + 64 then some (max o (l * 64 - pinBase)) else s.pinBad o n
      | _ => s.pinBad o n
    match bad with
    | some b => (s.pinUe b, ⟨[], some (pinBase + b / 64 * 64)⟩)
    | none =>
      let s := match ecc with
        | .corrected => s.bump Reg.RC_CE_CNT 1
        | _ => s
      let (s, d) := s.pinRead o n
      (s, ⟨d, none⟩)
  else if inStw off n then s.stwRead off n ecc
  else (s.draw, ⟨(upto 0 n).map (Config.freeByte s.freeSeq), none⟩)

/-- Write engine memory by local offset; an offset that names no memory takes nothing (R263; log 16). -/
def State.engWrite (s : State) (off : Nat) (bs : List Byte) : State :=
  if inPin off bs.length then s.pinWrite (off - pinBase) bs
  else if inStw off bs.length then s.stwWrite off bs
  else s

end Sys2Proof.Machine
end

