-- ==== Sys2Proof/Machine/Translate.lean ====
section
/-! DEFINITION. Host access: translation through the TLBs, ATS and page requests (R478 to R484), the tile rule (R489 to
R491), and the host link's states as they bear on an access (R480, R499, R502). -/
namespace Sys2Proof.Machine

/-- Requester numbers (Requesters and TLBs; log 66). -/
abbrev reqConc : Nat := 18
/-- Balloon reader. -/
abbrev reqBalloon : Nat := 19
/-- Management core. -/
abbrev reqMgmt : Nat := 20

/-- How an access stands: its write has left (or its read has returned nothing yet), it waits, or it has failed at an
address, for want of permission or not. -/
inductive AccRes where
  | committed
  | waiting
  | fault (perm : Bool) (at_ : Nat)
deriving DecidableEq, Repr

/-- Change the translation unit. -/
def State.modXlt (s : State) (f : Xlt → Xlt) : State := { s with xlt := f s.xlt }

/-- Send an MSI-X message; none is sent while the link is down (R472). -/
def State.sendMsix (s : State) (v : Nat) : State := if s.xlt.host == .detached then s else s.emit (.msix v)

/-- 4 KiB pages of a range. -/
def pages4k (addr len : Nat) : List Nat :=
  if len = 0 then [] else (upto (addr / 4096) ((addr + len - 1) / 4096 - addr / 4096 + 1)).map (· * 4096)

/-- The entry that holds a page. -/
def Xlt.tlbFind (x : Xlt) (pasid page : Nat) : Option Tlb :=
  x.tlb.find? (fun e => e.pasid == pasid && decide (e.page ≤ page) && decide (page < e.page + e.size))

/-- The entry allows the access. -/
def Tlb.allows (e : Tlb) (write : Bool) : Bool := if write then e.w else e.r

/-- Drop a requester from the oldest L1 entry beyond sixty-four. -/
def trimL1 (req : Nat) (l : List Tlb) : List Tlb :=
  if (l.filter (fun e => e.l1.contains req)).length ≤ 64 then l
  else
    match l.findIdx? (fun e => e.l1.contains req) with
    | some i => updAt l i (fun e => { e with l1 := setDel e.l1 req })
    | none => l

/-- Note a use of an entry by a requester: most recent last. -/
def State.tlbUse (s : State) (e : Tlb) (req : Nat) : State :=
  s.modXlt (fun x => { x with tlb := trimL1 req (x.tlb.filter (fun y => !(y.pasid == e.pasid && y.page == e.page))
    ++ [{ e with lastUse := s.now, l1 := setIns e.l1 req }]) })

/-- Count the misses of a page lookup (L1, L2) and note a hit's use. -/
def State.tlbLook (s : State) (pasid page req : Nat) : State :=
  match s.xlt.tlbFind pasid page with
  | some e =>
    let s := if e.l1.contains req then s else s.bump Reg.XLT_L1_MISS_CNT 1
    s.tlbUse e req
  | none => (s.bump Reg.XLT_L1_MISS_CNT 1).bump Reg.XLT_L2_MISS_CNT 1

/-- Insert an entry; the least recently used of 8,192 leaves (R478). -/
def State.tlbInsert (s : State) (e : Tlb) : State :=
  s.modXlt (fun x =>
    let l := x.tlb.filter (fun y => !(y.pasid == e.pasid && decide (e.page ≤ y.page) && decide (y.page < e.page + e.size)))
    { x with tlb := (if l.length ≥ 8192 then l.drop 1 else l) ++ [e] })

/-- The largest page size held that lies within a page of the host (R478). -/
def heldSize (size : Nat) : Nat :=
  if size ≥ 2 ^ 30 then 2 ^ 30 else if size ≥ 2 ^ 21 then 2 ^ 21 else if size ≥ 65536 then 65536 else 4096

/-- Send waiting ATS requests while fewer than 256 are outstanding, demand before prefetch (R479, R488). -/
def atsPump (s : State) (fuel : Nat) : State :=
  match fuel with
  | 0 => s
  | f + 1 =>
    let out := (s.xlt.ats.filter (·.sent)).length
    let pf := (s.xlt.ats.filter (fun a => a.sent && a.prefetch)).length
    match s.xlt.ats.find? (fun a => !a.sent && (!a.prefetch)) with
    | some a =>
      if out ≥ 256 then s
      else
        let s := s.modXlt (fun x => { x with ats := x.ats.map (fun b => if b.id = a.id then { b with sent := true } else b) })
        atsPump ((s.emit (.atsRequest a.id a.pasid a.page a.write)).bump Reg.XLT_ATS_CNT 1) f
    | none =>
      match s.xlt.ats.find? (fun a => !a.sent) with
      | some a =>
        if out ≥ 256 || pf ≥ 64 then s
        else
          let s := s.modXlt (fun x => { x with ats := x.ats.map (fun b => if b.id = a.id then { b with sent := true } else b) })
          atsPump (((s.emit (.atsRequest a.id a.pasid a.page a.write)).bump Reg.XLT_ATS_CNT 1).bump Reg.XLT_PF_CNT 1) f
      | none => s

/-- Ask for a translation, merging with a request for the same page (R479). -/
def State.atsAsk (s : State) (pasid page : Nat) (write prefetch afterPri : Bool) (req : Nat) : State :=
  if s.xlt.ats.any (fun a => a.pasid == pasid && a.page == page && (a.write || !write) && (!a.prefetch || prefetch)) then s
  else
    let a : Ats := ⟨s.xlt.nextId, pasid, page, write, prefetch, afterPri, req, false⟩
    let s := s.modXlt (fun x => { x with ats := x.ats ++ [a], nextId := x.nextId + 1 })
    atsPump s 2

/-- Send waiting page requests, in order, while MAX_OUT allows (R482). -/
def priPump (s : State) (fuel : Nat) : State :=
  match fuel with
  | 0 => s
  | f + 1 =>
    if (s.xlt.pri.filter (·.sent)).length ≥ s.rbits Reg.XLT_PRI_CFG 25 16 then s
    else
      match s.xlt.pri.find? (fun p => !p.sent) with
      | some p =>
        let s := s.modXlt (fun x => { x with pri := x.pri.map (fun q =>
          if q.id = p.id then { q with sent := true, at_ := s.now } else q) })
        priPump ((s.emit (.pageRequest p.id p.pasid p.page p.write)).bump Reg.XLT_PRI_CNT 1) f
      | none => s

/-- Ask for a page, merging with a request for the same page and access (R482). -/
def State.priAsk (s : State) (pasid page : Nat) (write : Bool) : State :=
  if s.xlt.pri.any (fun p => p.pasid == pasid && p.page == page && p.write == write) then s
  else
    let p : Pri := ⟨s.xlt.nextId, pasid, page, write, s.now, false⟩
    let s := s.modXlt (fun x => { x with pri := x.pri ++ [p], nextId := x.nextId + 1 })
    priPump s 1

/-- The ranges an access covers. -/
def HAcc.ranges (a : HAcc) : List (Nat × Nat) := (a.addr, a.len) :: a.more.map (fun (x, bs) => (x, bs.length))

/-- 4 KiB pages of an access. -/
def HAcc.pages (a : HAcc) : List Nat := a.ranges.flatMap (fun (x, n) => pages4k x n)

/-- The lowest byte of an access that lies in a page. -/
def HAcc.firstIn (a : HAcc) (page : Nat) : Nat :=
  let l := (a.ranges.filter (fun (x, n) => (pages4k x n).contains page)).map (fun (x, _) => max x page)
  l.foldl min (l.headD page)

/-- An access of a range belongs to a page. -/
def HAcc.onPage (a : HAcc) (pasid page : Nat) : Bool :=
  !a.issued && a.pasid == some pasid && a.pages.contains page

/-- A page fails for every waiting access on it that needs it so (R483, R490). -/
def State.pageFails (s : State) (pasid page : Nat) (write perm : Bool) : State :=
  s.modXlt (fun x => { x with accs := x.accs.map (fun a =>
    if a.onPage pasid page && (a.write.isSome == write || !write) && !a.fails.any (fun f => f.1 == page)
    then { a with fails := a.fails ++ [(page, perm)] } else a) })

/-- Page requests can be made (R481, R483). -/
def State.priAllowed (s : State) : Bool := s.xlt.priAvail && !s.xlt.priStop && s.xlt.host == .attached

/-- The access cannot be made at all now: no PASID (R143), the link (R499, R502), or ATS and PRI not enabled (R480). -/
def State.accBarred (s : State) (tenant : Nat) (pasid : Option Nat) : Bool :=
  s.xlt.host == .detached
    || (match pasid with
        | some _ => s.xlt.host != .attached || !s.xlt.atsAvail || !s.xlt.priAvail
        | none => tenant != 0)

/-- The lowest failed page of an access. -/
def lowestFail (l : List (Nat × Bool)) : Option (Nat × Bool) :=
  l.foldl (fun b f => match b with
    | none => some f
    | some g => if f.1 < g.1 then some f else some g) none

/-- Remove an access. -/
def State.dropAcc (s : State) (id : Nat) : State :=
  s.modXlt (fun x => { x with accs := x.accs.filter (fun a => a.id != id) })

/-- The access leaves: a write goes out whole (R489), a read is sent and waits for its data. -/
def State.accIssue (s : State) (a : HAcc) : State × AccRes :=
  match a.write with
  | some bs =>
    let s := (s.dropAcc a.id).emit (.hostWrite a.pasid a.addr bs)
    (a.more.foldl (fun (s : State) (x, b) => s.emit (.hostWrite a.pasid x b)) s, .committed)
  | none =>
    let s := s.modXlt (fun x => { x with accs := x.accs.map (fun b => if b.id = a.id then { b with issued := true } else b) })
    (s.emit (.hostRead a.id a.pasid a.addr a.len), .waiting)

/-- Try an access: it leaves when every page of it allows it; it fails when a page of it has failed and none is still
outstanding; otherwise it waits, with its requests made (R479, R482, R489, R490). -/
def State.accTry (s : State) (a : HAcc) : State × AccRes :=
  if s.accBarred a.tenant a.pasid then ((s.dropAcc a.id).bump Reg.XLT_FAULT_CNT 1, .fault false a.addr)
  else
    match a.pasid with
    | none => s.accIssue a
    | some p =>
      let w := a.write.isSome
      let ps := a.pages
      let ok := fun pg => match s.xlt.tlbFind p pg with
        | some e => e.allows w
        | none => false
      let failed := fun pg => a.fails.any (fun f => f.1 == pg)
      if ps.all ok then s.accIssue a
      else if ps.all (fun pg => ok pg || failed pg) then
        match lowestFail a.fails with
        | some (pg, perm) => ((s.dropAcc a.id).bump Reg.XLT_FAULT_CNT 1, .fault perm (a.firstIn pg))
        | none => (s, .waiting)
      else
        let s := (ps.filter (fun pg => !ok pg && !failed pg)).foldl (fun (s : State) pg =>
          if s.xlt.pri.any (fun q => q.pasid == p && q.page == pg) then s else s.atsAsk p pg w false false a.req) s
        (s, .waiting)

/-- Make a host access for a purpose; a write may cover further ranges of its tile. -/
def State.hostTile (s : State) (req tenant addr len : Nat) (write : Option (List Byte)) (more : List (Nat × List Byte))
    (purpose : HPurpose) (noPri : Bool) : State × AccRes :=
  let pasid := s.pasidOf tenant
  let a : HAcc :=
    { id := s.xlt.nextId
      req := req
      tenant := tenant
      pasid := pasid
      addr := addr
      len := len
      write := write
      more := more
      purpose := purpose
      issued := false
      prefetch := false
      noPri := noPri
      fails := [] }
  let s := s.modXlt (fun x => { x with accs := x.accs ++ [a], nextId := x.nextId + 1 })
  let s := match pasid with
    | some p => a.pages.foldl (fun (s : State) pg => s.tlbLook p pg req) s
    | none => s
  s.accTry a

/-- Make a host access of one range. -/
def State.hostAcc (s : State) (req tenant addr len : Nat) (write : Option (List Byte)) (purpose : HPurpose)
    (noPri : Bool) : State × AccRes := s.hostTile req tenant addr len write [] purpose noPri

/-- A stride detector of a stream is locked (R487). -/
def State.locked (s : State) (key : Nat) : Bool := (mapGet s.xlt.detectors key).elim false (fun d => decide (d.run ≥ 2))

/-- The pages of the next tiles of a locked stream are asked for ahead of their use (R487, R488). -/
def State.prefetchXl (s : State) (pasid req base len : Nat) (stride : Int) : State :=
  let depth := s.rbits Reg.XLT_CTL 4 1
  (upto 1 depth).foldl (fun (s : State) (k : Nat) =>
    let a : Int := base + stride * k
    if a < 0 then s
    else (pages4k a.toNat len).foldl (fun (s : State) pg =>
      if (s.xlt.tlbFind pasid pg).isSome then s else s.atsAsk pasid pg false true false req) s) s

/-- A tile of a stream starts at a host address: its detector follows, and a locked one prefetches (R487). -/
def State.detect (s : State) (key : Nat) (pasid : Option Nat) (req base len : Nat) : State :=
  let p := pasid.getD (2 ^ 20)
  let d : Detector := match mapGet s.xlt.detectors key with
    | none => ⟨base, 0, 0, p⟩
    | some d =>
      let st : Int := (base : Int) - d.last
      if d.pasid ≠ p then ⟨base, 0, 0, p⟩
      else if d.run ≥ 1 ∧ d.stride = st then ⟨base, st, min (d.run + 1) 2, p⟩
      else ⟨base, st, 1, p⟩
  let s := s.modXlt (fun x => { x with detectors := mapSet x.detectors key d })
  match pasid with
  | some q => if d.run ≥ 2 && (s.reg Reg.XLT_CTL).bit 0 then s.prefetchXl q req base len d.stride else s
  | none => s

/-- Status of a failed translation. -/
def xlStatus (perm : Bool) : Nat := if perm then St.xlatePerm else St.xlateFault

/-- Count a read of the balloon against its page (R494). -/
def State.hotCount (s : State) (pasid tenant page table : Nat) (shard : Option Nat) : State :=
  if !(s.reg Reg.XLT_HOT_CFG).bit 0 then s
  else if s.xlt.hot.any (fun h => h.pasid == pasid && h.page == page) then
    s.modXlt (fun x => { x with hot := x.hot.map (fun h =>
      if h.pasid = pasid ∧ h.page = page then { h with count := min (h.count + 1) 0xFFFFFFFF } else h) })
  else if s.xlt.hot.length ≥ 4096 then s.bump Reg.XLT_HOT_MISS_CNT 1
  else s.modXlt (fun x => { x with hot := x.hot ++ [⟨pasid, tenant, page, 1, table, shard⟩] })

/-- Remove every translation of a PASID (R486); the accesses that wait on it ask again when they are next tried. -/
def State.dropPasid (s : State) (pasid : Nat) : State :=
  s.modXlt (fun x => { x with tlb := x.tlb.filter (fun e => e.pasid != pasid) })

/-! ### The detach log (R501) -/

/-- Entries the log holds. -/
def State.logUsed (s : State) : Nat := s.xlt.logTail - s.xlt.logHead

/-- Put a record into the detach log. -/
def State.detachLog (s : State) (rec : List Word) (cq kind : Nat) : State :=
  let lg := s.rbits Reg.XLT_DETACH_SIZE 4 0
  if lg = 0 || decide (s.logUsed ≥ 2 ^ lg) then s.bump Reg.XLT_DETACH_DROP_CNT 1
  else
    let base := s.reg64 Reg.XLT_DETACH_BASE_LO + 64 * (s.xlt.logTail % 2 ^ lg)
    let ws := rec ++ [Word.ofNat (cq + kind * 2 ^ 13), Word.ofNat s.xlt.logTail, 0, 0, 0, 0, 0, 0]
    (s.stwWrite base (wordsBytes ws)).modXlt (fun x => { x with logTail := x.logTail + 1 })

end Sys2Proof.Machine
end

