-- ==== Sys2Proof/Machine/Budget.lean ====
section
/-! DEFINITION. The accounts of the open flight: charges, what fits (R78, R84, R98, R633), refunds (R85, R634), the
charges of served kites (R79), and the overrun of late work (R89, R90). -/
namespace Sys2Proof.Machine

/-- Hundredths of a column's activates that its temperature state leaves (Refresh table, R444, R445). -/
def TTemp.pct : TTemp → Nat
  | .x1 => 100 | .x2 => 97 | .x4 => 91 | .throttle => 45 | .halt => 0

/-- No charge. -/
def Charge.zero : Charge := ⟨[0, 0, 0, 0], 0, 0, 0, 0, 0⟩

/-- Sum of two charges. -/
def Charge.add (a b : Charge) : Charge where
  acts := (a.acts.zip b.acts).map (fun (x, y) => x + y)
  pool := a.pool + b.pool
  fab := a.fab + b.fab
  arr := a.arr + b.arr
  vec := a.vec + b.vec
  cpy := a.cpy + b.cpy

/-- Activates of a charge. -/
def Charge.actSum (c : Charge) : Nat := sumNat c.acts + c.pool

/-- Activates for a list of local offsets, by column. -/
def actsOf (offs : List Nat) : List Nat := (upto 0 4).map (fun k => (offs.filter (fun o => columnOf o == k)).length)

/-- Energy of a charge in pJ through the coefficients; none outside CABINET (R74). -/
def State.energyPj (s : State) (c : Charge) : Nat :=
  if s.active = 2 then
    c.actSum * (s.reg Reg.FLT_NRG_COEF_ACT).toNat + c.fab * (s.reg Reg.FLT_NRG_COEF_FAB).toNat
      + c.arr * (s.reg Reg.FLT_NRG_COEF_ARR).toNat + c.vec * (s.reg Reg.FLT_NRG_COEF_VEC).toNat
      + c.cpy * (s.reg Reg.FLT_NRG_COEF_CPY).toNat
  else 0

/-- Change the open flight. -/
def State.modFlt (s : State) (f : Flight → Flight) : State := { s with flt := f s.flt }

/-- Pointwise change of four column figures. -/
def addAt (l : List Nat) (k n : Nat) : List Nat := updAt l k (· + n)

/-- Pointwise sum. -/
def addList (a b : List Nat) : List Nat := (a.zip b).map (fun (x, y) => x + y)

/-- A hundred times the part of column k's share that is open to originated work, and what remains of it: served kites
beyond the reserve, kites of the flight before and originated work have taken the rest (R78, R79, R84). -/
def State.actLeft (s : State) (k : Nat) : Nat × Nat :=
  let pct := s.rbits Reg.FLT_RSV 7 0
  let eff := s.flt.effAct.getD k 0
  let rsv := s.flt.rsvAct.getD k 0
  let whole := eff * (100 - pct)
  (whole, whole - 100 * s.flt.lostAct.getD k 0 - (100 * rsv - eff * pct) - 100 * s.flt.usedAct.getD k 0)

/-- The same for the fabric budget. -/
def State.fabLeft (s : State) : Nat × Nat :=
  let pct := s.rbits Reg.FLT_RSV 15 8
  let eff := s.flt.eff.fab
  let whole := eff * (100 - pct)
  (whole, whole - 100 * s.flt.lost.fab - (100 * s.flt.rsvFab - eff * pct) - 100 * s.flt.used.fab)

/-- An amount fits what is left, or exceeds the whole and nothing has been charged yet (R84). -/
def fitsIn (amount whole left : Nat) (untouched : Bool) : Bool :=
  amount == 0 || decide (amount ≤ left) || (decide (amount > whole) && untouched)

/-- The first resource that refuses a charge, if one does (R84, R100, R633). -/
def State.refuses (s : State) (c : Charge) : Option Res :=
  let ks := upto 0 4
  let lefts := ks.map s.actLeft
  let sumWhole := sumNat (lefts.map (·.1))
  let sumLeft := sumNat (lefts.map (·.2)) - 100 * s.flt.usedPool
  let fresh := !s.flt.origAct
  let colsOk := ((c.acts.zip lefts).all (fun (n, w, l) => fitsIn (100 * n) w l fresh))
    && fitsIn (100 * c.pool) sumWhole sumLeft fresh
  if !colsOk then some .act
  else
    let (fw, fl) := s.fabLeft
    if !fitsIn (100 * c.fab) fw fl (s.flt.used.fab == 0) then some .fab
    else
      let plain := fun (n eff lost used : Nat) => fitsIn n eff (eff - lost - used) (used == 0)
      if !plain c.arr s.flt.eff.arr s.flt.lost.arr s.flt.used.arr then some .arr
      else if !plain c.vec s.flt.eff.vec s.flt.lost.vec s.flt.used.vec then some .vec
      else if !plain c.cpy s.flt.eff.cpy s.flt.lost.cpy s.flt.used.cpy then some .cpy
      else if s.active = 2 && !plain (s.energyPj c) (1000 * s.flt.eff.nrg) s.flt.lost.nrg s.flt.used.nrg then
        some .nrg
      else none

/-- The charge fits within the eighth of every effective budget that promoted chunks may take (R98). -/
def State.promoFits (s : State) (c : Charge) : Bool :=
  let p := s.flt.promo
  let e := s.flt.eff
  let ok := fun (n used eff : Nat) => n == 0 || decide (8 * (used + n) ≤ eff)
  ok c.actSum p.act e.act && ok c.fab p.fab e.fab && ok c.arr p.arr e.arr && ok c.vec p.vec e.vec
    && ok c.cpy p.cpy e.cpy && (s.active != 2 || ok (s.energyPj c) p.nrg (1000 * e.nrg))

/-- Add a charge to a budget account; energy in pJ. -/
def Bud.charge (b : Bud) (c : Charge) (pj : Nat) : Bud :=
  ⟨b.act + c.actSum, b.fab + c.fab, b.arr + c.arr, b.vec + c.vec, b.cpy + c.cpy, b.nrg + pj⟩

/-- Take a charge out of a budget account. -/
def Bud.uncharge (b : Bud) (c : Charge) (pj : Nat) : Bud :=
  ⟨b.act - c.actSum, b.fab - c.fab, b.arr - c.arr, b.vec - c.vec, b.cpy - c.cpy, b.nrg - pj⟩

/-- Charge an admitted chunk to the open flight. -/
def State.chargeOrig (s : State) (c : Charge) (promoted : Bool) : State :=
  let pj := s.energyPj c
  s.modFlt (fun f => { f with
    usedAct := addList f.usedAct c.acts
    usedPool := f.usedPool + c.pool
    used := f.used.charge c pj
    origAct := f.origAct || decide (c.actSum > 0)
    promo := if promoted then f.promo.charge c pj else f.promo
    nrg := { f.nrg with chargedPj := f.nrg.chargedPj + pj } })

/-- Refund part of a charge to the flight it was charged to, if that flight is still open (R85). -/
def State.refund (s : State) (flight : Nat) (promoted : Bool) (c : Charge) : State :=
  if flight ≠ s.hall.landing then s
  else
    let pj := s.energyPj c
    s.modFlt (fun f => { f with
      usedAct := (f.usedAct.zip c.acts).map (fun (x, y) => x - y)
      usedPool := f.usedPool - c.pool
      used := f.used.uncharge c pj
      promo := if promoted then f.promo.uncharge c pj else f.promo
      nrg := { f.nrg with chargedPj := f.nrg.chargedPj - pj } })

/-- Activates held against the sum of the shares stand at known columns from now on (R633): in the flight they were
charged to when it is open, in the next flight's shares when a share is overdrawn or the flight has closed. -/
def State.settle (s : State) (flight : Nat) (acts : List Nat) : State :=
  if flight = s.hall.landing then
    s.modFlt (fun f =>
      let used := addList f.usedAct acts
      let was := (f.usedAct.zip f.effAct).map (fun (u, e) => u - e)
      let now := (used.zip f.effAct).map (fun (u, e) => u - e)
      { f with usedAct := used, usedPool := f.usedPool - sumNat acts
               debtAct := addList f.debtAct ((now.zip was).map (fun (a, b) => a - b)) })
  else s

/-- Charge a served kite (R79): the reserve, then the general budget, then the next flight. -/
def State.chargeServed (s : State) (acts : List Nat) (fab : Nat) : State :=
  let c : Charge := { Charge.zero with acts := acts, fab := fab }
  let pj := s.energyPj c
  s.modFlt (fun f =>
    let room := (f.effAct.zip (f.usedAct.zip (f.rsvAct.zip f.lostAct))).map (fun (e, u, r, l) => e - u - r - l)
    let take := (acts.zip room).map (fun (a, r) => min a r)
    let owe := (acts.zip room).map (fun (a, r) => a - r)
    let fr := f.eff.fab - f.used.fab - f.rsvFab - f.lost.fab
    let nr := 1000 * f.eff.nrg - f.used.nrg - f.rsvNrg - f.lost.nrg
    { f with
      rsvAct := addList f.rsvAct take
      debtAct := addList f.debtAct owe
      rsvFab := f.rsvFab + min fab fr
      debtFab := f.debtFab + (fab - fr)
      rsvNrg := f.rsvNrg + min pj nr
      debtNrg := f.debtNrg + (pj - nr)
      nrg := { f.nrg with chargedPj := f.nrg.chargedPj + pj } })

/-- Note that a chunk was refused, and by what (R100). -/
def State.noteRefused (s : State) (r : Res) : State :=
  s.modFlt (fun f => { f with refused := match f.refused with
    | some x => some x
    | none => some r })

/-- Overrun in ns of work due at a landing that ends now; 0 while the landing has not come. -/
def State.overrun (s : State) (due : Nat) : Nat :=
  if due > s.hall.landing then 0
  else
    match mapGet s.flt.dueTimes due with
    | some t => s.now - t
    | none => if due = s.hall.landing then s.now - s.hall.landingAt else 0

/-- The last item due at a past landing has ended: its overrun enters the lag (R90). -/
def State.lagAdd (s : State) (due : Nat) : State :=
  if due > s.hall.landing || s.conc.items.any (fun i => i.due == due) then s
  else
    let n := s.overrun due
    let kept := s.conc.mq.any (fun p => p.due == due) || s.conc.ops.any (fun o => o.pkt.due == due)
    s.modFlt (fun f => { f with
      lag := min (f.lag + n) 0xFFFFFFFF
      dueTimes := if kept then f.dueTimes else mapDel f.dueTimes due })

/-- The status of a success that may be late (R89, R131). -/
def lateStatus (st late : Nat) : Nat :=
  if late = 0 then st
  else if st = St.ok then St.okLate else if st = St.okWidened then St.okWidenedLate else st

end Sys2Proof.Machine
end

