-- ==== Sys2Proof/Machine/Records.lean ====
section
/-! DEFINITION. Completion records (R124 to R131), contexts (R123, R221, R222), the order of admission (R86) and how an
item or a control packet ends. -/
namespace Sys2Proof.Machine

/-- Change the concourse. -/
def State.modConc (s : State) (f : Conc → Conc) : State := { s with conc := f s.conc }

/-- Change a completion ring. -/
def State.modCpl (s : State) (n : Nat) (f : CplRing → CplRing) : State :=
  s.modConc (fun c => { c with cpl := mapMod c.cpl n f })

/-- Change a command ring. -/
def State.modCmd (s : State) (n : Nat) (f : CmdRing → CmdRing) : State :=
  s.modConc (fun c => { c with cmd := mapMod c.cmd n f })

/-- Free slots of a completion ring, counting reserved ones as taken (R126). -/
def CplRing.free (r : CplRing) : Nat := 2 ^ r.log2 - (r.written + 2 ^ 32 - r.head) % 2 ^ 32 - r.reserved

/-- The eight words of a completion record, PHASE aside (R124). -/
def recWords (s : State) (status opcode tag ring index detail aux : Nat) : List Word :=
  [Word.ofNat (status + opcode * 65536), Word.ofNat tag, Word.ofNat ring, Word.ofNat index, Word.ofNat detail,
   Word.ofNat (detail / 2 ^ 32), Word.ofNat s.hall.landing, Word.ofNat (aux % 65536)]

/-- The record with its PHASE bit. -/
def withPhase (ws : List Word) (phase : Bool) : List Word :=
  ws.take 7 ++ [ws.getD 7 0 ||| (if phase then 0x80000000 else 0)]

/-- MSI-X vector of a completion ring: relative to its tenant's base, ring 0's as its register gives it (R137, R154). -/
def State.cplVector (s : State) (n : Nat) (r : CplRing) : Nat :=
  if n = 0 then r.vector else (s.tenant r.tenant).msixBase + r.vector

/-- Write a record into a completion ring (R124, R129). `held` says that it uses a reserved slot; `msg` that it makes a
message whatever the count; `direct` that it is REATTACH's own (R504). A record for a host-memory ring goes to the
detach log while the engine is not ATTACHED (R499, R502). A record whose own page fails is not written (log 11). -/
def State.putRec (s : State) (n : Nat) (ws : List Word) (held msg direct : Bool) : State :=
  match mapGet s.conc.cpl n with
  | none => s
  | some r =>
    let s := if held then s.modCpl n (fun r => { r with reserved := r.reserved - 1 }) else s
    if !r.engine && s.xlt.host != .attached && !direct then s.detachLog (withPhase ws false) n 0
    else
      let size := 2 ^ r.log2
      let bytes := wordsBytes (withPhase ws (r.written / size % 2 == 0))
      let addr := r.base + 32 * (r.written % size)
      let full := r.coalesce != 0 && decide (r.sinceMsg + 1 ≥ r.coalesce)
      let irq := msg || full
      let s := s.modCpl n (fun r => { r with written := (r.written + 1) % 2 ^ 32, sinceMsg := if full || r.coalesce == 0 then 0 else r.sinceMsg + 1 })
      if r.engine then
        let s := s.engWrite addr bytes
        if irq then s.sendMsix (s.cplVector n r) else s
      else
        let (s, a) := s.hostAcc reqConc r.tenant addr 32 (some bytes) (.record n none irq) false
        match a with
        | .committed => if irq then s.sendMsix (s.cplVector n r) else s
        | _ => s

/-- The record of a packet from a ring, or a COMPLETION message for one from the lane (R133); with QUIET an ST_OK writes
nothing and its slot is released (R128). -/
def State.packetRec (s : State) (src : PktSrc) (cq : Option Nat) (words : List Word) (index status detail aux : Nat)
    (direct : Bool) : State :=
  let w0 := words.getD 0 0
  let w1 := words.getD 1 0
  let tag := (words.getD 3 0).toNat
  match src with
  | .lane seq =>
    let ws := recWords s status (w0.bits 15 0) tag 0 index detail aux
    if status = St.ok && w1.bit 0 then s else s.emit (.lane 4 0 seq (withPhase ws false))
  | .ring n =>
    match cq with
    | none => s
    | some q =>
      if status = St.ok && w1.bit 0 then s.modCpl q (fun r => { r with reserved := r.reserved - 1 })
      else s.putRec q (recWords s status (w0.bits 15 0) tag n index detail aux) true (w1.bit 1) direct

/-! ### Items and contexts -/

/-- The item of a context. -/
def State.item (s : State) (seq : Nat) : Option Item := s.conc.items.find? (fun i => i.seq == seq)

/-- Change an item. -/
def State.modItem (s : State) (seq : Nat) (f : Item → Item) : State :=
  s.modConc (fun c => { c with items := c.items.map (fun i => if i.seq = seq then f i else i) })

/-- An item goes before another in the order of R86 within one tenant and class: earlier due landing, then acceptance;
classes first. -/
def Item.before (a b : Item) : Bool :=
  decide (a.cls < b.cls) || (a.cls == b.cls && (decide (a.due < b.due) || (a.due == b.due && decide (a.seq < b.seq))))

/-- The first of a list in the order of R86 (log 12 for the order across tenants). -/
def firstOf (l : List Item) : Option Item :=
  l.foldl (fun b i => match b with
    | none => some i
    | some j => if i.before j then some i else some j) none

/-- The last of a list in the order of R86. -/
def lastOf (l : List Item) : Option Item :=
  l.foldl (fun b i => match b with
    | none => some i
    | some j => if j.before i then some i else some j) none

/-- Contexts on chip. -/
def ctxOnChip : Nat := 32768

/-- Where a context lies in the spill area (The life of a context); contexts are numbered as they are accepted (log 14). -/
def ctxAddr (seq : Nat) : Nat := 0x2FF8000000 + 128 * (seq % 1048576)

/-- A spill or a restore takes two activates of the column it reaches, in the manner of R79 (R222). -/
def State.chargeSpill (s : State) (seq : Nat) : State :=
  s.chargeServed ((upto 0 4).map (fun k => if columnOf (ctxAddr seq) = k then 2 else 0)) 0

/-- Store a spilled context: 128 bytes whose layout the spec does not give (log 14). -/
def State.spillStore (s : State) (seq : Nat) : State :=
  (s.stwWrite (ctxAddr seq) ((upto 0 128).map (Config.freeByte s.freeSeq))).draw

/-- Spill a context when the chip holds too many (R221): the unadmitted item that would be admitted last. -/
def State.spillOne (s : State) : State :=
  let onChip := s.conc.items.filter (fun i => !i.spilled)
  if onChip.length ≤ ctxOnChip then s
  else
    match lastOf (onChip.filter (fun i => !i.admitted)) with
    | some i =>
      ((s.modItem i.seq (fun i => { i with spilled := true, wasSpilled := true })).spillStore i.seq).chargeSpill i.seq
    | none => s

/-- Restore a spilled context when one on chip frees (R222): admissible from the next landing. An uncorrectable error
in the spilled context ends its item when it is next taken up (R349). -/
def State.restoreOne (s : State) : State :=
  if (s.conc.items.filter (fun i => !i.spilled)).length ≥ ctxOnChip then s
  else
    match firstOf (s.conc.items.filter (fun i => i.spilled)) with
    | some i =>
      let (s, rd) := s.stwRead (ctxAddr i.seq) 128 .good
      let fail := rd.bad.map (fun l => (⟨St.memUnc, s.hallAddr l, 0⟩ : Ending))
      (s.modItem i.seq (fun i => { i with
        spilled := false, admitAt := s.hall.landing + 1, ending := fail })).chargeSpill i.seq
    | none => s

/-- The status and DETAIL that an ending is written with, lateness taken in (R89, R130, R131). -/
def lateEnding (e : Ending) (late : Nat) : Nat × Nat :=
  if late = 0 || e.status / 256 ≠ 0 then (e.status, e.detail)
  else if e.status = St.ok then (St.okLate, late)
  else if e.status = St.okWidened then (St.okWidenedLate, min late 0xFFFFFFFF + e.detail / 64 * 2 ^ 32)
  else (e.status, e.detail)

/-- The channel index of a COPY's DIR and CHAN (R508). -/
def copyChan (ws : List Word) : Nat :=
  let w4 := ws.getD 4 0
  let chan := w4.bits 5 2
  match w4.bits 1 0 with
  | 0 => chan
  | 1 => 16 + chan
  | _ => 32 + chan % 8

/-- A copy has ended: it leaves its channel's order and counts as one completion of it (R523). -/
def State.copyEnded (s : State) (seq : Nat) (ws : List Word) : State :=
  let ch := copyChan ws
  let s := { s with cpy := updAt s.cpy ch (fun (c : Chan) => { c with lat := setDel c.lat seq, bulk := setDel c.bulk seq }) }
  let irq := s.reg (selKey Reg.CPY_CH_IRQ ch)
  let n := s.rbits (selKey Reg.CPY_CH_DONE ch) 15 0 + 1
  if irq.bits 15 0 ≠ 0 ∧ n ≥ irq.bits 15 0 then (s.setReg (selKey Reg.CPY_CH_DONE ch) 0).sendMsix (irq.bits 26 16)
  else s.setReg (selKey Reg.CPY_CH_DONE ch) (Word.ofNat (n % 65536))

/-- An item ends: its record, its context freed, its overrun in the lag, a spilled context restored (R89, R90, R123,
R222). RECHECK reports no lateness (R608). -/
def State.endItem (s : State) (seq : Nat) (e : Ending) : State :=
  match s.item seq with
  | none => s
  | some i =>
    let late := if i.rck.isSome then 0 else s.overrun i.due
    let (st, dt) := lateEnding e late
    let s := if late > 0 && e.status / 256 = 0 then s.bump Reg.FLT_LATE_CNT 1 else s
    let s := s.packetRec i.src i.cq i.words i.index st dt e.aux false
    let s := if i.op = 0x30 then s.copyEnded seq i.words else s
    let s := s.modConc (fun c => { c with items := c.items.filter (fun j => j.seq != seq) })
    let s := { s with gals := s.gals.map (fun (g : Gal) => if g.working = some seq then { g with working := none } else g) }
    (s.lagAdd i.due).restoreOne

/-- A control packet ends: DEADLINE governs its lateness, which adds nothing to the lag (R135; log 13). -/
def State.endMq (s : State) (p : MqPkt) (status detail aux : Nat) : State :=
  let late := s.overrun p.due
  let (st, dt) := lateEnding ⟨status, detail, aux⟩ late
  let s := if late > 0 && status = St.ok then s.bump Reg.FLT_LATE_CNT 1 else s
  s.packetRec p.src p.cq p.words p.index st dt aux (p.words.getD 0 0 |>.bits 15 0 |> (· == 0x8071))

/-- A scheduled control packet ends: lateness is measured against its named landing (R135). -/
def State.endSched (s : State) (p : MqPkt) (named : Bool) (landing status detail : Nat) : State :=
  if named then
    let late := if landing < s.hall.landing then s.overrun landing else 0
    let (st, dt) := lateEnding ⟨status, detail, 0⟩ late
    let s := if late > 0 && status = St.ok then s.bump Reg.FLT_LATE_CNT 1 else s
    s.packetRec p.src p.cq p.words p.index st dt 0 false
  else s.endMq p status detail 0

/-! ### References (R175) -/

/-- Bindings of an item's work. -/
def Work.binds : Work → List Bind
  | .bag b => b.bind.toList
  | .interact bs ls _ _ _ _ => (bs.filterMap (·.bind)) ++ ls
  | .array b _ _ _ _ => b.toList
  | .upd b _ _ _ _ _ _ _ _ _ => b.toList
  | _ => []

/-- References to a slot of a table (R175). -/
def State.refs (s : State) (table slot : Nat) : Nat :=
  (s.conc.items.filter (fun i => i.work.binds.any (fun b => b.table == table && b.slot == slot))).length
    + (s.kite.served.filter (fun v => v.item.isNone && v.frame.table == table && v.frame.vslot == slot)).length
    + ((s.kite.migSrc ++ s.kite.migDst).filter (fun m => m.table == table && m.slots.contains slot)).length

/-- A reference reaches an OLD slot: its emptying is delayed again (R176). -/
def State.touchSlot (s : State) (table slot : Nat) : State :=
  s.modTable table (fun t => t.modSlot slot (fun v => { v with zeroAt := none }))

end Sys2Proof.Machine
end

