-- ==== Sys2Proof/Machine/Kite.lean ====
section
/-! DEFINITION. The fabric as the families use it: frame lengths (R268, R271), routes and ports (R285 to R291), answers,
tethers (R272 to R277), the resolution of a kite at a home (R293, R337), and how an item fails (R225, R284). -/
namespace Sys2Proof.Machine

open Sys2Proof.Config

/-! ### Frames -/

/-- Frame kinds (R269). -/
abbrev kGather : Nat := 0
/-- REPLY. -/
abbrev kReply : Nat := 1
/-- NACK. -/
abbrev kNack : Nat := 2
/-- UPDATE. -/
abbrev kUpdate : Nat := 3
/-- UPDATE_ACK. -/
abbrev kUpdateAck : Nat := 4
/-- MIG_DATA. -/
abbrev kMigData : Nat := 5
/-- MIG_ACK. -/
abbrev kMigAck : Nat := 6
/-- MIG_START. -/
abbrev kMigStart : Nat := 7
/-- MIG_DONE. -/
abbrev kMigDone : Nat := 8
/-- HALL_READ. -/
abbrev kHallRead : Nat := 9
/-- HALL_WRITE. -/
abbrev kHallWrite : Nat := 10
/-- HALL_ACK. -/
abbrev kHallAck : Nat := 11

end Sys2Proof.Machine

namespace Sys2Proof

open Sys2Proof.Machine

/-- Bytes of a frame: header and payload in 32-byte units (R268). -/
def Frame.bytes (f : Frame) : Nat := 32 + roundUp f.payload.length 32

/-- Fabric units of a frame (R271). -/
def Frame.units (f : Frame) : Nat := ceilDiv f.bytes 64

/-- The kind expects an answer and takes a slot (R272). MIG_DONE is answered by nothing (R298). -/
def Frame.expects (f : Frame) : Bool :=
  f.kind == kGather || f.kind == kUpdate || f.kind == kMigData || f.kind == kMigStart || f.kind == kHallRead
    || f.kind == kHallWrite

/-- The answer to a kite: its tether and class, and nothing else (R268, R272). -/
def Frame.answer (f : Frame) (kind : Nat) (arg0 arg1 : Nat) (payload : List Byte) : Frame :=
  { kind := kind, cls := f.cls, hops := 0, fwd := false, admin := false, age := 0, dst := f.origin, origin := f.origin,
    slot := f.slot, gen := f.gen, table := 0, epoch := 0, tenant := 0, vslot := 0, nrows := 0,
    arg0 := Word.ofNat arg0, arg1 := Word.ofNat arg1, payload := payload }

/-- A NACK with its DETAIL (R269, R284). -/
def Frame.nack (f : Frame) (reason detail : Nat) : Frame :=
  f.answer kNack reason 0 (leBytes 8 detail)

end Sys2Proof

namespace Sys2Proof.Machine

open Sys2Proof.Config

/-! ### Routes and ports -/

/-- The route entry of a destination (R290). -/
def State.routeOf (s : State) (dst : Nat) : Word :=
  let g := dst / 64
  let e := if g = s.engineId / 64 then 4096 + dst % 64 else g
  s.reg (selKey Reg.ZP_ROUTE e)

/-- A port. -/
def State.port (s : State) (p : Nat) : Port := s.zp.ports.getD p Port.reset

/-- Change a port. -/
def State.modPort (s : State) (p : Nat) (f : Port → Port) : State := { s with zp := ⟨updAt s.zp.ports p f⟩ }

/-- The port that a new frame for a destination takes (R286 to R288): the primary when its link is up and has settled, or
the alternate is not up; else the alternate. -/
def State.outPort (s : State) (dst : Nat) : Option Nat :=
  let r := s.routeOf dst
  let pri := r.bits 3 0
  let alt := r.bits 7 4
  let priUp := r.bit 8 && (s.port pri).up
  let altUp := r.bit 9 && (s.port alt).up
  if priUp && ((s.port pri).settled || !altUp) then some pri
  else if altUp then some alt
  else none

/-- Frames a port holds sent and not acknowledged at once (R285). -/
def portWindow : Nat := 1024

/-- Put a frame on a port: it leaves at once while the window allows, and is queued otherwise by class, transit frames
before this engine's own (R285, R291). -/
def State.putPort (s : State) (p : Nat) (f : Frame) (transit : Bool) : State :=
  let h : HeldFrame := ⟨f, transit, s.now, 0⟩
  let pt := s.port p
  if pt.held.length < portWindow then
    (s.modPort p (fun q => { q with held := q.held ++ [h] })).emit (.frame p f)
  else
    let queued := insBy (fun (x : HeldFrame) => x.frame.cls * 2 + b2n (!x.transit)) h (pt.held.drop portWindow)
    s.modPort p (fun q => { q with held := q.held.take portWindow ++ queued })

/-- The kite terminal's place among the outputs: a frame whose DST is this engine's own ID goes to no port (R290), and
its arrival is a command of its own (log 15). -/
def terminalPort : Nat := 16

/-- Hops beyond which a frame is discarded (R266). -/
def maxHops : Nat := 48

/-- Send a frame; false when no route is up (R287). Each router that a frame passes adds a hop, the router of the engine
that sends it among them, and one whose hops would exceed 48 is discarded (R266, R268; log 38). -/
def State.send (s : State) (f : Frame) (transit : Bool) : State × Bool :=
  if f.dst = s.engineId then (s.emit (.frame terminalPort f), true)
  else if f.hops ≥ maxHops then (s.bump Reg.ZP_HOPDROP_CNT 1, true)
  else
    match s.outPort f.dst with
    | some p => (s.putPort p { f with hops := f.hops + 1 } transit, true)
    | none => (s, false)

/-- Send an answer; one without a route is discarded and counted (R287). -/
def State.sendAnswer (s : State) (f : Frame) : State :=
  let (s, ok) := s.send f false
  if ok then s else s.bump Reg.ZP_UNROUTE_CNT 1

/-- A frame has no route: it is discarded and counted, and a kite that expects an answer gets a NACK with REASON 10
(R287). -/
def State.unroutable (s : State) (f : Frame) : State :=
  let s := s.bump Reg.ZP_UNROUTE_CNT 1
  if f.expects then s.sendAnswer (f.nack 10 f.dst) else s

/-- An answer of a served kite, charged to the reserve (R78, R79). -/
def State.replyServed (s : State) (f : Frame) : State := (s.chargeServed [0, 0, 0, 0] f.units).sendAnswer f

/-- Forward a kite to another engine (R293): charged as a reply is. -/
def State.forward (s : State) (f : Frame) (dst : Nat) : State :=
  let f := { f with fwd := true, dst := dst }
  let s := (s.bump Reg.KITE_FWD_CNT 1).chargeServed [0, 0, 0, 0] f.units
  let (s, ok) := s.send f false
  if ok then s else s.unroutable f

/-! ### Tethers -/

/-- Slots of the tracker. -/
def slotCount : Nat := 65536

/-- BUSY slots (KITE_STAT). -/
def State.busySlots (s : State) : Nat := (s.kite.tethers.filter (fun (_, t) => t.st == .busy)).length

/-- Allocate the slot at the front of the free list (R272, R276). -/
def State.takeSlot (s : State) (dst : Nat) (owner : TethOwner) : Option (State × Nat × Nat) :=
  let k := s.kite
  if k.quarAll.isSome || k.quarWait then none
  else
    let pick := if k.fresh < slotCount then some (k.fresh, k.fresh + 1, k.freed)
      else match k.freed with
        | a :: r => some (a, k.fresh, r)
        | [] => none
    match pick with
    | none => none
    | some (slot, fresh, freed) =>
      let gen := (mapCnt k.gens slot + 1) % 16
      let t : Tether := ⟨gen, .busy, s.now, dst, [], owner⟩
      some (s.modKite (fun k => { k with
        fresh := fresh, freed := freed, gens := mapPut k.gens slot gen, tethers := mapSet k.tethers slot t }), slot, gen)

/-- What became of a kite this engine would send. -/
inductive KiteRes where
  | sent
  | waits
  | noRoute
deriving DecidableEq, Repr

/-- A kite that expects an answer leaves under a tether; with no FREE slot it waits (R273); with no route nothing is sent
(R287). -/
def State.sendKite (s : State) (f : Frame) (owner : TethOwner) : State × KiteRes :=
  if f.dst ≠ s.engineId ∧ (s.outPort f.dst).isNone then (s.bump Reg.ZP_UNROUTE_CNT 1, .noRoute)
  else
    match s.takeSlot f.dst owner with
    | none =>
      ((s.modKite (fun k => { k with waiting := k.waiting ++ [⟨f, owner⟩] })).bump Reg.KITE_SLOT_WAIT_CNT 1, .waits)
    | some (s, slot, gen) =>
      let f := { f with origin := s.engineId, slot := slot, gen := gen }
      ((s.send f false).1.bump Reg.KITE_SENT_CNT 1, .sent)

/-- A slot's kite is answered: the slot is HELD (R276). -/
def State.holdSlot (s : State) (slot : Nat) : State :=
  s.modKite (fun k => { k with tethers := mapMod k.tethers slot (fun t => { t with st := .held, since := s.now }) })

/-- A slot is aborted: QUARANTINED (R277). -/
def State.quarSlot (s : State) (slot : Nat) : State :=
  s.modKite (fun k => { k with tethers := mapMod k.tethers slot (fun t => { t with st := .quar, since := s.now }) })

/-- The item a tether belongs to. -/
def TethOwner.item : TethOwner → Option Nat
  | .gather i _ _ _ => some i
  | .upd i _ _ => some i
  | .hall i _ _ _ _ => some i
  | _ => none

/-- The item a host access belongs to. -/
def HPurpose.item : HPurpose → Option Nat
  | .list i _ _ => some i
  | .weights i _ _ => some i
  | .input i _ _ => some i
  | .widenHead i _ => some i
  | .widen i _ _ _ => some i
  | .result i _ _ => some i
  | .record _ i _ => i
  | .restore i _ => some i
  | .cpyRead i _ => some i
  | .cpyWrite i _ => some i
  | .cpyFence i => some i
  | _ => none

/-- Everything an item has outstanding is let go: its BUSY slots are aborted, the kites it would send are not sent, its
host accesses and deliveries are dropped (R225, R277, R336). -/
def State.letGo (s : State) (seq : Nat) : State :=
  let s := s.modKite (fun k => { k with
    tethers := k.tethers.map (fun (n, t) =>
      if t.owner.item = some seq ∧ t.st = .busy then (n, { t with st := .quar, since := s.now }) else (n, t))
    waiting := k.waiting.filter (fun w => w.owner.item != some seq) })
  let s := s.modXlt (fun x => { x with
    accs := x.accs.filter (fun a => a.purpose.item != some seq && (match a.purpose with
      | .coldRow key _ => key != 2 * seq
      | _ => true))
    denseWait := x.denseWait.filter (fun d => d.1 != seq) })
  let s := s.modRc (fun r => { r with misses := r.misses.map (fun m =>
    { m with waiters := m.waiters.filter (fun w => w.1 != 2 * seq) }) })
  s

/-- DETAIL of a RECHECK record after n runs: the galleries, 31 where no run was made, and a failed run's status (R608). -/
def Rck.detail (r : Rck) (n status : Nat) : Nat :=
  let g := fun i => if i < n then r.gals.getD i 31 else 31
  g 0 + g 1 * 32 + g 2 * 1024 + status * 65536

/-- An item fails with an error status (R225, R260). A RECHECK whose run fails ends with ST_OK and RUN_ERROR (R608). -/
def State.failItem (s : State) (seq : Nat) (e : Ending) : State :=
  match s.item seq with
  | none => s
  | some i =>
    let e := match i.rck with
      | none => e
      | some r => ⟨St.ok, r.detail (r.runs.length + b2n !r.waitExpect) e.status, 5 + 31 * 8⟩
    (s.letGo seq).endItem seq e

/-! ### Resolution at a home (R293, R337) -/

/-- A migration of a shard in a list. -/
def migFind (l : List Mig) (table shard : Nat) : Option Mig := l.find? (fun m => m.table == table && m.shard == shard)

/-- Where a kite goes. -/
inductive Where where
  | serve
  | serveFrozen
  | dual
  | forward (dst : Nat)
  | refuse
deriving DecidableEq, Repr

/-- Home of a shard in CUR. -/
def Table.curHome (t : Table) (shard : Nat) : Nat := plHome (t.shard shard).cur

/-- Resolve a GATHER (R293). A replicated table is held whole: it serves. -/
def State.resolveGather (s : State) (t : Table) (table shard epoch : Nat) (fwd : Bool) : Where :=
  let src := migFind s.kite.migSrc table shard
  let tgt := migFind s.kite.migDst table shard
  match tgt with
  | some m =>
    if m.state = 1 ∨ m.state = 2 then .forward m.peer
    else if t.replicated || t.curHome shard == s.engineId then .serve
    else if !fwd then .forward (t.curHome shard)
    else .refuse
  | none =>
    match src with
    | some m =>
      if m.state = 4 then .serve
      else if m.state = 5 ∧ epoch = (t.epoch + 65535) % 65536 then .serveFrozen
      else if t.curHome shard = s.engineId then .serve
      else if !fwd then .forward (t.curHome shard)
      else .refuse
    | none =>
      if t.replicated || t.curHome shard == s.engineId then .serve
      else if !fwd then .forward (t.curHome shard)
      else .refuse

/-- Resolve an UPDATE (R337). -/
def State.resolveUpdate (s : State) (t : Table) (table shard : Nat) (fwd dual : Bool) : Where :=
  let src := migFind s.kite.migSrc table shard
  let tgt := migFind s.kite.migDst table shard
  let home := t.replicated || t.curHome shard == s.engineId
  let rest := if home then Where.serve else if !fwd then .forward (t.curHome shard) else .refuse
  if dual then (if tgt.isSome || home then .serve else .refuse)
  else
    match tgt with
    | some m => if m.state = 1 ∨ m.state = 2 then .forward m.peer else rest
    | none =>
      match src with
      | some m => if 1 ≤ m.state ∧ m.state ≤ 4 then .dual else if m.state = 5 then .forward m.peer else rest
      | none => rest

/-! ### Injected result errors -/

/-- A byte with one bit flipped. -/
def flipBit (b : Byte) (n : Nat) : Byte := b ^^^ BitVec.ofNat 8 (2 ^ n)

/-- The rows of a result with bit n of them all flipped. -/
def flipRows (rows : List (List Byte)) (n : Nat) : List (List Byte) :=
  match rows with
  | [] => []
  | r :: rest =>
    if n < 8 * r.length then updAt r (n / 8) (fun b => flipBit b (n % 8)) :: rest
    else r :: flipRows rest (n - 8 * r.length)

/-- The rows of a gallery's result, with the pending injected error in one free bit of them (R615, KIND 3; log 5). -/
def State.injected (s : State) (gal : Option Nat) (rows : List (List Byte)) : State × List (List Byte) :=
  match gal with
  | none => (s, rows)
  | some g =>
    if !s.err.injFlip.contains g then (s, rows)
    else ({ s.draw with err := { s.err with injFlip := setDel s.err.injFlip g } },
      flipRows rows (freeNat s.freeSeq % max 1 (8 * sumNat (rows.map List.length))))

/-- The same for a result of one row. -/
def State.injectedOne (s : State) (gal : Option Nat) (bs : List Byte) : State × List Byte :=
  let (s, rows) := s.injected gal [bs]
  (s, rows.headD [])

/-! ### Load counters (R207) -/

/-- Saturating 32-bit sum. -/
def sat32 (n : Nat) : Nat := min n 0xFFFFFFFF

/-- Count rows read, or updates applied, for a shard. -/
def State.countLoad (s : State) (table shard reads updates : Nat) : State :=
  s.modTable table (fun t =>
    let c := (mapGet t.load shard).getD ⟨0, 0, 0, 0, t.defined⟩
    { t with load := mapSet t.load shard { c with
        reads := sat32 (c.reads + reads)
        updates := sat32 (c.updates + updates)
        inFlight := c.inFlight + reads
        peak := min (max c.peak (c.inFlight + reads)) 0xFFFF } })

end Sys2Proof.Machine
end

