-- ==== Sys2Proof/Machine/Bag.lean ====
section
/-! DEFINITION. Bags (R211 to R261): the descriptor, the charges of a chunk, resolving and issuing rows, the cache's part
in it, pooling, conversion, widening and delivery. -/
namespace Sys2Proof.Machine

open Sys2Proof.Config

/-! ### The descriptor -/

/-- The descriptor of words 4 to 7 and the two addresses (R211, R213). -/
def BagDesc.ofWords (table : Nat) (w4 w5 w6 w7 : Word) (list wgt : Nat) : BagDesc where
  table := table
  pool := w4.bits 2 0
  outFmt := w4.bits 5 3
  listPtr := w4.bit 6
  listLoc := w4.bit 7
  wgt := w4.bits 9 8
  wfmt := w4.bits 10 10
  vhint := w4.bits 12 11
  dest := w4.bits 14 13
  noWiden := w4.bit 15
  count := w4.bits 31 16 + 1
  oscale := w5
  destAddr := Word.pair w6 w7
  listAddr := list
  wgtAddr := wgt

/-- Inline row IDs of a payload, by list position (R212). -/
def inlineIds (payload : List Byte) (n : Nat) : SMap Nat :=
  (upto 0 n).map (fun i => (i, ofLe ((payload.drop (5 * i)).take 5)))

/-- Inline weights of a payload (R212). -/
def inlineWts (payload : List Byte) (n : Nat) : SMap Nat :=
  let base := 2 * ceilDiv (5 * n) 2
  (upto 0 n).map (fun i => (i, ofLe ((payload.drop (base + 2 * i)).take 2)))

/-- A bag before its first chunk. -/
def BagRun.start (d : BagDesc) (ids wts : SMap Nat) : BagRun where
  desc := d
  bind := none
  gallery := none
  ids := ids
  wts := wts
  next := 0
  rows := []
  cached := 0
  kites := 0
  balloon := 0
  sat := false
  ovf := false
  escOvr := false
  rebind := false
  rerun := false
  finishDue := false
  widened := none
  done := false
  settled := false

/-- The table a bag's row size and dimension come from. -/
def State.bagTable (s : State) (b : BagRun) : Table :=
  (s.table b.desc.table).getD ⟨[], .free, ⟨.empty, 0, none⟩, ⟨.empty, 0, none⟩, 0, 0, false, false, false, [], [], 0⟩

/-- A bag of an item's work. -/
def Work.bagAt (w : Work) (k : Nat) : Option BagRun :=
  match w with
  | .bag b => if k = 0 then some b else Option.none
  | .interact bs _ _ _ _ _ => bs[k]?
  | _ => Option.none

/-- Change a bag of an item's work. -/
def Work.modBag (w : Work) (k : Nat) (f : BagRun → BagRun) : Work :=
  match w with
  | .bag b => .bag (f b)
  | .interact bs ls st vs a o => .interact (updAt bs k f) ls st vs a o
  | x => x

/-- A bag of an item. -/
def State.bagOf (s : State) (seq k : Nat) : Option BagRun := (s.item seq).bind (fun i => i.work.bagAt k)

/-- Change a bag of an item. -/
def State.modBag (s : State) (seq k : Nat) (f : BagRun → BagRun) : State :=
  s.modItem seq (fun i => { i with work := i.work.modBag k f })

/-- A reader's number: twice an item's, or twice a served kite's plus 1. -/
def itemKey (seq : Nat) : Nat := 2 * seq

/-- The reader's number of a served kite. -/
def servedKey (id : Nat) : Nat := 2 * id + 1

/-- The place of a list position of a bag among an item's reads. -/
def placeOf (bag pos : Nat) : Nat := bag * 65536 + pos

/-! ### Charges (R226) -/

/-- Vector cycles of one row. -/
def vecPerRow (dim : Nat) : Nat := ceilDiv dim 128

/-- The charge of a bag chunk of n rows; `fin` with the finish. -/
def bagCharge (dim n : Nat) (fin : Bool) : Charge :=
  { Charge.zero with
    pool := n, fab := n, vec := n * vecPerRow dim + (if fin then 2 * vecPerRow dim else 0) }

/-- Rows of a bag's next chunk. -/
def BagRun.chunkLen (b : BagRun) : Nat := min 64 (b.desc.count - b.next)

/-- Chunks of a bag still outstanding. -/
def Item.outstanding (i : Item) (k : Nat) : Nat := (i.chunks.filter (fun c => c.bag == k)).length

/-- The charge of a bag's next chunk, when it has one to admit now (at most four outstanding; R248 for a re-run). -/
def State.bagNext (s : State) (i : Item) (k : Nat) (b : BagRun) : Option Charge :=
  let dim := (s.bagTable b).dim
  if b.done || i.outstanding k ≥ 4 then none
  else if b.finishDue then some { Charge.zero with vec := 2 * vecPerRow dim }
  else if b.next < b.desc.count then some (bagCharge dim b.chunkLen (b.next + b.chunkLen ≥ b.desc.count))
  else none

/-! ### Places of rows (R183, R190, R228) -/

/-- The view of a shard for an epoch, and whether it is CUR for want of one (R190). -/
def Table.view (t : Table) (epoch shard : Nat) : Nat × Bool :=
  let e := t.shard shard
  if epoch = t.epoch then (e.cur, false)
  else if epoch = (t.epoch + 65535) % 65536 then (e.prev, false)
  else (e.cur, true)

/-- Where a row lies and how it is read. -/
structure Place where
  src : RowSrc
  addr : Nat
  home : Nat
  shard : Nat
  rebind : Bool
deriving DecidableEq, Repr

/-- Resolve a row (Resolving and issuing the rows). -/
def State.place (s : State) (t : Table) (slot epoch row : Nat) : Place :=
  let sh := row / 65536
  if t.replicated then ⟨if t.pin then .pinned else .local, t.replAddr slot row, s.engineId, sh, false⟩
  else
    let (p, rb) := t.view epoch sh
    if plHome p = s.engineId then
      ⟨if plTier p = 0 then .local else .balloon, t.rowAddr slot p row, s.engineId, sh, rb⟩
    else ⟨.kite, 0, plHome p, sh, rb⟩

/-- The row's lines or pieces as tags (R403), and how far into the first of them the row begins. -/
def State.rowTags (s : State) (t : Table) (table slot row : Nat) (p : Place) : List Tag × Nat :=
  let n := t.rowSize
  match p.src with
  | .kite => ((upto 0 (ceilDiv n 64)).map (fun j => ⟨table, slot, 2, row * 64 + j⟩), 0)
  | .balloon =>
    let o := p.addr - t.balloon slot
    ((linesOf o n).map (fun l => ⟨table, slot, 1, s.engineId * 2 ^ 38 + l⟩), o % 64)
  | .pinned => ([], 0)
  | _ => ((linesOf p.addr n).map (fun l => ⟨table, slot, 0, s.hallAddr (l * 64) / 64⟩), p.addr % 64)

/-- The slot may be allocated for (R407): READY, CURRENT or OLD, and not the current slot of a NOCACHE table. -/
def Table.allocOk (t : Table) (slot : Nat) : Bool :=
  let st := (t.slot slot).st
  (st == .ready || st == .current || st == .old) && !(t.nocache && slot == t.cur)

/-- Rows of the slot are looked up (R228). -/
def Table.lookOk (t : Table) (slot : Nat) : Bool := !(t.nocache && slot == t.cur)

/-! ### The cache's part (R408 to R410) -/

/-- Look up every line of a row: its lines' bytes when all hit. -/
def State.lookRow (s : State) (cls : Nat) (tags : List Tag) : State × Option (List Byte) :=
  let r := tags.foldl (fun (acc : State × Option (List Byte)) (t : Tag) =>
    let (s, got) := acc
    let on := s.sliceOn (rcSlice t.key)
    let (s, l) := if on then s.rcLookup cls t else (s, none)
    match l with
    | some d => (s.bump Reg.RC_HIT_CNT 1, got.map (· ++ d))
    | none => ((if on then s.bump Reg.RC_MISS_CNT 1 else s), none)) (s, some [])
  r

/-- Miss entries in use in a slice, and in a set of it. -/
def RCache.inUse (r : RCache) (slice : Nat) : Nat := (r.misses.filter (fun m => m.slice == slice && !m.held)).length

/-- Miss entries in use in a set. -/
def RCache.inSet (r : RCache) (slice set : Nat) : Nat :=
  (r.misses.filter (fun m => m.slice == slice && m.set == set && !m.held)).length

/-- Take a miss entry for a line, or merge into one for the same line (R408); it waits when its set holds four or its
slice 256 (R409). Only stairwell lines merge: a row from a balloon or another engine is read whole for each reader. -/
def State.missLine (s : State) (cls ways : Nat) (t : Tag) (waiter : Nat × Nat) : State :=
  let slice := rcSlice t.key
  let set := rcSetOf t.key (s.salt cls)
  if !s.sliceOn slice then s
  else if t.kind == 0 && s.rc.misses.any (fun m => m.slice == slice && m.set == set && m.tag == t) then
    (s.modRc (fun r => { r with misses := r.misses.map (fun m =>
      if m.slice = slice ∧ m.set = set ∧ m.tag = t then { m with waiters := m.waiters ++ [waiter] } else m) })).bump
      Reg.RC_MERGE_CNT 1
  else
    let held := decide (s.rc.inSet slice set ≥ 4) || decide (s.rc.inUse slice ≥ 256)
    let m : RcMiss := ⟨s.rc.nextMiss, slice, set, t, cls, ways, false, held, [waiter]⟩
    let s := s.modRc (fun r => { r with misses := r.misses ++ [m], nextMiss := r.nextMiss + 1 })
    let s := s.modRc (fun r => { r with peak := mapPut r.peak slice (max (mapCnt r.peak slice) (r.inUse slice)) })
    if held then s.bump Reg.RC_SETWAIT_CNT 1 else s

/-- A miss entry is released; one that waited takes its place (R409). -/
def State.missDone (s : State) (id : Nat) : State :=
  match s.rc.misses.find? (fun m => m.id == id) with
  | none => s
  | some m =>
    let s := s.modRc (fun r => { r with misses := r.misses.filter (fun x => x.id != id) })
    match s.rc.misses.find? (fun x => x.slice == m.slice && x.held && decide (s.rc.inSet x.slice x.set < 4)) with
    | some w => s.modRc (fun r => { r with misses := r.misses.map (fun x => if x.id = w.id then { x with held := false } else x) })
    | none => s

/-- Allocate a line that has come for a miss, unless that was withheld or the row is not cacheable (R407, R410). -/
def State.fillLine (s : State) (m : RcMiss) (data : List Byte) : State :=
  let ok := match s.table m.tag.table with
    | some t => t.allocOk m.tag.slot
    | none => false
  if m.noAlloc || !ok then s.bump Reg.RC_NOALLOC_CNT 1 else s.rcAlloc m.cls m.ways m.tag data

/-- The pieces or balloon lines of a row that has come are allocated, and their entries released (R407, R410). `pre` is
how far into its first line the row begins. -/
def State.fillRow (s : State) (waiter : Nat × Nat) (pre : Nat) (data : List Byte) : State :=
  let ms := s.rc.misses.filter (fun m => m.waiters.contains waiter)
  let k0 := ms.foldl (fun k m => min k m.tag.key) (match ms with | m :: _ => m.tag.key | [] => 0)
  let body := List.replicate pre (0 : Byte) ++ data
  ms.foldl (fun (s : State) m =>
    let line := (body.drop (64 * (m.tag.key - k0))).take 64
    let pad := (upto 0 (64 - line.length)).map (freeByte s.freeSeq)
    ((s.draw.fillLine m (line ++ pad)).missDone m.id)) s

/-! ### Resolving a chunk (R228, R229) -/

/-- What resolving a chunk has found so far: rows to read, activates by page, GATHERs to send, and refunds. -/
structure Res3 where
  slots : List RowSlot
  pages : List Nat
  shared : Nat
  groups : List (Nat × Nat × List Nat)   -- home, shard, row IDs
  rebinds : Nat
deriving DecidableEq, Repr

/-- Put a row ID into its group, groups in order of first appearance. -/
def groupIns (l : List (Nat × Nat × List Nat)) (home shard row : Nat) : List (Nat × Nat × List Nat) :=
  match l with
  | [] => [(home, shard, [row])]
  | (h, sh, rs) :: r => if h = home ∧ sh = shard then (h, sh, rs ++ [row]) :: r else (h, sh, rs) :: groupIns r home shard row

/-- The distinct row IDs of a list of (position, ID), each with its positions, in order of first appearance (R229). -/
def distinctRows (l : List (Nat × Nat)) : List (Nat × List Nat) :=
  l.foldl (fun acc (pos, row) =>
    if acc.any (fun x => x.1 == row) then acc.map (fun x => if x.1 = row then (x.1, x.2 ++ [pos]) else x)
    else acc ++ [(row, [pos])]) []

/-- Resolve one row of a chunk: look it up, and say where it comes from. -/
def State.resolveRow (s : State) (i : Item) (k chunk : Nat) (t : Table) (bd : Bind) (acc : Res3) (row : Nat)
    (pos : List Nat) : State × Res3 :=
  let ten := s.tenant i.tenant
  let p := s.place t bd.slot bd.epoch row
  let s := if p.rebind then s.bump Reg.DIR_REBIND_CNT 1 else s
  let acc := { acc with rebinds := acc.rebinds + b2n p.rebind }
  let s := if p.src = .kite then s else s.countLoad bd.table p.shard 1 0
  let (tags, pre) := s.rowTags t bd.table bd.slot row p
  let look := s.rcActive && !tags.isEmpty && t.lookOk bd.slot
  let (s, hit) := if look then s.lookRow ten.rcClass tags else (s, none)
  let slot : RowSlot := ⟨chunk, pos, row, p.src, p.addr, [], none⟩
  match hit with
  | some d => (s, { acc with slots := acc.slots ++ [{ slot with src := .cache, parts := [(0, (d.drop pre).take t.rowSize)] }] })
  | none =>
    let s := if look then tags.foldl (fun (s : State) tg =>
        s.missLine ten.rcClass ten.rcWays tg (itemKey i.seq, placeOf k (pos.headD 0))) s else s
    let acc := { acc with slots := acc.slots ++ [slot] }
    match p.src with
    | .kite => (s, { acc with groups := groupIns acc.groups p.home p.shard row })
    | .local =>
      let page := p.addr / 2048
      if acc.pages.contains page then (s, { acc with shared := acc.shared + 1 })
      else (s, { acc with pages := acc.pages ++ [page] })
    | _ => (s, acc)

/-- A GATHER for a group of rows of a chunk (R268 to R270). -/
def gatherFrame (i : Item) (bd : Bind) (hallId home : Nat) (rows : List Nat) : Frame :=
  { kind := kGather, cls := i.cls, hops := 0, fwd := false, admin := i.tenant == 0, age := 0, dst := home, origin := 0,
    slot := 0, gen := 0, table := bd.table, epoch := bd.epoch, tenant := hallId, vslot := bd.slot,
    nrows := rows.length, arg0 := 0, arg1 := 0, payload := rows.flatMap (leBytes 5) }

/-- Send a chunk's GATHERs; a destination without a route ends the item (R287). -/
def sendGathers (s : State) (i : Item) (k chunk : Nat) (bd : Bind) : List (Nat × Nat × List Nat) → State
  | [] => s
  | (home, _, rows) :: r =>
    if (s.item i.seq).isNone then s
    else
      let (s, res) := s.sendKite (gatherFrame i bd i.hallId home rows) (.gather i.seq k chunk rows)
      match res with
      | .noRoute => s.failItem i.seq ⟨St.unreachable, home, 0⟩
      | _ => sendGathers s i k chunk bd r

/-- Issue the local balloon rows of a chunk: reads of host memory by the balloon reader (R228, R494). -/
def State.issueBalloon (s : State) (seq k : Nat) (t : Table) (bd : Bind) (slots : List RowSlot) : State :=
  let owner := (s.conc.tenEff.find? (fun (_, e) => e.valid && e.hallId == t.owner)).map (·.1)
  slots.foldl (fun (s : State) sl =>
    if sl.src != .balloon || (s.item seq).isNone then s
    else
      let ten := owner.getD 0
      let s := match s.pasidOf ten with
        | some p => (pages4k sl.addr t.rowSize).foldl (fun (s : State) pg => s.hotCount p ten pg bd.table (some (sl.row / 65536))) s
        | none => s
      let (s, a) := s.hostAcc reqBalloon ten sl.addr t.rowSize none (.coldRow (itemKey seq) (placeOf k (sl.pos.headD 0))) false
      match a with
      | .fault perm at_ => s.failItem seq ⟨xlStatus perm, at_ - t.balloon bd.slot, 3⟩
      | _ => s) s

/-- Resolve and issue a chunk whose list and weights are known (R227 to R229). -/
def State.resolveChunk (s : State) (seq k chunk : Nat) : State :=
  match s.item seq, s.bagOf seq k with
  | some i, some b =>
    match i.chunks.find? (fun c => c.id == chunk), b.bind with
    | some c, some bd =>
      let t := s.bagTable b
      let ids := (upto c.first c.count).map (fun p => (p, mapCnt b.ids p))
      let rows := distinctRows ids
      let (s, r) := rows.foldl (fun (acc : State × Res3) (row, pos) =>
        acc.1.resolveRow i k chunk t bd acc.2 row pos) (s, ⟨[], [], 0, [], 0⟩)
      let units := sumNat (r.groups.map (fun (h, _, rs) => (gatherFrame i bd i.hallId h rs).units))
      let acts := actsOf (r.pages.map (· * 2048))
      let s := s.settle c.flight acts
      let s := s.refund c.flight c.promoted { Charge.zero with pool := c.count - sumNat acts, fab := c.count - units }
      let s := s.bump Reg.GAL_PAGE_SHARE_CNT r.shared
      let s := s.modBag seq k (fun b => { b with rows := b.rows ++ r.slots, rebind := b.rebind || decide (r.rebinds > 0) })
      let s := s.modItem seq (fun i => { i with chunks := i.chunks.map (fun c =>
        if c.id = chunk then { c with waiting := r.slots.length } else c) })
      let s := sendGathers s i k chunk bd r.groups
      s.issueBalloon seq k t bd r.slots
    | _, _ => s
  | _, _ => s

/-! ### Reading the list (R213, R214, R216) -/

/-- The range lies wholly within the memory of an engine-memory command ring of the tenant (R214). -/
def State.inOwnRing (s : State) (tenant off n : Nat) : Bool :=
  s.conc.cmd.any (fun (_, r) => r.tenant == tenant && r.engine && decide (r.base ≤ off)
    && decide (off + n ≤ r.base + 32 * 2 ^ r.log2))

/-- Every ID and weight of a chunk has been read. -/
def BagRun.listed (b : BagRun) (c : Chunk) : Bool :=
  (upto c.first c.count).all (fun p => (mapGet b.ids p).isSome && (b.desc.wgt != 2 || (mapGet b.wts p).isSome))

/-- Take in list entries read from memory: the failing field of the first bad one ends the bag (R257, R258). -/
def State.takeList (s : State) (seq k first : Nat) (data : List Byte) : State :=
  match s.bagOf seq k with
  | none => s
  | some b =>
    let t := s.bagTable b
    let ents := (upto 0 (data.length / 8)).map (fun j => (first + j, ofLe ((data.drop (8 * j)).take 8)))
    match ents.find? (fun (_, e) => decide (e ≥ 2 ^ 40) || decide (e % 2 ^ 40 ≥ t.rows)) with
    | some (p, e) => s.failItem seq ⟨St.badField, 8 * p + (if e % 2 ^ 40 ≥ t.rows then 0 else 5), p⟩
    | none => s.modBag seq k (fun b => { b with ids := ents.foldl (fun m (p, e) => mapSet m p e) b.ids })

/-- Take in weights read from memory. -/
def State.takeWts (s : State) (seq k first : Nat) (data : List Byte) : State :=
  s.modBag seq k (fun b => { b with
    wts := (upto 0 (data.length / 2)).foldl (fun m j => mapSet m (first + j) (ofLe ((data.drop (2 * j)).take 2))) b.wts })

/-- Resolve the chunk that starts at a list position once its list and weights are there. -/
def State.listReady (s : State) (seq k first : Nat) : State :=
  match s.item seq, s.bagOf seq k with
  | some i, some b =>
    match i.chunks.find? (fun c => c.bag == k && c.first == first) with
    | some c => if b.listed c then s.resolveChunk seq k c.id else s
    | none => s
  | _, _ => s

/-- Read the list and weights of a chunk as far as they are not inline, then resolve it. -/
def State.readLists (s : State) (seq k : Nat) (c : Chunk) : State :=
  match s.item seq, s.bagOf seq k with
  | some i, some b =>
    let d := b.desc
    let s :=
      if !d.listPtr || (mapGet b.ids c.first).isSome then s
      else if d.listLoc then
        let (s, rd) := s.engRead (d.listAddr + 8 * c.first) (8 * c.count) .good
        match rd.bad with
        | some l => s.failItem seq ⟨St.memUnc, s.hallAddr l, 0⟩
        | none => s.takeList seq k c.first rd.data
      else
        let (s, a) := s.hostAcc reqConc i.tenant (d.listAddr + 8 * c.first) (8 * c.count) none (.list seq k c.first) false
        match a with
        | .fault perm at_ => s.failItem seq ⟨xlStatus perm, at_ - d.listAddr, 0⟩
        | _ => s
    let s :=
      if d.wgt != 2 || (s.item seq).isNone || (mapGet b.wts c.first).isSome then s
      else
        let (s, a) := s.hostAcc reqConc i.tenant (d.wgtAddr + 2 * c.first) (2 * c.count) none (.weights seq k c.first) false
        match a with
        | .fault perm at_ => s.failItem seq ⟨xlStatus perm, at_ - d.wgtAddr, 1⟩
        | _ => s
    s.listReady seq k c.first
  | _, _ => s

/-! ### Starting a chunk -/

/-- The check of the table's state and of VHINT at the first chunk (R217, R219): the binding, or how the item ends. -/
def State.bagBind (s : State) (d : BagDesc) : Bind ⊕ Ending :=
  match s.table d.table with
  | none => .inr ⟨St.badState, 0, 0⟩
  | some t =>
    if t.st != .serving && t.st != .training then .inr ⟨St.badState, t.st.code, 0⟩
    else if d.vhint ≠ 0 ∧ (t.slot (d.vhint - 1)).st ≠ .current then .inr ⟨St.badState, (t.slot (d.vhint - 1)).st.code, 0⟩
    else .inl ⟨d.table, t.cur, t.epoch⟩

/-- An item ends at the admission of a chunk: every charge of it is refunded (R634). -/
def State.failChunk (s : State) (seq : Nat) (c : Chunk) (e : Ending) : State :=
  (s.refund c.flight c.promoted c.charge).failItem seq e

/-- A chunk of a bag has been admitted and charged (R224, R248). -/
def State.startBagChunk (s : State) (seq k : Nat) (c : Chunk) : State :=
  match s.item seq, s.bagOf seq k with
  | some i, some b =>
    if b.finishDue then
      let s := s.modBag seq k (fun b => { b with finishDue := false })
      s.modItem seq (fun i => { i with chunks := i.chunks.filter (fun x => x.id != c.id) })
    else
      let s := s.modBag seq k (fun b => { b with next := b.next + c.count })
      match b.bind with
      | some _ => s.readLists seq k c
      | none =>
        if b.desc.listLoc && !s.inOwnRing i.tenant b.desc.listAddr (8 * b.desc.count) then
          s.failChunk seq c ⟨St.denied, 0, 0⟩
        else
          match s.bagBind b.desc with
          | .inr e => s.failChunk seq c e
          | .inl bd => (s.modBag seq k (fun b => { b with bind := some bd })).readLists seq k c
  | _, _ => s

/-! ### Rows that arrive -/

/-- A row has its bytes: its sources are counted, and its chunk has one row less to wait for. -/
def State.rowGot (s : State) (seq k : Nat) (sl : RowSlot) (src : RowSrc) (data : List Byte) : State :=
  let n := sl.pos.length
  let s := s.modBag seq k (fun b => { b with
    rows := b.rows.map (fun x => if x.chunk = sl.chunk ∧ x.row = sl.row then { x with src := src, data := some data } else x)
    cached := b.cached + (if src = .cache ∨ src = .pinned then n else 0)
    kites := b.kites + (if src = .kite then n else 0)
    balloon := b.balloon + (if src = .balloon then n else 0) })
  s.modItem seq (fun i => { i with chunks := (i.chunks.map (fun c =>
    if c.id = sl.chunk then { c with waiting := c.waiting - 1 } else c)).filter (fun c => c.id != sl.chunk || c.waiting != 0) })

/-- The row slot at a place of an item's reads. -/
def State.slotAt (s : State) (seq place : Nat) : Option (BagRun × RowSlot) :=
  (s.bagOf seq (place / 65536)).bind (fun b =>
    (b.rows.find? (fun x => x.pos.contains (place % 65536) && x.data.isNone)).map (fun x => (b, x)))

/-- A line of a row has come from a stairwell; the row has come when all its lines have. -/
def State.linePart (s : State) (seq place key : Nat) (line : List Byte) : State :=
  match s.slotAt seq place with
  | none => s
  | some (b, sl) =>
    let k := place / 65536
    let t := s.bagTable b
    let parts := mapSet sl.parts key line
    if parts.length = (linesOf sl.addr t.rowSize).length then
      s.rowGot seq k sl .local (((parts.flatMap (·.2)).drop (sl.addr % 64)).take t.rowSize)
    else
      s.modBag seq k (fun b => { b with rows := b.rows.map (fun x =>
        if x.chunk = sl.chunk ∧ x.row = sl.row then { x with parts := parts } else x) })

/-- A read of a row that has gone out on no miss entry comes back (R228, R230, R423 to R425). -/
def State.rowArrive (s : State) (seq place : Nat) (r : RowRead) : State :=
  match s.item seq, s.slotAt seq place with
  | some i, some (b, sl) =>
    let k := place / 65536
    let t := s.bagTable b
    let slot := (b.bind.map (·.slot)).getD 0
    let epoch := (b.bind.map (·.epoch)).getD 0
    let ten := s.tenant i.tenant
    let tags := (s.rowTags t b.desc.table slot sl.row (s.place t slot epoch sl.row)).1
    match sl.src, r with
    | .cache, .stored (.uncorrectable _) =>
      -- R423: served as a miss, from the row's source
      let s := match tags with
        | tg :: _ => s.rcUe ten.rcClass tg
        | [] => s
      let (s, acc) := s.resolveRow i k sl.chunk t ⟨b.desc.table, slot, epoch⟩ ⟨[], [], 0, [], 0⟩ sl.row sl.pos
      let s := s.modBag seq k (fun b => { b with rows := b.rows.filter (fun x => !(x.chunk == sl.chunk && x.row == sl.row)) ++ acc.slots })
      let s := sendGathers s i k sl.chunk ⟨b.desc.table, slot, epoch⟩ acc.groups
      s.issueBalloon seq k t ⟨b.desc.table, slot, epoch⟩ acc.slots
    | .cache, .tagParity =>
      let s := match tags with
        | tg :: _ => s.rcTagParity ten.rcClass tg
        | [] => s
      let (s, acc) := s.resolveRow i k sl.chunk t ⟨b.desc.table, slot, epoch⟩ ⟨[], [], 0, [], 0⟩ sl.row sl.pos
      let s := s.modBag seq k (fun b => { b with rows := b.rows.filter (fun x => !(x.chunk == sl.chunk && x.row == sl.row)) ++ acc.slots })
      let s := sendGathers s i k sl.chunk ⟨b.desc.table, slot, epoch⟩ acc.groups
      s.issueBalloon seq k t ⟨b.desc.table, slot, epoch⟩ acc.slots
    | .cache, .stored e =>
      let s := if e = .corrected then s.bump Reg.RC_CE_CNT 1 else s
      s.rowGot seq k sl .cache ((sl.parts.headD (0, [])).2)
    | .pinned, .stored e =>
      let (s, rd) := s.engRead (pinBase + sl.addr) t.rowSize e
      match rd.bad with
      | some l => s.failItem seq ⟨St.memUnc, s.hallAddr l, 0⟩
      | none => s.rowGot seq k sl .pinned rd.data
    | .local, .stored e =>
      if s.rc.misses.any (fun m => m.waiters.contains (itemKey seq, place)) || s.rangeBlocked sl.addr t.rowSize then s
      else
        let (s, go) := s.takeTokens sl.addr t.rowSize ten.part
        if !go then s
        else
          let (s, rd) := s.engRead sl.addr t.rowSize e
          match rd.bad with
          | some l => s.failItem seq ⟨St.memUnc, s.hallAddr l, 0⟩
          | none => s.rowGot seq k sl .local rd.data
    | .balloon, .balloon d =>
      match s.xlt.accs.find? (fun a => a.issued && a.purpose == .coldRow (itemKey seq) place) with
      | none => s
      | some a =>
        let s := s.dropAcc a.id
        let data := d.take t.rowSize ++ List.replicate (t.rowSize - d.length) 0
        let s := s.fillRow (itemKey seq, place) ((sl.addr - t.balloon slot) % 64) data
        s.rowGot seq k sl .balloon data
    | _, _ => s
  | _, _ => s

/-! ### Pooling (R232 to R238) -/

/-- The weight of a list position as an exact value (R211). -/
def BagRun.weight (b : BagRun) (pos : Nat) : Val :=
  if b.desc.pool ≠ 2 then .ofInt 1
  else if b.desc.wfmt = 1 then .ofInt (signedOf 16 (mapCnt b.wts pos))
  else fBF16.decode (mapCnt b.wts pos)

/-- The integer weight of a list position. -/
def BagRun.intWeight (b : BagRun) (pos : Nat) : Int :=
  if b.desc.pool ≠ 2 then 1 else signedOf 16 (mapCnt b.wts pos)

/-- The bag takes the integer path (R232). -/
def BagRun.intPath (b : BagRun) (t : Table) : Bool := fmtInt t.format && (b.desc.pool != 2 || b.desc.wfmt == 1)

/-- The elements of the row at each list position. -/
def BagRun.rowElems (b : BagRun) (t : Table) : List (Nat × List Elem) :=
  b.rows.flatMap (fun sl =>
    let es := t.elems (sl.data.getD [])
    sl.pos.map (fun p => (p, es)))

/-- The raw integer of an unescaped element of an integer format: its code less the zero point. -/
def Elem.int (e : Elem) : Int :=
  match e.raw with
  | .fin s n _ => if s then -(n : Int) else n
  | _ => 0

/-- Column j of the rows, by list position. -/
def colOf (rows : List (Nat × List Elem)) (j : Nat) : List (Nat × Elem) :=
  rows.filterMap (fun (p, es) => (es[j]?).map (fun e => (p, e)))

/-- A pooled value, and whether its integer part lies outside 32 bits (R233, R236). -/
def BagRun.pooled (b : BagRun) (t : Table) (col : List (Nat × Elem)) : Val × Bool :=
  if b.desc.pool = 3 then
    (match col.map (fun (_, e) => e.val) with
      | [] => .zero
      | v :: vs => vs.foldl Val.max v, false)
  else if b.intPath t then
    let plain := col.filter (fun (_, e) => !e.esc)
    let c : Int := plain.foldl (fun (a : Int) (p, e) => a + b.intWeight p * e.int) 0
    let esc := (col.filter (fun (_, e) => e.esc)).map (fun (p, e) => vmul (.ofInt (b.intWeight p)) e.val)
    let terms := if plain.isEmpty then esc else vmul (.ofInt c) (fp32Val t.scale) :: esc
    let v := Val.sum terms
    (if b.desc.pool = 1 then v.divNat b.desc.count else v, decide (c < -(2 ^ 31 : Int)) || decide (c ≥ (2 ^ 31 : Int)))
  else
    let v := Val.sum (col.map (fun (p, e) => vmul (b.weight p) e.val))
    (if b.desc.pool = 1 then v.divNat b.desc.count else v, false)

/-- The pooled values of a bag in output order, and whether an integer sum overflowed 32 bits (R233 to R236). -/
def BagRun.values (b : BagRun) (t : Table) : List Val × Bool :=
  let rows := b.rowElems t
  if b.desc.pool = 4 then
    ((upto 0 b.desc.count).flatMap (fun p =>
      match rows.find? (fun x => x.1 == p) with
      | some (_, es) => es.map (·.val)
      | none => []), false)
  else
    let l := (upto 0 t.dim).map (fun j => b.pooled t (colOf rows j))
    (l.map (·.1), l.any (·.2))

/-- Escapes without a slot among the rows read (R199). -/
def BagRun.escCount (b : BagRun) (t : Table) : Nat :=
  sumNat (b.rows.map (fun sl => ((t.elems (sl.data.getD [])).filter (·.noSlot)).length))

/-- The largest magnitude as an FP32 code; NaN when any value is NaN (R247). -/
def maxAbs (vs : List Val) : Nat :=
  vs.foldl (fun m v => max m (if v.isNan then fFP32.nanCode else fFP32.convInf v.abs)) 0

/-- Output elements of values (R239 to R243). -/
def convOut (f : OutFmt) (oscale : Word) (vs : List Val) : List Conv := vs.map (fun v => f.conv (v.divPos (fp32Val oscale)))

/-- The bytes of output elements (R244). -/
def convBytes (f : OutFmt) (cs : List Conv) : List Byte := cs.flatMap (fun c => leBytes f.bytes c.code)

/-! ### Statistics of a table (R400) -/

/-- Merge pending figures of a table into the area. -/
def State.statWrite (s : State) (table : Nat) (fig : Nat × Nat × Nat) : State :=
  let hi := s.reg Reg.GAL_STAT_BASE_HI
  if !hi.bit 31 then s
  else
    let a := (s.reg Reg.GAL_STAT_BASE_LO).toNat + hi.bits 5 0 * 2 ^ 32 + 16 * table
    let old := s.memBytes a 16
    let f := fun i => ofLe ((old.drop (4 * i)).take 4)
    s.stwWrite a (leBytes 4 (max (f 0) fig.1) ++ leBytes 4 (sat32 (f 1 + fig.2.1)) ++ leBytes 4 (sat32 (f 2 + fig.2.2)))

/-- Merge two sets of figures. -/
def statMerge (a b : Nat × Nat × Nat) : Nat × Nat × Nat := (max a.1 b.1, sat32 (a.2.1 + b.2.1), sat32 (a.2.2 + b.2.2))

/-- A gallery's statistics unit takes a finished bag; its store holds 256 tables, and which one it displaces is free
(R400; log 17). -/
def State.statBag (s : State) (gal table mabs : Nat) (sat : Bool) : State :=
  if !(s.reg Reg.GAL_STAT_BASE_HI).bit 31 then s
  else
    let g := s.gal gal
    let fig := statMerge ((mapGet g.pend table).getD (0, 0, 0)) (mabs, b2n sat, 1)
    if (mapGet g.pend table).isSome || g.pend.length < 256 then
      s.modGal gal (fun g => { g with pend := mapSet g.pend table fig })
    else
      let (dt, df) := g.pend.getD (freeNat s.freeSeq % 256) (0, (0, 0, 0))
      ((s.draw.statWrite dt df).modGal gal (fun g => { g with pend := mapSet (mapDel g.pend dt) table fig }))

/-! ### RECHECK's runs (R606 to R608) -/

/-- What follows the runs made so far: the next gallery to run on (as a place among G1 to G3), or the outcome and the
suspect's place. -/
inductive RckStep where
  | run (place : Nat)
  | done (outcome : Nat) (suspect : Option Nat)
deriving DecidableEq, Repr

/-- The pseudocode of R606. -/
def rckNext (runs : List (List Byte)) (expectDiffers : Bool) : RckStep :=
  match runs with
  | [] => .run 0
  | [_] => .run 1
  | [a, b] => if a = b then .done (if expectDiffers then 1 else 0) none else .run 2
  | [a, b, c] => if a = b then .done 0 none else if c = a then .run 1 else .run 0
  | [a, b, c, d] =>
    if c = a then (if d = b then .done 3 (some 1) else .done 2 none)
    else if c = b then (if d = a then .done 3 (some 0) else .done 2 none)
    else .run 1
  | [_, _, _, _, _] => .run 2
  | _ :: _ :: _ :: d :: e :: f :: _ => if d = e ∧ e = f then .done 2 none else .done 4 none

/-! ### Delivery (R252 to R258) -/

/-- Status, DETAIL and AUX of a bag that has delivered its result (R250, R256, R257). -/
def bagEnding (i : Item) (b : BagRun) : Ending :=
  let aux := b2n (b.sat && b.widened.isNone) + 2 * b2n b.escOvr + 4 * b2n b.rebind + 8 * b2n i.wasSpilled
    + 16 * b2n b.rerun + 32 * b2n i.moved
  match b.widened with
  | some o => ⟨St.okWidened, o, aux⟩
  | none => ⟨St.ok, b.cached + b.kites * 2 ^ 17 + b.balloon * 2 ^ 34, aux⟩

/-- One of an item's result writes has been committed; after the last, the bag ends (R116, R252). -/
def State.bagWritten (s : State) (seq : Nat) : State :=
  match s.item seq with
  | some i =>
    let s := s.modItem seq (fun i => { i with writes := i.writes - 1 })
    if i.writes ≤ 1 then
      match i.work.bagAt 0 with
      | some b => s.endItem seq (bagEnding i b)
      | none => s
    else s
  | none => s

/-- Write the tiles of a result to host memory. -/
def writeTiles (s : State) (seq gal tenant dest : Nat) : List (Nat × List Byte) → State
  | [] => s
  | (off, bs) :: r =>
    if (s.item seq).isNone then s
    else
      let (s, a) := s.hostAcc gal tenant (dest + off) bs.length (some bs) (.result seq 0 off) false
      let s := match a with
        | .committed => s.bagWritten seq
        | .waiting => s
        | .fault perm at_ => s.failItem seq ⟨xlStatus perm, at_ - dest, 2⟩
      writeTiles s seq gal tenant dest r

/-- The tiles of a bag's output: the whole of it, or each list position of a CONCAT (R253). -/
def BagRun.tiles (b : BagRun) (t : Table) (bytes : List Byte) : List (Nat × List Byte) :=
  if b.desc.pool = 4 then
    let n := t.dim * (OutFmt.ofCode b.desc.outFmt).bytes
    (upto 0 b.desc.count).map (fun p => (p * n, (bytes.drop (p * n)).take n))
  else [(0, bytes)]

/-- Deliver a bag's result by its DEST (R215, R254). -/
def State.deliver (s : State) (seq : Nat) : State :=
  match s.item seq, s.bagOf seq 0 with
  | some i, some b =>
    let t := s.bagTable b
    let f := OutFmt.ofCode b.desc.outFmt
    let (s, bytes) := s.injectedOne b.gallery (convBytes f (convOut f b.desc.oscale (b.values t).1))
    if b.desc.dest = 2 then
      (s.engWrite b.desc.destAddr bytes).endItem seq (bagEnding i b)
    else if b.desc.dest = 1 then
      if s.xlt.denseCredits > 0 then
        ((s.modXlt (fun x => { x with denseCredits := x.denseCredits - 1 })).emit (.dense b.desc.destAddr bytes)).endItem seq
          (bagEnding i b)
      else s.modXlt (fun x => { x with denseWait := x.denseWait ++ [(seq, b.desc.destAddr, bytes)] })
    else
      let ts := b.tiles t bytes
      let s := s.modItem seq (fun i => { i with writes := ts.length })
      writeTiles s seq (b.gallery.getD 0) i.tenant b.desc.destAddr ts
  | _, _ => s

/-! ### Widening (R245 to R251) -/

/-- A tenant's widening area: base and size, if it has one (R245). -/
def State.widenArea (s : State) (tenant : Nat) : Option (Nat × Nat) :=
  let a := (s.reg Reg.GAL_WIDEN_BASE_LO).toNat + s.rbits Reg.GAL_WIDEN_BASE_HI 5 0 * 2 ^ 32 + 16 * tenant
  let e := s.memBytes a 16
  let w2 := ofLe ((e.drop 8).take 4)
  let lg := w2 % 32
  if w2 / 2 ^ 31 = 1 ∧ 16 ≤ lg ∧ lg ≤ 30 then some (ofLe (e.take 8), 2 ^ lg) else none

/-- A widened record (R247). -/
def State.widenRecord (s : State) (i : Item) (b : BagRun) (vs : List Val) (units : Nat) : List Byte :=
  let reason := b2n b.sat + 2 * b2n b.ovf
  let ring := match i.src with
    | .ring n => n
    | .lane _ => 0
  let hdr := [b.desc.table + b.desc.pool * 2 ^ 16 + b.desc.outFmt * 2 ^ 19 + reason * 2 ^ 22, (i.words.getD 3 0).toNat, ring,
    i.index, vs.length, maxAbs vs, units, s.hall.landing % 2 ^ 32, 0, 0, 0, 0, 0, 0, 0, 0]
  let body := hdr.flatMap (leBytes 4) ++ vs.flatMap (fun v => leBytes 8 (pairCode v))
  body ++ List.replicate (64 * units - body.length) 0

/-- Units of a widened record of n elements. -/
def widenUnits (n : Nat) : Nat := 1 + ceilDiv (8 * n) 64

/-- A bag has its final values and its widened record, if any: a BAG delivers its result; a bag of a set waits for the
others (R386, R393). -/
def State.settleBag (s : State) (seq k : Nat) : State :=
  let s := s.modBag seq k (fun b => { b with settled := true })
  match s.item seq with
  | some i => (match i.work with
    | .bag _ => if i.rck.isSome then s else s.deliver seq
    | _ => s)
  | none => s

/-- A widened record has been written (R250). -/
def State.widenWritten (s : State) (seq k off : Nat) : State :=
  ((s.bump Reg.GAL_WIDEN_CNT 1).modBag seq k (fun b => { b with widened := some off })).settleBag seq k

/-- No widened record for want of an area, of room or of EN (R250). -/
def State.widenLost (s : State) (seq k : Nat) : State := (s.bump Reg.GAL_WIDEN_LOST_CNT 1).settleBag seq k

/-- HEAD and TAIL_WB have been read: write the record when it fits, record first and then TAIL_WB, as one tile (R246,
R251). -/
def State.widenHead (s : State) (seq k : Nat) (ctl : List Byte) : State :=
  match s.item seq, s.bagOf seq k with
  | some i, some b =>
    match s.widenArea i.tenant with
    | none => s.widenLost seq k
    | some (base, size) =>
      let head := ofLe (ctl.take 4)
      let tail := ofLe ((ctl.drop 8).take 4)
      let ring := size / 64 - 1
      let vs := (b.values (s.bagTable b)).1
      let units := widenUnits vs.length
      let used := (tail + 2 ^ 32 - head) % 2 ^ 32
      if used + units > ring then s.widenLost seq k
      else
        let bytes := s.widenRecord i b vs units
        let at_ := tail % ring
        let run := min units (ring - at_)
        let off := 64 + 64 * at_
        let more := (if run < units then [(base + 64, bytes.drop (64 * run))] else [])
          ++ [(base + 8, leBytes 4 ((tail + units) % 2 ^ 32))]
        let (s, a) := s.hostTile reqBalloon i.tenant (base + off) (64 * run) (some (bytes.take (64 * run))) more
          (.widen seq k [] off) false
        match a with
        | .committed => s.widenWritten seq k off
        | .waiting => s
        | .fault perm at_ => s.failItem seq ⟨xlStatus perm, at_ - base, 4⟩
  | _, _ => s

/-- The bag has its final values: widen when due, then settle; a run of a RECHECK writes nothing (R250). -/
def State.widenOrSettle (s : State) (seq k : Nat) : State :=
  match s.item seq, s.bagOf seq k with
  | some i, some b =>
    if !(b.sat || b.ovf) || b.desc.noWiden || i.rck.isSome then s.settleBag seq k
    else if !(s.reg Reg.GAL_WIDEN_CTL).bit 0 then s.widenLost seq k
    else
      match s.widenArea i.tenant with
      | none => s.widenLost seq k
      | some (base, _) =>
        let (s, a) := s.hostAcc reqBalloon i.tenant base 16 none (.widenHead seq k) false
        match a with
        | .fault perm at_ => s.failItem seq ⟨xlStatus perm, at_ - base, 4⟩
        | _ => s
  | _, _ => s

/-! ### The finish (R248, R249) -/

/-- Every row of a bag has been pooled and nothing of it is outstanding. -/
def Item.bagReady (i : Item) (k : Nat) (b : BagRun) : Bool :=
  !b.done && !b.finishDue && decide (b.next ≥ b.desc.count) && i.outstanding k == 0

/-- A re-run of every chunk, or of the finish alone, for a bag whose output saturated or overflowed (R248, R249). -/
def State.startRerun (s : State) (seq k : Nat) (whole : Bool) : State :=
  s.modBag seq k (fun b => if whole then { b with rerun := true, next := 0, rows := [], cached := 0, kites := 0, balloon := 0 }
    else { b with rerun := true, finishDue := true })

/-- The finish of a bag: conversion, the check of saturation, and the re-run it calls for, or the widened record and the
delivery. -/
def State.bagFinish (s : State) (seq k : Nat) : State :=
  match s.item seq, s.bagOf seq k with
  | some i, some b =>
    if !i.bagReady k b then s
    else
      let t := s.bagTable b
      let (vs, ovf) := b.values t
      let cs := convOut (OutFmt.ofCode b.desc.outFmt) b.desc.oscale vs
      let sat := cs.any (·.sat)
      if !b.rerun && ovf then
        (s.modBag seq k (fun b => { b with ovf := true })).startRerun seq k true
      else if !b.rerun && sat && !b.desc.noWiden then
        (s.modBag seq k (fun b => { b with sat := true })).startRerun seq k (b.desc.pool == 4)
      else
        let esc := b.escCount t
        let s := s.bump Reg.DIR_ESC_OVR_CNT esc
        let s := if sat then s.bump Reg.GAL_SAT_CNT 1 else s
        let s := s.statBag (b.gallery.getD 0) b.desc.table (maxAbs vs) sat
        (s.modBag seq k (fun b => { b with sat := sat, escOvr := decide (esc > 0), done := true })).widenOrSettle seq k
  | _, _ => s

/-- The output bytes of a bag that has finished. -/
def State.bagBytes (s : State) (b : BagRun) : List Byte :=
  let f := OutFmt.ofCode b.desc.outFmt
  convBytes f (convOut f b.desc.oscale (b.values (s.bagTable b)).1)

end Sys2Proof.Machine
end

