-- ==== Sys2Proof/Machine/Array.lean ====
section
/-! DEFINITION. The arithmetic of the interaction array (R350 to R359), its outputs (R370 to R373), and of the vector
engine's stages (R394 to R398). -/
namespace Sys2Proof.Machine

open Sys2Proof.Config

/-! ### Formats and modes (R350) -/

/-- An operand format pairs with another: group size, promotion interval in steps, and whether the deep mode is REAL. -/
structure Pairing where
  g : Nat
  interval : Nat
  real : Bool
  kind : Nat               -- 0 integer, 1 FP8, 2 BF16
deriving DecidableEq, Repr

/-- The pairing of two formats, if the array takes them. -/
def pairing (a b : Nat) : Option Pairing :=
  if a < 4 ∧ b < 4 then
    let real := fmtEsc a || fmtEsc b
    if a < 2 ∧ b < 2 then some ⟨16, 512, real, 0⟩ else some ⟨8, 4, real, 0⟩
  else if (a = 4 ∨ a = 5) ∧ (b = 4 ∨ b = 5) then some ⟨8, 4, true, 1⟩
  else if a = 6 ∧ b = 6 then some ⟨4, 1, true, 2⟩
  else none

/-- An operand: its rows' elements, scale and zero point. -/
structure Opnd where
  rows : List (List Elem)
  fmt : Nat
  scale : Word
  zp : Int
deriving DecidableEq, Repr

/-- Rows of K elements at a stride, as table rows are laid out (R194 to R196). -/
def opndRows (fmt esc k stride n : Nat) (scale : Word) (zp : Int) (data : List Byte) : List (List Elem) :=
  (upto 0 n).map (fun i =>
    decodeElems fmt scale zp (roundUp (dataBytes fmt k) 2) esc (data.drop (i * stride)) 0 0 k)

/-! ### Cells (R351 to R357) -/

/-- The cell with every accumulator zero. -/
def Cell.zero : Cell := ⟨0, 0⟩

/-- Add an exact integer to an INT32 cell, which wraps; leaving 32 bits sets OVF (R353). -/
def Cell.addInt (c : Cell) (t : Int) : Cell :=
  let sum := signedOf 32 c.a + t
  ⟨twos 32 sum, if sum < -(2 ^ 31 : Int) ∨ sum ≥ (2 ^ 31 : Int) then 1 else c.b % 2⟩

/-- Add an exact term to an FP32 pair (R354); NaN and the infinities stay (R357). -/
def Cell.addTerm (c : Cell) (t : Val) : Cell :=
  let h := fFP32.decode c.a
  if h.isNan || t.isNan then ⟨fFP32.nanCode, 0⟩
  else
    match h, t with
    | .inf s, .inf u => if s = u then c else ⟨fFP32.nanCode, 0⟩
    | .inf _, _ => c
    | _, .inf u => ⟨fFP32.convInf (.inf u), 0⟩
    | _, _ => let (a, b) := pairAdd c.a c.b t; ⟨a, b⟩

/-- The value of a cell in units of its mode. -/
def Cell.value (c : Cell) (real : Bool) : Val :=
  if real then (if (fFP32.decode c.a).isNan || (fFP32.decode c.a).isInf then fFP32.decode c.a else pairVal c.a c.b)
  else .ofInt (signedOf 32 c.a)

/-- The integer an element enters the products as: its code, or the operand's zero point for an escape (R358). -/
def Elem.code' (e : Elem) (fmt : Nat) (zp : Int) : Int := if e.esc then zp else intCode fmt e.code

/-- The exact contribution of a pair with an escape (R358). -/
def escTerm (a b : Opnd) (x y : Elem) : Val :=
  if x.esc && y.esc then vmul x.val y.val
  else if y.esc then vmul (vmul (.ofInt (intCode a.fmt x.code - a.zp)) (fp32Val a.scale)) y.val
  else if x.esc then vmul x.val (vmul (.ofInt (intCode b.fmt y.code - b.zp)) (fp32Val b.scale))
  else .zero

/-- Split a list into runs of n. -/
def runsOf {α : Type} (n : Nat) (l : List α) (fuel : Nat) : List (List α) :=
  match fuel with
  | 0 => []
  | f + 1 => if l.isEmpty then [] else l.take n :: runsOf n (l.drop n) f

/-- The unbiased exponent of an FP8 code, the least normal one for a subnormal (R356). -/
def fp8Exp (fmt code : Nat) : Int :=
  let f := fmtFloat fmt
  let e := code % 128 / 2 ^ f.man
  (max e 1 : Nat) - (f.bias : Int)

/-- Divide an exact value by a power of two. -/
def Val.scale2 (v : Val) (e : Int) : Val :=
  match v with
  | .fin s n d => if e ≥ 0 then .fin s (n * 2 ^ e.toNat) d else .fin s n (d * 2 ^ (-e).toNat)
  | x => x

/-- The fast accumulator of an FP8 cell over its interval: mantissa and block exponent (R356). -/
structure Fast where
  m : Int
  e : Option Int
deriving DecidableEq, Repr

/-- One step of an FP8 cell: products with their exponents (R356). -/
def Fast.step (f : Fast) (ps : List (Val × Int)) : Fast :=
  let nz := ps.filter (fun (p, _) => !p.isZero)
  match nz with
  | [] => f
  | (_, e0) :: r =>
    let emax := r.foldl (fun (m : Int) (x : Val × Int) => if x.2 > m then x.2 else m) e0
    let g : Fast := match f.e with
      | none => ⟨f.m, some emax⟩
      | some eb => if emax > eb then ⟨((Val.ofInt f.m).scale2 (eb - emax)).roundInt, some emax⟩ else f
    let eb := g.e.getD emax
    ⟨nz.foldl (fun (m : Int) (x : Val × Int) => m + (x.1.scale2 (13 - eb)).roundInt) g.m, g.e⟩

/-- A cell takes one promotion interval of element pairs (R352, R355 to R358). -/
def Cell.interval (c : Cell) (p : Pairing) (a b : Opnd) (ps : List (Elem × Elem)) : Cell :=
  let sab := vmul (fp32Val a.scale) (fp32Val b.scale)
  if p.kind = 0 then
    let fast := ps.foldl (fun (m : Int) (x : Elem × Elem) => m + x.1.code' a.fmt a.zp * x.2.code' b.fmt b.zp) 0
    if p.real then
      let esc := (ps.filter (fun (x, y) => x.esc || y.esc)).map (fun (x, y) => escTerm a b x y)
      c.addTerm (Val.sum (vmul (.ofInt fast) sab :: esc))
    else c.addInt fast
  else
    let prods := ps.map (fun (x, y) => vmul x.raw y.raw)
    if p.kind = 2 then c.addTerm (vmul (Val.sum prods) sab)
    else if prods.any (fun v => v.isNan || v.isInf) then c.addTerm (Val.sum (prods.filter (fun v => v.isNan || v.isInf)))
    else
      let steps := runsOf p.g ((prods.zip ps).map (fun (v, x, y) => (v, fp8Exp a.fmt x.code + fp8Exp b.fmt y.code))) ps.length
      let f := steps.foldl (fun (f : Fast) st => f.step st) (⟨0, none⟩ : Fast)
      c.addTerm (vmul ((Val.ofInt f.m).scale2 (f.e.getD 0 - 13)) sab)

/-- A cell takes one operation's rows, before the zero-point correction. -/
def Cell.run (c : Cell) (p : Pairing) (a b : Opnd) (x y : List Elem) : Cell :=
  (runsOf (p.g * p.interval) (x.zip y) x.length).foldl (fun (c : Cell) ps => c.interval p a b ps) c

/-- The row sum of an operand's row, in codes (R359). -/
def rowSum (a : Opnd) (x : List Elem) : Int := x.foldl (fun (m : Int) (e : Elem) => m + e.code' a.fmt a.zp) 0

/-- The zero-point correction at an operation's end (R359). -/
def Cell.correct (c : Cell) (p : Pairing) (a b : Opnd) (rsum csum : Int) (k : Nat) : Cell :=
  if p.kind ≠ 0 then c
  else
    let corr := -(b.zp * rsum) - a.zp * csum + (k : Int) * a.zp * b.zp
    if p.real then c.addTerm (vmul (.ofInt corr) (vmul (fp32Val a.scale) (fp32Val b.scale))) else c.addInt corr

/-- Lengths of the s parts of a split of K (R379). -/
def splitLens (k g s : Nat) : List Nat :=
  let n := ceilDiv k (g * s) * g
  (upto 0 s).map (fun i => if i + 1 < s then min n (k - i * n) else k - i * n)

/-- Parts of a row under a split, in order. -/
def splitRow {α : Type} (lens : List Nat) (l : List α) : List (List α) :=
  match lens with
  | [] => []
  | n :: r => l.take n :: splitRow r (l.drop n)

/-- One cell of an operation: its parts in order, added in the first part's tile, and the correction (R379). -/
def opCell (c : Cell) (p : Pairing) (a b : Opnd) (k s : Nat) (x y : List Elem) (csum : Int) : Cell :=
  let lens := splitLens k p.g s
  let parts := (splitRow lens x).zip (splitRow lens y)
  let run := match parts with
    | [] => c
    | (x0, y0) :: r =>
      let first := c.run p a b x0 y0
      r.foldl (fun (acc : Cell) (xy : List Elem × List Elem) =>
        let q := Cell.zero.run p a b xy.1 xy.2
        if p.real then acc.addTerm (q.value true) else
          let z := acc.addInt (signedOf 32 q.a)
          ⟨z.a, max z.b (q.b % 2)⟩) first
  run.correct p a b (rowSum a x) csum k

/-! ### Output (R370 to R373) -/

/-- A requantisation entry. -/
structure Requant where
  mult : Word
  bias : Word
  cfg : Word
  bad : Option Nat
deriving DecidableEq, Repr

/-- The offset of the first failed check. -/
def firstOff (l : List (Bool × Nat)) : Option Nat := (l.find? (·.1)).map (·.2)

/-- The entry of 16 bytes, and the byte of the first field that is not as R370 gives for a mode and an output format. -/
def requantOf (bs : List Byte) (real : Bool) (out : Nat) : Requant :=
  let w := fun i => Word.ofNat (ofLe ((bs.drop (4 * i)).take 4))
  let zo := signedOf 8 ((w 2).bits 15 8)
  let zoOk := if out = 1 then decide (-8 ≤ zo ∧ zo ≤ 7) else if out = 2 then true else decide (zo = 0)
  ⟨w 0, w 1, w 2, firstOff
    [(real && decide ((w 2).bits 5 0 ≠ 0), 8), (decide ((w 2).bits 7 6 > 1), 8), (!zoOk, 9),
     (decide ((w 2).bits 31 16 ≠ 0), 10), (decide (w 3 ≠ 0), 12)]⟩

/-- The byte of a requantisation block at which its first bad entry fails. -/
def reqsBad (reqs : List Requant) : Option Nat :=
  ((upto 0 reqs.length).zip reqs).findSome? (fun (j, r) => r.bad.map (16 * j + ·))

/-- y of R371. -/
def requantY (r : Requant) (c : Cell) (real : Bool) : Val :=
  let y :=
    if real then
      let v := c.value true
      vmul (if v.isNan || v.isInf then v else Val.add v (fp32Val r.bias)) (fp32Val r.mult)
    else
      let i : Int := (signedOf 32 c.a + signedOf 32 r.bias.toNat) * (r.mult.toNat : Int)
      (Val.ofInt i).scale2 (-(r.cfg.bits 5 0 : Nat))
  if r.cfg.bit 6 && !y.isNan && !(Val.zero.lt y) then .zero else y

/-- Convert y into an array output format (R372): code and saturation. -/
def arrayConv (out : Nat) (zo : Int) (y : Val) : Conv :=
  let int := fun (w : Nat) =>
    match y with
    | .fin _ _ _ => convInt w (.ofInt (y.roundInt + zo))
    | v => convInt w v
  match out with
  | 1 => int 4
  | 2 => int 8
  | 3 => int 32
  | 4 => fE4M3.convSat y
  | 5 => fE5M2.convSat y
  | 6 => fBF16.convSat y
  | 7 => fFP16.convSat y
  | 8 => ⟨fFP32.convInf y, false⟩
  | _ => ⟨pairCode y, false⟩

/-- Bits per cell of an array output format. -/
def arrayBits (out : Nat) (real : Bool) : Nat :=
  match out with
  | 1 => 4 | 2 => 8 | 3 => 32 | 4 => 8 | 5 => 8 | 6 => 16 | 7 => 16 | 8 => 32 | 9 => 64
  | _ => if real then 64 else 32

/-- Pack codes of a width of 4 or of whole bytes, an odd run of four-bit codes ending with padding. -/
def packCodes (bits : Nat) (cs : List Nat) : List Byte :=
  if bits = 4 then
    (runsOf 2 cs cs.length).map (fun p => BitVec.ofNat 8 (p.getD 0 0 % 16 + 16 * (p.getD 1 0 % 16)))
  else cs.flatMap (leBytes (bits / 8))

/-- A finished output: bytes by row, the largest |y| as FP32, and the count of saturated cells. -/
structure ArrOut where
  rows : List (List Byte)
  maxabs : Nat
  sat : Nat
deriving DecidableEq, Repr

/-- Output of a tile's first n columns of each of its rows (R371 to R373). -/
def outRows (out : Nat) (real : Bool) (reqs : List Requant) (cells : List (List Cell)) : ArrOut :=
  let conv := cells.map (fun row => (row.zip (upto 0 row.length)).map (fun (c, j) =>
    if out = 10 then ((⟨if real then c.a + c.b * 2 ^ 32 else c.a, false⟩ : Conv), c.value real)
    else
      let r := reqs.getD j ⟨0, 0, 0, some 0⟩
      let y := requantY r c real
      (arrayConv out (signedOf 8 (r.cfg.bits 15 8)) y, y)))
  { rows := conv.map (fun row => packCodes (arrayBits out real) (row.map (fun x => x.1.code)))
    maxabs := maxAbs (conv.flatMap (fun row => row.map (·.2)))
    sat := sumNat (conv.map (fun row => (row.filter (fun x => x.1.sat)).length)) }

/-! ### Vector chains (R394 to R398) -/

/-- A chain's registers: 32 of 128 lanes, as 32-bit codes; an empty list stands for zeros. -/
abbrev VRegs := List (List Nat)

/-- A lane of a register. -/
def vget (r : VRegs) (n lane : Nat) : Nat := (r.getD n []).getD lane 0

/-- A register with all 128 lanes written out. -/
def vreg (r : VRegs) (n : Nat) : List Nat := (upto 0 128).map (vget r n)

/-- The registers with one replaced. -/
def vset (r : VRegs) (n : Nat) (v : List Nat) : VRegs :=
  updAt (if r.length < 32 then r ++ List.replicate (32 - r.length) [] else r) n (fun _ => v)

/-- A stage word (R397). -/
structure Stage where
  op : Nat
  dst : Nat
  sa : Nat
  sb : Nat
  sc : Nat
  imm : Option Nat
  int : Bool
deriving DecidableEq, Repr

/-- Read a stage word. -/
def Stage.ofWord (w : Word) : Stage :=
  ⟨w.bits 4 0, w.bits 9 5, w.bits 14 10, w.bits 19 15, w.bits 24 20, if w.bit 28 then some (w.bits 27 25) else none, w.bit 29⟩

/-- A float result rounded once to FP32 (R398). -/
def fr (v : Val) : Nat := fFP32.convInf v

/-- One lane of a stage that works lane by lane: the new code of DST from DST, SA, SB and SC. -/
def laneOp (st : Stage) (d a b c : Nat) : Nat :=
  let fa := fFP32.decode a
  let fb := fFP32.decode b
  let ia := signedOf 32 a
  let ib := signedOf 32 b
  match st.op, st.int with
  | 0x05, _ => a
  | 0x06, true => twos 32 (ia + ib)
  | 0x06, false => fr (Val.add fa fb)
  | 0x07, true => twos 32 (ia - ib)
  | 0x07, false => fr (Val.add fa fb.neg)
  | 0x08, true => twos 32 (ia * ib)
  | 0x08, false => fr (vmul fa fb)
  | 0x09, _ => fr (Val.add (vmul fa fb) (fFP32.decode c))
  | 0x0A, true => if ia < ib then b else a
  | 0x0A, false => fr (Val.max fa fb)
  | 0x0B, true => if ib < ia then b else a
  | 0x0B, false => fr (Val.min fa fb)
  | 0x0C, true => twos 32 (if ia < 0 then -ia else ia)
  | 0x0C, false => fr fa.abs
  | 0x0D, true => twos 32 (-ia)
  | 0x0D, false => fr fa.neg
  | 0x0E, true => if ia > 0 then a else 0
  | 0x0E, false => if fa.isNan then fFP32.nanCode else if Val.zero.lt fa then a else 0
  | 0x0F, true => twos 32 (signedOf 32 d + ia)
  | 0x0F, false => fr (Val.add (fFP32.decode d) fa)
  | _, _ => d

/-- What a pass of a chain loads and stores: elements for LOAD0 and LOAD1 (codes ready for a register), and what STORE
and STORE_RED have to write. -/
structure VPass where
  regs : VRegs
  out : List Conv
  red : List Conv
deriving DecidableEq, Repr

/-- Convert active lanes for a store (R397, R398). -/
def vstore (fmt : Nat) (int : Bool) (scale : Word) (a lo : List Nat) : List Conv :=
  let f := OutFmt.ofCode fmt
  if int then a.map (fun c => f.conv ((Val.ofInt (signedOf 32 c)).divPos (fp32Val scale)))
  else if f = .fp32Pair then
    (a.zip lo).map (fun (h, l) => f.conv (((⟨h, l⟩ : Cell).value true).divPos (fp32Val scale)))
  else a.map (fun c => f.conv ((fFP32.decode c).divPos (fp32Val scale)))

/-- One stage over the active lanes of a pass. -/
def stageStep (st : Stage) (scal : List Word) (act : Nat) (in0 in1 : List Nat) (outF redF : Nat) (scale : Word)
    (last : Bool) (redN : Nat) (p : VPass) : VPass :=
  let r := p.regs
  let sb := match st.imm with
    | some k => List.replicate 128 (scal.getD k 0).toNat
    | none => vreg r st.sb
  let a := vreg r st.sa
  let c := vreg r st.sc
  let d := vreg r st.dst
  let keep := fun (v : List Nat) => vset r st.dst (v.take act ++ d.drop act)
  match st.op with
  | 0x00 => p
  | 0x01 => { p with regs := vset r st.dst (in0 ++ List.replicate (128 - in0.length) 0) }
  | 0x02 => { p with regs := vset r st.dst (in1 ++ List.replicate (128 - in1.length) 0) }
  | 0x03 => { p with out := vstore outF st.int scale (a.take act) ((vreg r (st.sa + 1)).take act) }
  | 0x04 => if last then { p with red := vstore redF st.int scale (a.take redN) ((vreg r (st.sa + 1)).take redN) } else p
  | 0x10 =>
    let lo := vreg r (st.dst + 1)
    let q := (upto 0 act).map (fun i => pairAdd (d.getD i 0) (lo.getD i 0) (fFP32.decode (a.getD i 0)))
    let r := vset r st.dst (q.map (·.1) ++ d.drop act)
    { p with regs := vset r (st.dst + 1) (q.map (·.2) ++ lo.drop act) }
  | 0x11 =>
    let v := if st.int then twos 32 ((a.take act).foldl (fun (m : Int) x => m + signedOf 32 x) 0)
      else fr (Val.sum ((a.take act).map fFP32.decode))
    { p with regs := vset r st.dst (v :: List.replicate 127 0) }
  | 0x12 =>
    let xs := a.take act
    let v := if st.int then twos 32 (xs.foldl (fun (m : Int) x => max m (signedOf 32 x)) (signedOf 32 (xs.headD 0)))
      else match xs.map fFP32.decode with
        | [] => 0
        | y :: ys => fr (ys.foldl Val.max y)
    { p with regs := vset r st.dst (v :: List.replicate 127 0) }
  | _ =>
    { p with regs := keep ((upto 0 act).map (fun i =>
        laneOp st (d.getD i 0) (a.getD i 0) (sb.getD i 0) (c.getD i 0))) }

end Sys2Proof.Machine
end

