-- ==== Sys2Proof/Machine/GalOps.lean ====
section
/-! DEFINITION. What ARRAY_OP, TILE_READ, TILE_WRITE, VEC_CHAIN and BAG_INTERACT do once admitted (R360 to R369, R374 to
R401): their inputs, held tiles, passes, layers and results, and RECHECK's bookkeeping of runs (R606 to R608). -/
namespace Sys2Proof.Machine

open Sys2Proof.Config

/-! ### Words of the work -/

/-- The words an item works from: its packet's, or a RECHECK's inner packet. -/
def Item.iw (i : Item) : List Word :=
  match i.rck with
  | some r => r.words
  | none => i.words

/-- A word of unit u (counted from 1) of a packet. -/
def uw (ws : List Word) (u n : Nat) : Word := ws.getD (8 * (u - 1) + n) 0

/-- A 64-bit field of a unit. -/
def uw64 (ws : List Word) (u n : Nat) : Nat := Word.pair (uw ws u n) (uw ws u (n + 1))

/-- The opcode an item works as. -/
def Item.iop (i : Item) : Nat := (uw i.iw 1 0).bits 15 0

/-- Change the work of an item. -/
def State.setWork (s : State) (seq : Nat) (w : Work) : State := s.modItem seq (fun i => { i with work := w })

/-- Every chunk of an item is complete. -/
def State.chunksDone (s : State) (seq : Nat) : State := s.modItem seq (fun i => { i with chunks := [] })

/-! ### Inputs -/

/-- AUX of a failed input of one of the four gallery opcodes (R401); a set's list counts as its list (R257). -/
def Item.inputAux (i : Item) (wh : Nat) (mem : Bool) : Nat := if i.iop = 2 ∨ i.iop = 0x20 then 0 else wh * 16 + 128 * b2n mem

/-- A held tile is released. -/
def State.dropTile (s : State) (k : Nat) : State := { s with tiles := mapDel s.tiles k }

/-- An input has come. -/
def State.putInput (s : State) (seq key : Nat) (data : List Byte) : State :=
  s.modItem seq (fun i => { i with inputs := mapSet i.inputs key data })

/-- An input has been asked for and has not come. -/
def State.inputAsked (s : State) (seq key : Nat) : Bool :=
  s.xlt.accs.any (fun a => match a.purpose with
    | .input i k _ => i == seq && k == key
    | _ => false)

/-- The start of the structure that an input is part of (R258, R401, R490). -/
def Item.inputBase (i : Item) (key addr : Nat) : Nat :=
  if i.iop = 0x18 then uw64 i.iw 2 (2 * (key % 2))
  else if i.iop = 0x20 then uw64 i.iw 1 6
  else addr

/-- An input of a gallery's dense-input stream: an A operand, or a set's dense features (Translation prefetch). -/
def denseInput (op key : Nat) : Bool := (op == 0x10 && key == 0) || (op == 2 && key == 102)

/-- The opcodes of R382, whose memory errors end them as page failures do. -/
def Item.memAsPage (i : Item) : Bool := i.iop == 0x10 || i.iop == 0x11 || i.iop == 0x12 || i.iop == 0x18

/-- Ask for an input in host or engine memory, once (R382, R491). -/
def State.needInput (s : State) (seq key wh : Nat) (eng : Bool) (addr len : Nat) : State :=
  match s.item seq with
  | none => s
  | some i =>
    if (mapGet i.inputs key).isSome || s.inputAsked seq key then s
    else if len = 0 then s.putInput seq key []
    else if eng then
      let s := s.drawRange addr len (s.tenant i.tenant).part
      let (s, rd) := s.engRead addr len .good
      match rd.bad with
      | some l =>
        if i.memAsPage then s.failItem seq ⟨St.xlateFault, max l addr - i.inputBase key addr, i.inputAux wh true⟩
        else s.failItem seq ⟨St.memUnc, s.hallAddr l, 0⟩
      | none => s.putInput seq key rd.data
    else
      let s := match i.gallery with
        | some g => if denseInput i.iop key then s.detect (1000 + g) (s.pasidOf i.tenant) g addr len else s
        | none => s
      let (s, a) := s.hostAcc (i.gallery.getD reqConc) i.tenant addr len none (.input seq key wh) false
      match a with
      | .fault perm at_ => s.failItem seq ⟨xlStatus perm, at_ - i.inputBase key addr, i.inputAux wh false⟩
      | _ => s

/-- An input as bytes. -/
def Item.input (i : Item) (key : Nat) : List Byte := (mapGet i.inputs key).getD []

/-- Every listed input has come. -/
def Item.have (i : Item) (keys : List Nat) : Bool := keys.all (fun k => (mapGet i.inputs k).isSome)

/-! ### Rows of replicated tables as operands (R376, R407) -/

/-- Read one row of a replicated table for a gallery operation: pinned, from the cache, or from a stairwell, allocated
where R407 allows. The page it activated, if any, and the offset of a line that failed. -/
def State.readWeightRow (s : State) (tenant table slot row : Nat) : State × List Byte × Option Nat × Option Nat :=
  match s.table table with
  | none => (s, [], none, none)
  | some t =>
    let addr := t.replAddr slot row
    let n := t.rowSize
    if t.pin then
      let (s, rd) := s.engRead (pinBase + addr) n .good
      (s, rd.data, none, rd.bad.map (fun l => max l (pinBase + addr) - (pinBase + addr)))
    else
      let ten := s.tenant tenant
      let tags := (s.rowTags t table slot row ⟨.local, addr, s.engineId, 0, false⟩).1
      let look := s.rcActive && t.lookOk slot
      let (s, hit) := if look then s.lookRow ten.rcClass tags else (s, none)
      match hit with
      | some d => (s, (d.drop (addr % 64)).take n, none, none)
      | none =>
        let s := s.drawRange addr n ten.part
        let (s, rd) := s.stwRead addr n .good
        match rd.bad with
        | some l => (s, [], some (addr / 2048), some (max l addr - addr))
        | none =>
          let s := if look && t.allocOk slot then
              tags.foldl (fun (s : State) tg =>
                s.rcAlloc ten.rcClass ten.rcWays tg (s.memBytes (tg.key * 64 % 2 ^ 38) 64)) s
            else s
          (s, rd.data, some (addr / 2048), none)

/-- What reading several rows gave: their bytes at the table's stride, the DRAM rows activated, and the first failure as
an offset from row 0. -/
structure WRows where
  data : List Byte
  pages : List Nat
  bad : Option Nat
deriving DecidableEq, Repr

/-- Read rows first, first + 1, … of a replicated table. -/
def State.readWeights (s : State) (tenant table slot first n : Nat) : State × WRows :=
  let stride := (s.table table).elim 0 Table.stride
  (upto 0 n).foldl (fun (acc : State × WRows) i =>
    let (s, w) := acc
    if w.bad.isSome then (s, w)
    else
      let (s, d, page, bad) := s.readWeightRow tenant table slot (first + i)
      let pages := match page with
        | some p => if w.pages.contains p then w.pages else w.pages ++ [p]
        | none => w.pages
      (s, ⟨w.data ++ d ++ List.replicate (stride - d.length) 0, pages, bad.map (fun b => i * stride + b)⟩)) (s, ⟨[], [], none⟩)

/-- Charges of rows of a replicated table before they are read: one activate each, none for pinned rows (R376, R380). -/
def State.weightActs (s : State) (table slot first n : Nat) : List Nat :=
  match s.table table with
  | none => [0, 0, 0, 0]
  | some t => if t.pin then [0, 0, 0, 0] else actsOf ((upto 0 n).map (fun i => t.replAddr slot (first + i)))

/-- Refund the activates of a chunk down to the DRAM rows it used (R227, R380). -/
def State.refundActs (s : State) (c : Chunk) (pages : List Nat) : State :=
  let used := actsOf (pages.map (· * 2048))
  let back := (c.charge.acts.zip used).map (fun (a, u) => a - u)
  s.refund c.flight c.promoted { Charge.zero with acts := back }

/-! ### RECHECK's runs -/

/-- The work a run starts from: its words' own, the binding of the first run kept (R606). -/
def Work.again (w : Work) : Work :=
  match w with
  | .bag b => .bag { BagRun.start b.desc (if b.desc.listPtr then [] else b.ids) (if b.desc.wgt = 1 then b.wts else []) with bind := b.bind }
  | .interact bs ls _ _ _ _ =>
    .interact (bs.map (fun b => { BagRun.start b.desc [] [] with bind := b.bind })) ls 0 [] false false
  | .array b _ _ _ _ => .array b false false 0 0
  | .vec _ _ => .vec 0 0
  | x => x

/-- Galleries a RECHECK can choose: spares first, then the lowest enabled ones (R606). -/
def State.rckPool (s : State) (taken : List Nat) : List Nat :=
  let ok := fun (g : Gal) => !g.fenced && !g.quiesced && !g.testing
  (galsWhere s.gals (fun g => ok g && !g.enabled) ++ galsWhere s.gals (fun g => ok g && g.enabled)).filter
    (fun n => !taken.contains n)

/-- An item's working tiles are free again (Accumulator tiles). -/
def State.clearWork (s : State) (seq : Nat) : State :=
  { s with gals := s.gals.map (fun (g : Gal) => if g.working = some seq then { g with working := none } else g) }

/-- A run of a RECHECK has its result: the next run starts, or the packet has its outcome (R606 to R608). The outcome's
own effects on galleries and records are made where the outcome is reported. -/
def State.runDone (s : State) (seq : Nat) (bytes : List Byte) : State :=
  match s.item seq with
  | none => s
  | some i =>
    match i.rck with
    | none => s
    | some r =>
      let r := { r with runs := r.runs ++ [bytes] }
      (s.clearWork seq).modItem seq (fun i => { i with rck := some r, chunks := [], inputs := [], gallery := none, work := i.work.again })

/-! ### Held tiles (R361 to R369) -/

/-- Key of a held tile. -/
def tileKey (tenant n : Nat) : Nat := tenant * 16 + n

/-- Code of a held tile's state (R361). -/
def State.tileCode (s : State) (key : Nat) : Nat :=
  match mapGet s.tiles key with
  | none => 0
  | some t => if t.lost then 2 else 1

/-- An ARRAY_OP that is tenant 0's release of another tenant's tile and runs no operation: its A descriptor has no stride
(R374). -/
def arrForeign (ws : List Word) : Bool := !(uw ws 1 4).bit 4 && decide ((uw ws 1 4).bits 6 5 = 2) && uw ws 2 1 == 0

/-- The held tile an item's packet names. -/
def Item.tile (i : Item) : Option Nat :=
  let w4 := uw i.iw 1 4
  if i.iop = 0x10 then
    if w4.bit 4 then none
    else if arrForeign i.iw then some (tileKey ((uw i.iw 2 0).bits 11 0) (w4.bits 3 0))
    else some (tileKey i.tenant (w4.bits 3 0))
  else if i.iop = 0x11 ∨ i.iop = 0x12 then some (tileKey i.tenant (w4.bits 3 0))
  else none

/-- The TOWN check of R362: nothing where the tile's state suits the action, or the DETAIL it ends with. -/
def State.townBad (s : State) (key town : Nat) : Option Nat :=
  let c := s.tileCode key
  match town with
  | 0 => if c = 1 then none else some c
  | 1 => if c ≠ 0 then some c else if s.tiles.length ≥ 1024 then some 0xFF else none
  | _ => if c = 0 then some 0 else none

/-- Slots 0 to 2 of a gallery that hold no tile. -/
def State.freeSlots (s : State) (gal : Nat) : List Nat :=
  (upto 0 3).filter (fun k => !s.tiles.any (fun (_, t) => t.home == some (gal, k)))

/-- Change a held tile. -/
def State.modTile (s : State) (key : Nat) (f : Tile → Tile) : State := { s with tiles := mapMod s.tiles key f }

/-- Galleries that can be given work: enabled, not fenced, not quiesced and not under test. -/
def Gal.usable (g : Gal) : Bool := g.enabled && !g.fenced && !g.quiesced && !g.testing

/-- Some usable gallery has a free slot. -/
def State.anySlot (s : State) : Bool := (galsWhere s.gals Gal.usable).any (fun n => !(s.freeSlots n).isEmpty)

/-- A tenant's spill base (R365). -/
def State.spillBase (s : State) (tenant : Nat) : Option Nat :=
  let a := (s.reg Reg.GAL_SPILL_BASE_LO).toNat + s.rbits Reg.GAL_SPILL_BASE_HI 5 0 * 2 ^ 32 + 16 * tenant
  let e := s.memBytes a 16
  if ofLe ((e.drop 8).take 4) / 2 ^ 31 = 1 then some (ofLe (e.take 8)) else none

/-- A tile image (R384). -/
def tileImage (t : Tile) : List Byte :=
  (upto 0 16384).flatMap (fun i =>
    let c := (mapGet t.cells i).getD .zero
    leBytes 4 c.a ++ leBytes 4 c.b)

/-- The cells of an image under a mode; `ovf` gives the flags of a restored tile, which stay on chip (R367). -/
def imageCells (real : Bool) (bs : List Byte) (ovf : Option (SMap Cell)) : SMap Cell :=
  (upto 0 16384).filterMap (fun i =>
    let a := ofLe ((bs.drop (8 * i)).take 4)
    let b := ofLe ((bs.drop (8 * i + 4)).take 4)
    let b := if real then b else match ovf with
      | some m => ((mapGet m i).getD .zero).b % 2
      | none => b % 2
    if a = 0 ∧ b = 0 then none else some (i, ⟨a, b⟩))

/-- A spill's copy-byte units: never deferred, in the manner of R79 (R367). -/
def State.chargeTileSpill (s : State) : State :=
  let n := 2048
  let c : Charge := { Charge.zero with cpy := n }
  let pj := s.energyPj c
  s.modFlt (fun f =>
    let room := f.eff.cpy - f.used.cpy - f.lost.cpy
    { f with used := { f.used with cpy := f.used.cpy + min n room, nrg := f.used.nrg + pj }
             debtCpy := f.debtCpy + (n - room)
             nrg := { f.nrg with chargedPj := f.nrg.chargedPj + pj } })

/-- A tile's spill has been written: its slot is free, and OVF flags and the mode stay on chip (R367). -/
def State.tileSpilled (s : State) (key : Nat) : State :=
  (s.modTile key (fun t => { t with
    home := none
    cells := t.cells.filterMap (fun (i, c) => if !t.real && c.b % 2 = 1 then some (i, (⟨0, 1⟩ : Cell)) else none) })).bump
    Reg.GAL_SPILL_CNT 1

/-- A spill that faults writes nothing, and the tile is not chosen again until its next operation (R368). -/
def State.spillFault (s : State) (key : Nat) : State :=
  (s.modTile key (fun t => { t with noSpill := true })).bump Reg.GAL_SPILL_FAULT_CNT 1

/-- No slot is free and an operation needs one: the spillable tile longest unused is spilled, or the operation is counted
as waiting (R366). -/
def State.spillForSlot (s : State) (seq : Nat) : State :=
  let busy := fun (k : Nat) => s.conc.items.any (fun i => i.admitted && i.tile == some k)
  let going := s.xlt.accs.any (fun a => match a.purpose with
    | .spill _ => true
    | _ => false)
  let cand := s.tiles.filter (fun (k, t) => t.home.isSome && !t.noSpill && !busy k && (s.spillBase t.tenant).isSome
    && (s.reg Reg.GAL_SPILL_CTL).bit 0)
  let best := cand.foldl (fun (b : Option (Nat × Tile)) x => match b with
    | none => some x
    | some y => if x.2.lastUse < y.2.lastUse then some x else some y) none
  if going then s
  else
    match best with
    | some (k, t) =>
      let base := (s.spillBase t.tenant).getD 0 + t.num * 0x20000
      let (s, a) := s.chargeTileSpill.hostAcc reqBalloon t.tenant base 0x20000 (some (tileImage t)) (.spill k) false
      match a with
      | .committed => s.tileSpilled k
      | .waiting => s
      | .fault _ _ => s.spillFault k
    | none =>
      match s.item seq with
      | some i => if i.waited then s
        else (s.modItem seq (fun i => { i with waited := true })).bump Reg.GAL_SLOT_WAIT_CNT 1
      | none => s

/-! ### ARRAY_OP (R374 to R382) -/

/-- The fields of an ARRAY_OP. -/
structure ArrPkt where
  tile : Nat
  work : Bool
  town : Nat
  acc : Bool
  out : Nat
  split : Nat
  m : Nat
  n : Nat
  dest : Nat
  k : Nat
  destAddr : Nat
  a : Operand
  b : Operand
  table : Nat
  req : Nat
  reqEng : Bool
  ostride : Nat
deriving DecidableEq, Repr

/-- An operand descriptor (R375). -/
def Operand.ofUnit (ws : List Word) (u : Nat) : Operand where
  fmt := (uw ws u 0).bits 3 0
  esc := (uw ws u 0).bits 6 4
  loc := (uw ws u 0).bits 8 7
  stride := (uw ws u 1).toNat
  scale := uw ws u 2
  zp := signedOf 16 ((uw ws u 3).bits 15 0)
  addr := uw64 ws u 4
  sums := uw64 ws u 6

/-- Read an ARRAY_OP's packet (R374, R377). -/
def ArrPkt.ofWords (ws : List Word) : ArrPkt where
  tile := (uw ws 1 4).bits 3 0
  work := (uw ws 1 4).bit 4
  town := (uw ws 1 4).bits 6 5
  acc := (uw ws 1 4).bit 7
  out := (uw ws 1 4).bits 11 8
  split := (uw ws 1 4).bits 15 12 + 1
  m := (uw ws 1 4).bits 22 16 + 1
  n := (uw ws 1 4).bits 29 23 + 1
  dest := (uw ws 1 4).bits 31 30
  k := (uw ws 1 5).bits 23 0 + 1
  destAddr := uw64 ws 1 6
  a := Operand.ofUnit ws 2
  b := Operand.ofUnit ws 3
  table := (uw ws 1 2).bits 15 0
  req := uw64 ws 4 0
  reqEng := (uw ws 4 2).bit 0
  ostride := (uw ws 4 3).toNat

/-- Operand B with the fields a table gives it (R376). -/
def State.opndB (s : State) (p : ArrPkt) : Operand :=
  if p.b.loc ≠ 2 then p.b
  else
    match s.table p.table with
    | none => p.b
    | some t => { p.b with fmt := t.format, esc := t.esc, stride := t.stride, scale := t.scale, zp := t.zp }

/-- Bytes an operand of n rows of K elements covers. -/
def Operand.len (o : Operand) (n k : Nat) : Nat := (n - 1) * o.stride + rowBytes o.fmt k o.esc

/-- The inputs an ARRAY_OP reads: SUMS (2) only for a zero point, requantisation entries (3) unless NONE or FULL. -/
def ArrPkt.wantSums (p : ArrPkt) : Bool := fmtInt p.a.fmt && p.a.zp != 0

/-- It reads requantisation entries. -/
def ArrPkt.wantReq (p : ArrPkt) : Bool := p.out != 0 && p.out != 10

/-- Bytes of one output row. -/
def ArrPkt.rowOut (p : ArrPkt) (real : Bool) : Nat := ceilDiv (p.n * arrayBits p.out real) 8

/-- The charge of an ARRAY_OP (R380). -/
def State.arrayCharge (s : State) (i : Item) (p : ArrPkt) : Charge :=
  if arrForeign i.iw then .zero
  else
    let b := s.opndB p
    let pr := (pairing p.a.fmt b.fmt).getD ⟨1, 1, false, 0⟩
    let parts := splitLens p.k pr.g p.split
    let arr := sumNat (parts.map (fun k => ceilDiv k pr.g + 16)) + (if p.out = 0 then 0 else p.m)
    let vec := (p.split - 1) * p.m * (if pr.real then 2 else 1)
    let host := fun (yes : Bool) (n : Nat) => if yes then ceilDiv n 64 else 0
    let restore := match i.tile with
      | some k => (match mapGet s.tiles k with
        | some t => if t.home.isNone && !t.lost then 2048 else 0
        | none => 0)
      | none => 0
    let acts := if b.loc = 2 then s.weightActs p.table ((s.table p.table).elim 0 (·.cur)) b.addr p.n
      else if b.loc = 1 ∧ b.addr < memLimit then actsOf ((upto 0 p.n).map (fun j => b.addr + j * b.stride))
      else [0, 0, 0, 0]
    { Charge.zero with
      acts := acts
      arr := arr
      vec := vec
      cpy := host (p.a.loc == 0) (p.a.len p.m p.k) + host (b.loc == 0) (b.len p.n p.k)
        + host (p.wantSums && p.b.loc != 1) (4 * p.n) + host (p.wantReq && !p.reqEng) (16 * p.n)
        + host (p.out != 0 && p.dest == 0) (p.m * p.rowOut pr.real) + restore }

/-- Column sums from their bytes. -/
def sumsOf (bs : List Byte) (n : Nat) : List Int := (upto 0 n).map (fun j => signedOf 32 (ofLe ((bs.drop (4 * j)).take 4)))

/-- The state of an operation's tile when it starts: mode and cells, by row. -/
def State.tileCells (s : State) (i : Item) (p : ArrPkt) : List (List Cell) :=
  let cells := match i.tile with
    | some k => ((mapGet s.tiles k).map (·.cells)).getD []
    | none => []
  if !p.acc then (upto 0 p.m).map (fun _ => List.replicate p.n .zero)
  else (upto 0 p.m).map (fun r => (upto 0 p.n).map (fun c => (mapGet cells (r * 128 + c)).getD .zero))

/-- The result of an ARRAY_OP whose inputs are all there: its cells, its output, and the row sums. -/
structure ArrRes where
  cells : List (List Cell)
  out : ArrOut
  real : Bool
  rsums : List Int
  reqBad : Option Nat
  reqs : List Requant
deriving DecidableEq, Repr

/-- Compute an ARRAY_OP. -/
def State.arrayCompute (s : State) (i : Item) (p : ArrPkt) : ArrRes :=
  let bo := s.opndB p
  let pr := (pairing p.a.fmt bo.fmt).getD ⟨1, 1, false, 0⟩
  let a : Opnd := ⟨opndRows p.a.fmt p.a.esc p.k p.a.stride p.m p.a.scale p.a.zp (i.input 0), p.a.fmt, p.a.scale, p.a.zp⟩
  let b : Opnd := ⟨opndRows bo.fmt bo.esc p.k bo.stride p.n bo.scale bo.zp (i.input 1), bo.fmt, bo.scale, bo.zp⟩
  let sums := if p.wantSums then sumsOf (i.input 2) p.n else List.replicate p.n 0
  let start := s.tileCells i p
  let cells := (start.zip a.rows).map (fun (row, x) =>
    (row.zip (b.rows.zip sums)).map (fun (c, y, cs) => opCell c pr a b p.k p.split x y cs))
  let reqs := (upto 0 p.n).map (fun j => requantOf (((i.input 3).drop (16 * j)).take 16) pr.real p.out)
  { cells := cells
    out := if p.out = 0 then ⟨[], 0, 0⟩ else outRows p.out pr.real reqs cells
    real := pr.real
    rsums := a.rows.map (rowSum a)
    reqBad := if p.wantReq then reqsBad reqs else none
    reqs := if p.wantReq then reqs else [] }

/-- Cells of a tile that are not zero, by index. -/
def cellMap (rows : List (List Cell)) : SMap Cell :=
  ((upto 0 rows.length).zip rows).flatMap (fun (r, row) =>
    ((upto 0 row.length).zip row).filterMap (fun (c, x) => if x = Cell.zero then none else some (r * 128 + c, x)))

/-- A finished operation's registers in its gallery (R359, R370). -/
def State.loadReqs (s : State) (gal set : Nat) (reqs : List Requant) (sums rsums : List Int) : State :=
  s.modGal gal (fun g => { g with
    req := ((upto 0 reqs.length).zip reqs).foldl (fun m (j, r) => mapSet m (set * 128 + j % 128) (r.mult, r.bias, r.cfg)) g.req
    colsum := ((upto 0 sums.length).zip sums).foldl (fun m (j, v) => mapSet m (set * 128 + j % 128) (Word.ofNat (twos 32 v))) g.colsum
    rowsum := ((upto 0 rsums.length).zip rsums).foldl (fun m (j, v) => mapSet m (j % 128) (Word.ofNat (twos 32 v))) g.rowsum })

/-- An ARRAY_OP's output is written, or it has none: the tile takes its cells, and the packet ends (R362, R382, R401). -/
def State.arrayDone (s : State) (seq : Nat) : State :=
  match s.item seq with
  | none => s
  | some i =>
    let p := ArrPkt.ofWords i.iw
    let r := s.arrayCompute i p
    let restored := match i.work with
      | .array _ x _ _ _ => x
      | _ => false
    let ovf := !r.real && r.cells.any (fun row => row.any (fun c => c.b % 2 == 1))
    let sums := if p.wantSums then sumsOf (i.input 2) p.n else List.replicate p.n 0
    let s := s.loadReqs (i.gallery.getD 0) 0 r.reqs sums r.rsums
    let s := if ovf then s.bump Reg.GAL_ARR_OVF_CNT 1 else s
    let s := if r.out.sat > 0 then s.bump Reg.GAL_ASAT_CNT 1 else s
    let s := match i.tile with
      | none => s
      | some k =>
        if p.town = 2 then s.dropTile k
        else s.modTile k (fun t => { t with
          real := if p.acc then t.real else r.real
          cells := if p.acc then (cellMap r.cells).foldl (fun m (x, c) => mapSet m x c)
              (t.cells.filter (fun (x, _) => !(decide (x / 128 < p.m) && decide (x % 128 < p.n))))
            else cellMap r.cells
          lastUse := s.now
          noSpill := false })
    s.endItem seq ⟨St.ok, r.out.maxabs + min r.out.sat 0xFFFF * 2 ^ 32,
      b2n (decide (r.out.sat > 0)) + 2 * b2n ovf + 4 * b2n restored + 8 * b2n i.moved⟩

/-- The bytes of an output whose rows lie at a stride, free bytes between them (DENSE; log 18). -/
def rowsImage (rows : List (List Byte)) (stride seed : Nat) : List Byte :=
  ((upto 0 rows.length).zip rows).flatMap (fun (j, r) =>
    if j + 1 < rows.length then r ++ (upto 0 (stride - r.length)).map (fun x => freeByte seed (j * stride + x)) else r)

/-- Every input of an ARRAY_OP is there: compute it and write its output as one tile (R382). -/
def State.arrayExec (s : State) (seq : Nat) : State :=
  match s.item seq with
  | none => s
  | some i =>
    let p := ArrPkt.ofWords i.iw
    let keys := [0, 1] ++ (if p.wantSums then [2] else []) ++ (if p.wantReq then [3] else [])
    let spilled := match i.tile with
      | some k => ((mapGet s.tiles k).map (fun t => t.home.isNone)).getD false
      | none => false
    if !i.have keys || spilled || i.writes > 0 then s
    else
      let r := s.arrayCompute i p
      match r.reqBad with
      | some at_ => s.failItem seq ⟨St.badField, at_, 0⟩
      | none =>
      if p.out = 0 then s.arrayDone seq
      else
      let (s, rows) := s.injected i.gallery r.out.rows
      if i.rck.isSome then s.runDone seq (rows.flatMap id)
      else if p.dest = 2 then
        (((upto 0 rows.length).zip rows).foldl (fun (s : State) (j, bs) =>
          s.engWrite (p.destAddr + j * p.ostride) bs) s).arrayDone seq
      else if p.dest = 1 then
        let bytes := rowsImage rows p.ostride s.freeSeq
        let s := s.draw
        if s.xlt.denseCredits > 0 then
          ((s.modXlt (fun x => { x with denseCredits := x.denseCredits - 1 })).emit (.dense p.destAddr bytes)).arrayDone seq
        else
          (s.modXlt (fun x => { x with denseWait := x.denseWait ++ [(seq, p.destAddr, bytes)] })).modItem seq
            (fun i => { i with writes := 1 })
      else
        let more := ((upto 0 rows.length).zip rows).drop 1 |>.map (fun (j, bs) => (p.destAddr + j * p.ostride, bs))
        let first := rows.headD []
        let s := s.modItem seq (fun i => { i with writes := 1 })
        let (s, a) := s.hostTile (i.gallery.getD 0) i.tenant p.destAddr first.length (some first) more (.result seq 0 0) false
        match a with
        | .committed => s.arrayDone seq
        | .waiting => s
        | .fault perm at_ => s.failItem seq ⟨xlStatus perm, at_ - p.destAddr, 4 * 16⟩

/-- An item ends at the admission of its chunk with everything refunded (R634). -/
def State.failAdmit (s : State) (seq : Nat) (c : Chunk) (e : Ending) : State := s.failChunk seq c e

/-- Ask for the image of a spilled tile (R367). -/
def State.askRestore (s : State) (seq key : Nat) : State :=
  match s.item seq, mapGet s.tiles key with
  | some _, some t =>
    if t.home.isSome || t.lost then s
    else
      let base := (s.spillBase t.tenant).getD 0 + t.num * 0x20000
      let s := match s.pasidOf t.tenant with
        | some p => (pages4k base 0x20000).foldl (fun (s : State) pg => s.hotCount p t.tenant pg 0xFFFF none) s
        | none => s
      let (s, a) := s.hostAcc reqBalloon t.tenant base 0x20000 none (.restore seq key) false
      match a with
      | .fault perm at_ => s.failItem seq ⟨xlStatus perm, at_ - base, 5 * 16⟩
      | _ => s
  | _, _ => s

/-- A restored tile's image has come: it takes a slot of its item's gallery (R367). -/
def State.tileRestored (s : State) (seq key : Nat) (data : List Byte) : State :=
  match s.item seq with
  | none => s
  | some i =>
    let g := i.gallery.getD 0
    let s := s.modTile key (fun t => { t with
      cells := imageCells t.real data (some t.cells), home := some (g, (s.freeSlots g).headD 0), lastUse := s.now })
    let s := s.bump Reg.GAL_RESTORE_CNT 1
    s.modItem seq (fun i => { i with work := match i.work with
      | .array b _ o m n => .array b true o m n
      | .tile => .array none true false 0 0
      | w => w })

/-- Take the tile an operation names at its admission: the ownership action, a slot, a restore (R362, R366). -/
def State.takeTile (s : State) (seq key town : Nat) (real : Bool) (gal : Nat) : State :=
  match mapGet s.tiles key with
  | none =>
    if town = 1 then
      let t : Tile := ⟨key / 16, key % 16, false, real, [], some (gal, (s.freeSlots gal).headD 0), s.now, false⟩
      { s with tiles := mapSet s.tiles key t }
    else s
  | some t =>
    if t.lost then
      -- a RELEASE of a LOST tile runs on contents that are gone (log 19)
      let free := (upto 0 16384).map (fun x => (x, (⟨ofLe ((upto 0 4).map (fun j => freeByte s.freeSeq (8 * x + j))),
        if t.real then ofLe ((upto 4 4).map (fun j => freeByte s.freeSeq (8 * x + j))) else 0⟩ : Cell)))
      (s.draw).modTile key (fun t => { t with cells := free })
    else s.askRestore seq key

/-- The binding an array operation already has (R376). -/
def Item.arrayBound (i : Item) : Option Bind :=
  match i.work with
  | .array x _ _ _ _ => x
  | _ => none

/-- The binding that an array operation's table operand takes at its admission (R376). -/
def State.arrayBind (s : State) (i : Item) (p : ArrPkt) : Option Bind :=
  if p.b.loc = 2 then (match i.arrayBound with
    | some x => some x
    | none => (s.table p.table).map (fun (x : Table) => (⟨p.table, x.cur, x.epoch⟩ : Bind))) else none

/-- The checks of an array operation at its admission (R376, R379). -/
def State.arrayBad (s : State) (i : Item) (p : ArrPkt) : Option Ending :=
  let pr := (pairing p.a.fmt (s.opndB p).fmt).getD ⟨1, 1, false, 0⟩
  let bad : Option Ending :=
    if p.b.loc = 2 ∧ i.arrayBound.isNone then
      match s.table p.table with
      | none => some ⟨St.badState, 0, 0⟩
      | some t =>
        if t.st != .serving && t.st != .training then some ⟨St.badState, t.st.code, 0⟩
        else if !t.replicated then some ⟨St.badField, 8, 0⟩
        else if t.dim ≠ p.k then some ⟨St.badField, 20, 0⟩
        else if p.b.addr + p.n > t.rows then some ⟨St.badField, 80, 0⟩
        else if (pairing p.a.fmt t.format).isNone then some ⟨St.badFormat, 64, 0⟩
        else none
    else none
  match bad with
  | some e => some e
  | none =>
    match i.tile with
    | none => none
    | some k =>
      match s.townBad k p.town with
      | some d => some ⟨St.badState, d, 0⟩
      | none =>
        if p.acc && p.town != 1 && ((mapGet s.tiles k).map (fun (x : Tile) => x.real)).getD pr.real != pr.real then some ⟨St.badFormat, 16, 0⟩
        else none

/-- An ARRAY_OP's chunk has been admitted and charged (R374 to R382). -/
def State.startArray (s : State) (seq : Nat) (c : Chunk) : State :=
  match s.item seq with
  | none => s
  | some i =>
    let p := ArrPkt.ofWords i.iw
    if arrForeign i.iw then
      match i.tile with
      | some k =>
        if s.tileCode k = 0 then s.failAdmit seq c ⟨St.badState, 0, 0⟩
        else (s.dropTile k).endItem seq ⟨St.ok, 0, 0⟩
      | none => s
    else
      let b := s.opndB p
      let pr := (pairing p.a.fmt b.fmt).getD ⟨1, 1, false, 0⟩
      match s.arrayBad i p with
      | some e => s.failAdmit seq c e
      | none =>
        let bd := s.arrayBind i p
        let s := s.setWork seq (.array bd false false 0 0)
        let s := match i.tile with
          | some k => s.takeTile seq k p.town pr.real (i.gallery.getD 0)
          | none => s
        let s := s.needInput seq 0 0 (p.a.loc == 1) p.a.addr (p.a.len p.m p.k)
        let s := match bd with
          | some x =>
            let (s, w) := s.readWeights i.tenant x.table x.slot p.b.addr p.n
            let s := s.refundActs c w.pages
            match w.bad with
            | some o => s.failItem seq ⟨St.xlateFault, o, 16 + 128⟩
            | none => s.putInput seq 1 w.data
          | none =>
            let s := if b.loc = 1 then
                let pages := ((upto 0 p.n).map (fun j => (b.addr + j * b.stride) / 2048)).eraseDups
                s.refundActs c pages
              else s
            s.needInput seq 1 1 (b.loc == 1) b.addr (b.len p.n p.k)
        let s := if p.wantSums then s.needInput seq 2 2 (p.b.loc == 1) p.b.sums (4 * p.n) else s
        let s := if p.wantReq then s.needInput seq 3 3 p.reqEng p.req (16 * p.n) else s
        s.arrayExec seq

/-! ### TILE_READ and TILE_WRITE (R383, R384) -/

/-- The image crosses the host link. -/
def tileHost (i : Item) : Bool := i.iw.length ≥ 16 && !(uw i.iw 2 2).bit 0

/-- The charge of a TILE_READ or TILE_WRITE (R384). -/
def State.tileCharge (s : State) (i : Item) : Charge :=
  let restore := match i.tile with
    | some k => (match mapGet s.tiles k with
      | some t => if t.home.isNone && !t.lost && decide (i.iw.length ≥ 16) && i.iop == 0x11 then 2048 else 0
      | none => 0)
    | none => 0
  { Charge.zero with vec := 128, cpy := (if tileHost i then 2048 else 0) + restore }

/-- A TILE_READ has written its image, or has none to write; a TILE_WRITE has its image. -/
def State.tileDone (s : State) (seq : Nat) : State :=
  match s.item seq with
  | none => s
  | some i =>
    let w4 := uw i.iw 1 4
    let key := i.tile.getD 0
    let restored := match i.work with
      | .array _ x _ _ _ => x
      | _ => false
    let s :=
      if i.iop = 0x11 then
        if w4.bits 6 5 = 2 then s.dropTile key
        else s.modTile key (fun t => { t with lastUse := s.now, noSpill := false })
      else
        s.modTile key (fun t => { t with
          real := w4.bit 7, cells := if i.iw.length ≥ 16 then imageCells (w4.bit 7) (i.input 0) none else []
          home := match t.home with
            | some h => some h
            | none => some (i.gallery.getD 0, (s.freeSlots (i.gallery.getD 0)).headD 0)
          lastUse := s.now, noSpill := false })
    s.endItem seq ⟨St.ok, 0, 4 * b2n restored + 8 * b2n i.moved⟩

/-- Everything a tile operation needs is there. -/
def State.tileExec (s : State) (seq : Nat) : State :=
  match s.item seq with
  | none => s
  | some i =>
    let key := i.tile.getD 0
    let long := decide (i.iw.length ≥ 16)
    let addr := uw64 i.iw 2 0
    let eng := (uw i.iw 2 2).bit 0
    match mapGet s.tiles key with
    | none => s
    | some t =>
      if i.iop = 0x11 then
        if !long then s.tileDone seq
        else if (t.home.isNone && !t.lost) || i.writes > 0 then s
        else
          let (s, bs) := s.injectedOne i.gallery (tileImage t)
          if eng then (s.engWrite addr bs).tileDone seq
          else
          let s := s.modItem seq (fun i => { i with writes := 1 })
          let (s, a) := s.hostAcc (i.gallery.getD 0) i.tenant addr 0x20000 (some bs) (.result seq 0 0) false
          match a with
          | .committed => s.tileDone seq
          | .waiting => s
          | .fault perm at_ => s.failItem seq ⟨xlStatus perm, at_ - addr, 7 * 16⟩
      else if long && !i.have [0] then s
      else s.tileDone seq

/-- A tile operation's chunk has been admitted and charged. -/
def State.startTile (s : State) (seq : Nat) (c : Chunk) : State :=
  match s.item seq with
  | none => s
  | some i =>
    let w4 := uw i.iw 1 4
    let key := i.tile.getD 0
    let town := w4.bits 6 5
    match s.townBad key town with
    | some d => s.failAdmit seq c ⟨St.badState, d, 0⟩
    | none =>
      let long := decide (i.iw.length ≥ 16)
      let s := if town = 1 then s.takeTile seq key 1 (w4.bit 7) (i.gallery.getD 0)
        else if i.iop = 0x11 && long then s.takeTile seq key town (w4.bit 7) (i.gallery.getD 0)
        else s
      let s := if i.iop = 0x12 && long then s.needInput seq 0 7 ((uw i.iw 2 2).bit 0) (uw64 i.iw 2 0) 0x20000 else s
      s.tileExec seq

/-! ### VEC_CHAIN (R394 to R399) -/

/-- The stages of a chain. -/
def vecStages (ws : List Word) : List Stage :=
  (upto 0 ((uw ws 1 4).bits 18 16 + 1)).map (fun n => Stage.ofWord (uw ws 3 n))

/-- The chain has a stage of an opcode. -/
def vecHas (ws : List Word) (op : Nat) : Bool := (vecStages ws).any (fun st => st.op == op)

/-- The stage of an opcode works on integers. -/
def vecInt (ws : List Word) (op : Nat) : Bool := (vecStages ws).any (fun st => st.op == op && st.int)

/-- VL. -/
def vecLen (ws : List Word) : Nat := (uw ws 1 4).bits 15 0 + 1

/-- Passes of a chain. -/
def vecPasses (ws : List Word) : Nat := ceilDiv (vecLen ws) 128

/-- Active lanes of a pass. -/
def vecAct (ws : List Word) (p : Nat) : Nat := min 128 (vecLen ws - 128 * p)

/-- Bits of an element of a stream format (R396). -/
def vecBits (fmt : Nat) : Nat := if fmt = 9 then 32 else fmtBits fmt

/-- Bytes of a pass of an input stream. -/
def vecInBytes (ws : List Word) (which p : Nat) : Nat :=
  let f := (uw ws 4 0).bits (4 * which + 3) (4 * which)
  ceilDiv (vecAct ws p * vecBits f) 8

/-- Address of a pass of an input stream. -/
def vecInAddr (ws : List Word) (which p : Nat) : Nat :=
  let f := (uw ws 4 0).bits (4 * which + 3) (4 * which)
  uw64 ws 2 (2 * which) + p * 128 * vecBits f / 8

/-- Lanes of a pass's load (R397). -/
def vecLoad (ws : List Word) (which p : Nat) (int : Bool) (bs : List Byte) : List Nat :=
  let f := (uw ws 4 0).bits (4 * which + 3) (4 * which)
  let scale := uw ws 4 (1 + which)
  (upto 0 (vecAct ws p)).map (fun j =>
    if f = 9 then
      let c := ofLe ((bs.drop (4 * j)).take 4)
      if int then c else fr (vmul (.ofInt (signedOf 32 c)) (fp32Val scale))
    else
      let c := elemCode f bs j
      if int then twos 32 (intCode f c)
      else fr (vmul (rawVal f 0 c) (fp32Val scale)))

/-- Run a chain's passes 0 to n - 1 from its inputs, and give the last one. -/
def vecRun (ws : List Word) (inputs : Inputs) (n : Nat) : VPass :=
  let stages := vecStages ws
  let total := vecPasses ws
  (upto 0 n).foldl (fun (v : VPass) p =>
    let in0 := vecLoad ws 0 p (vecInt ws 1) ((mapGet inputs (2 * p)).getD [])
    let in1 := vecLoad ws 1 p (vecInt ws 2) ((mapGet inputs (2 * p + 1)).getD [])
    let scal := (upto 0 8).map (fun k => uw ws 5 k)
    stages.foldl (fun (v : VPass) st =>
      stageStep st scal (vecAct ws p) in0 in1 ((uw ws 4 0).bits 10 8) ((uw ws 4 0).bits 13 11) (uw ws 4 3)
        (p + 1 == total) (min (vecLen ws) 128) v) { v with out := [], red := [] }) ⟨[], [], []⟩

/-- The charge of a chain (R399). -/
def vecCharge (ws : List Word) : Charge :=
  let both := vecHas ws 1 && vecHas ws 2
  let eng := (uw ws 1 4).bit 19
  let bytes :=
    (if vecHas ws 1 then ceilDiv (vecLen ws * vecBits ((uw ws 4 0).bits 3 0)) 8 else 0)
      + (if vecHas ws 2 then ceilDiv (vecLen ws * vecBits ((uw ws 4 0).bits 7 4)) 8 else 0)
      + (if vecHas ws 3 then vecLen ws * (OutFmt.ofCode ((uw ws 4 0).bits 10 8)).bytes else 0)
      + (if vecHas ws 4 then min (vecLen ws) 128 * (OutFmt.ofCode ((uw ws 4 0).bits 13 11)).bytes else 0)
  { Charge.zero with vec := vecPasses ws * (if both then 2 else 1), cpy := if eng then 0 else ceilDiv bytes 64 }

/-- Key of the bytes a chain under RECHECK has formed. -/
def vecOutKey : Nat := 1000000

/-- Write one of a chain's tiles: OUT (where 4) or RED (where 6). True when it has been written. -/
def State.vecWrite (s : State) (seq wh addr : Nat) (base : Nat) (bs : List Byte) : State × Bool :=
  match s.item seq with
  | none => (s, false)
  | some i =>
    let (s, bs) := s.injectedOne i.gallery bs
    if i.rck.isSome then (s.putInput seq vecOutKey (i.input vecOutKey ++ bs), true)
    else if (uw i.iw 1 4).bit 19 then (s.engWrite addr bs, true)
    else
      let s := s.modItem seq (fun i => { i with writes := 1 })
      let (s, a) := s.hostAcc (i.gallery.getD 0) i.tenant addr bs.length (some bs) (.result seq 0 wh) false
      match a with
      | .committed => (s.modItem seq (fun (j : Item) => { j with writes := 0 }), true)
      | .waiting => (s, false)
      | .fault perm at_ => (s.failItem seq ⟨xlStatus perm, at_ - base, wh * 16⟩, false)

/-- A pass is done: its saturated elements are counted. -/
def State.vecPassDone (s : State) (seq : Nat) : State :=
  match s.item seq with
  | some i => (match i.work with
    | .vec p n =>
      let v := vecRun i.iw i.inputs (p + 1)
      s.setWork seq (.vec (p + 1) (n + ((v.out ++ v.red).filter (·.sat)).length))
    | _ => s)
  | none => s

/-- Write RED after the last pass's OUT, if the chain has one; true when nothing is left of the pass. -/
def State.vecRed (s : State) (seq : Nat) : State × Bool :=
  match s.item seq with
  | some i => (match i.work with
    | .vec p _ =>
      if p + 1 = vecPasses i.iw ∧ vecHas i.iw 4 then
        let v := vecRun i.iw i.inputs (p + 1)
        let red := uw64 i.iw 2 6
        s.vecWrite seq 6 red red (convBytes (OutFmt.ofCode ((uw i.iw 4 0).bits 13 11)) v.red)
      else (s, true)
    | _ => (s, false))
  | none => (s, false)

/-- A chain goes on as far as its inputs and its writes allow. -/
def vecGo (s : State) (seq fuel : Nat) : State :=
  match fuel with
  | 0 => s
  | f + 1 =>
    match s.item seq with
    | none => s
    | some i =>
      match i.work with
      | .vec p n =>
        let ws := i.iw
        if i.writes > 0 then s
        else if p ≥ vecPasses ws then
          if i.rck.isSome then s.runDone seq (i.input vecOutKey)
          else s.endItem seq ⟨St.ok, p + min n 0xFFFF * 2 ^ 32, b2n (decide (n > 0)) + 8 * b2n i.moved⟩
        else
          let eng := (uw ws 1 4).bit 19
          let s := if vecHas ws 1 then s.needInput seq (2 * p) 0 eng (vecInAddr ws 0 p) (vecInBytes ws 0 p) else s
          let s := if vecHas ws 2 then s.needInput seq (2 * p + 1) 1 eng (vecInAddr ws 1 p) (vecInBytes ws 1 p) else s
          match s.item seq with
          | none => s
          | some i =>
            if !i.have ((if vecHas ws 1 then [2 * p] else []) ++ (if vecHas ws 2 then [2 * p + 1] else [])) then s
            else
              let v := vecRun ws i.inputs (p + 1)
              let fmt := OutFmt.ofCode ((uw ws 4 0).bits 10 8)
              let (s, ok) := if vecHas ws 3 then
                  s.vecWrite seq 4 (uw64 ws 2 4 + p * 128 * fmt.bytes) (uw64 ws 2 4) (convBytes fmt v.out)
                else (s, true)
              if !ok then s
              else
                let (s, ok) := s.vecRed seq
                if ok then vecGo (s.vecPassDone seq) seq f else s
      | _ => s

/-- Fuel for a chain: its passes and its end. -/
def Item.vecFuel (i : Item) : Nat := vecPasses i.iw + 2

/-- A write of a chain has been committed. -/
def State.vecWritten (s : State) (seq wh : Nat) : State :=
  let s := s.modItem seq (fun i => { i with writes := 0 })
  match s.item seq with
  | none => s
  | some i =>
    let (s, ok) := if wh = 4 then s.vecRed seq else (s, true)
    if ok then vecGo (s.vecPassDone seq) seq i.vecFuel else s

end Sys2Proof.Machine
end

