-- ==== Sys2Proof/Machine/Interact.lean ====
section
/-! DEFINITION. BAG_INTERACT (R385 to R393): its bag entries and layers, interaction passes, the layer-input vector, the
layers, and its result. -/
namespace Sys2Proof.Machine

open Sys2Proof.Config

/-- The fields of a BAG_INTERACT (R385). -/
structure IntPkt where
  s : Nat
  f : Nat
  inter : Nat
  nlayer : Nat
  pooled : Bool
  dest : Nat
  eng : Bool
  denseN : Nat
  denseFmt : Nat
  out : Nat
  destAddr : Nat
  bagsAddr : Nat
  layersAddr : Nat
  denseAddr : Nat
  denseScale : Word
  oscale : Word
deriving DecidableEq, Repr

/-- Read a BAG_INTERACT's packet. -/
def IntPkt.ofWords (ws : List Word) : IntPkt where
  s := (uw ws 1 4).bits 6 0 + 1
  f := (uw ws 1 4).bits 12 7 + 1
  inter := (uw ws 1 4).bits 14 13
  nlayer := (uw ws 1 4).bits 18 15
  pooled := (uw ws 1 4).bit 19
  dest := (uw ws 1 4).bits 21 20
  eng := (uw ws 1 4).bit 22
  denseN := (uw ws 1 5).bits 12 0
  denseFmt := (uw ws 1 5).bits 16 13
  out := (uw ws 1 5).bits 20 17
  destAddr := uw64 ws 1 6
  bagsAddr := uw64 ws 2 0
  layersAddr := uw64 ws 2 2
  denseAddr := uw64 ws 2 4
  denseScale := uw ws 2 6
  oscale := uw ws 2 7

/-- Words of a byte list. -/
def bytesWords (bs : List Byte) (n : Nat) : List Word := (upto 0 n).map (fun i => Word.ofNat (ofLe ((bs.drop (4 * i)).take 4)))

/-- A layer descriptor (R387). -/
structure Layer where
  table : Nat
  afmt : Nat
  reqEng : Bool
  ascale : Word
  azp : Int
  lout : Nat
  req : Nat
  sums : Nat
  bad : Option Nat
deriving DecidableEq, Repr

/-- Read layer n of a list of nl; `bad` is the byte of the first field that is not as R387 and R388 give. -/
def Layer.ofBytes (bs : List Byte) (n nl : Nat) : Layer :=
  let w := bytesWords (bs.drop (64 * n)) 16
  let g := fun i => w.getD i 0
  let lout := (g 3).bits 3 0
  let azp := signedOf 16 ((g 2).bits 15 0)
  let afmt := (g 0).bits 19 16
  { table := (g 0).bits 15 0
    afmt := afmt
    reqEng := (g 0).bit 20
    ascale := g 1
    azp := azp
    lout := lout
    req := Word.pair (g 4) (g 5)
    sums := Word.pair (g 6) (g 7)
    bad := firstOff
      [(!(afmt == 0 || afmt == 2 || afmt == 4 || afmt == 5 || afmt == 6), 2), (decide ((g 0).bits 31 21 ≠ 0), 2),
       (!fp32PosNormal (g 1), 4), (!zpOk afmt azp, 8), (decide ((g 2).bits 31 16 ≠ 0), 10),
       (!(if n + 1 = nl then decide (1 ≤ lout ∧ lout ≤ 9) else decide (lout = 0)), 12),
       (decide ((g 3).bits 31 4 ≠ 0), 12), (decide ((g 4).toNat % 16 ≠ 0), 16), (decide ((g 6).toNat % 4 ≠ 0), 24)] }

/-- The layers of an item. -/
def Item.layers (i : Item) : List Layer :=
  let p := IntPkt.ofWords i.iw
  (upto 0 p.nlayer).map (fun n => Layer.ofBytes (i.input 101) n p.nlayer)

/-- The byte of the first field of a bag entry that is not as R386 and the pointer form of R218 give; `fmt` and `oscale`
are the first entry's. -/
def entryBad (w : List Word) (fmt : Nat) (oscale : Word) : Option Nat :=
  let g := fun i => w.getD i 0
  let w0 := g 0
  let o := w0.bits 5 3
  let wgt := w0.bits 9 8
  firstOff
    [(decide (w0.bits 2 0 > 4), 0), (!(o == 0 || o == 2 || o == 3 || o == 4) || o != fmt, 0), (!w0.bit 6, 0),
     (!(if w0.bits 2 0 = 2 then wgt == 2 else wgt == 0), 1), (wgt == 0 && w0.bit 10, 1),
     (decide (w0.bits 12 11 > 2), 1), (decide (w0.bits 14 13 ≠ 0), 1),
     (w0.bits 2 0 == 4 && decide (w0.bits 31 16 ≥ 256), 2), (g 1 != oscale || !fp32PosNormal (g 1), 4),
     (decide ((g 2).toNat % 8 ≠ 0), 8), (decide ((g 4).toNat % 2 ≠ 0) || (wgt != 2 && (g 4 != 0 || g 5 != 0)), 16),
     (decide ((g 6).bits 31 16 ≠ 0), 26), (g 7 != 0, 28)]

/-- Ask for a packet's entries and layers, and set up its bags once they have come (R386). -/
def State.interactPrep (s : State) (seq : Nat) : State :=
  match s.item seq with
  | none => s
  | some i =>
    let p := IntPkt.ofWords i.iw
    match i.work with
    | .interact [] ls st vs a o =>
      let s := s.needInput seq 100 0 p.eng p.bagsAddr (32 * p.s * p.f)
      let s := s.needInput seq 101 0 p.eng p.layersAddr (64 * p.nlayer)
      match s.item seq with
      | none => s
      | some i =>
        if !i.have [100, 101] then s
        else
          let ents := (upto 0 (p.s * p.f)).map (fun n => bytesWords ((i.input 100).drop (32 * n)) 8)
          let w0 := (ents.headD []).getD 0 0
          let entries := ((upto 0 ents.length).zip ents).findSome? (fun (n, w) =>
            (entryBad w (w0.bits 5 3) ((ents.headD []).getD 1 0)).map (32 * n + ·))
          let layers := ((upto 0 i.layers.length).zip i.layers).findSome? (fun (n, l) => l.bad.map (64 * n + ·))
          match entries.or layers with
          | some at_ => s.failItem seq ⟨St.badField, at_, 0⟩
          | none =>
              let bags := ents.map (fun w =>
                let d := BagDesc.ofWords ((w.getD 6 0).bits 15 0) (w.getD 0 0) (w.getD 1 0) 0 0
                  (Word.pair (w.getD 2 0) (w.getD 3 0)) (Word.pair (w.getD 4 0) (w.getD 5 0))
                BagRun.start { d with listLoc := p.eng } [] [])
              s.setWork seq (.interact bags ls st vs a o)
    | _ => s

/-! ### Dimensions and stages -/

/-- Array format of a bag output format (R386). -/
def arrayFmtOf (out : Nat) : Nat := if out = 0 then 2 else if out = 2 then 4 else if out = 3 then 5 else 6

/-- Output elements of a bag. -/
def State.bagLen (s : State) (b : BagRun) : Nat :=
  let d := (s.bagTable b).dim
  if b.desc.pool = 4 then b.desc.count * d else d

/-- Pairs of features of an interaction (R389). -/
def interPairs (inter f : Nat) : List (Nat × Nat) :=
  if inter = 0 then []
  else (upto 0 f).flatMap (fun a => (if inter = 1 then upto (a + 1) (f - a - 1) else upto a (f - a)).map (fun b => (a, b)))

/-- Elements of the layer-input vector of a sample. -/
def State.vecIn (s : State) (p : IntPkt) (bags : List BagRun) : Nat :=
  p.denseN + (if p.pooled then sumNat ((bags.take p.f).map s.bagLen) else 0) + (interPairs p.inter p.f).length

/-- Samples per interaction pass, and passes (R390). -/
def IntPkt.perPass (p : IntPkt) : Nat := 128 / p.f

/-- Passes of a packet. -/
def IntPkt.passes (p : IntPkt) : Nat := if p.inter = 0 then 0 else ceilDiv p.s p.perPass

/-- Stage chunks after the bags: passes, the vector, the layers. -/
def IntPkt.stages (p : IntPkt) : Nat := p.passes + 1 + p.nlayer

/-- Samples of a pass. -/
def IntPkt.passRows (p : IntPkt) (n : Nat) : Nat := min p.perPass (p.s - n * p.perPass)

/-- Rows of a weight table. -/
def State.layerOut (s : State) (l : Layer) : Nat := (s.table l.table).elim 1 Table.rows

/-- Elements a layer takes. -/
def State.layerIn (s : State) (p : IntPkt) (bags : List BagRun) (ls : List Layer) (n : Nat) : Nat :=
  if n = 0 then s.vecIn p bags else (ls[n - 1]?).elim 1 s.layerOut

/-- The charge of a stage chunk (R390, R391). -/
def State.stageCharge (s : State) (i : Item) (bags : List BagRun) (n : Nat) : Charge :=
  let p := IntPkt.ofWords i.iw
  if n < p.passes then
    let d := (bags.head?).elim 1 (fun b => (s.bagTable b).dim)
    let f := arrayFmtOf ((bags.head?).elim 0 (fun b => b.desc.outFmt))
    let g := ((pairing f f).getD ⟨1, 1, false, 0⟩).g
    { Charge.zero with arr := ceilDiv d g + 16 + p.passRows n * p.f }
  else if n = p.passes then { Charge.zero with vec := ceilDiv (p.s * s.vecIn p bags) 128 }
  else
    let ls := i.layers
    let k := n - p.passes - 1
    match ls[k]? with
    | none => .zero
    | some l =>
      let out := s.layerOut l
      let t := s.table l.table
      let g := ((pairing l.afmt (t.elim 0 Table.format)).getD ⟨1, 1, false, 0⟩).g
      let host := fun (yes : Bool) (b : Nat) => if yes then ceilDiv b 64 else 0
      { Charge.zero with
        acts := s.weightActs l.table (t.elim 0 (·.cur)) 0 out
        arr := ceilDiv out 128 * (ceilDiv (s.layerIn p bags ls k) g + 16 + p.s)
        cpy := host (!p.eng && !l.reqEng) (16 * out) + host (!p.eng && l.azp != 0) (4 * out) }

/-- The bag whose next chunk is admitted next. -/
def State.nextSetBag (s : State) (i : Item) (bags : List BagRun) : Option (Nat × Charge) :=
  (((upto 0 bags.length).zip bags).filterMap (fun (k, b) => (s.bagNext i k b).map (fun c => (k, c)))).head?

/-! ### Values -/

/-- Pooled codes of a bag of a set. -/
def State.bagCodes (s : State) (b : BagRun) : List Nat :=
  (convOut (OutFmt.ofCode b.desc.outFmt) b.desc.oscale (b.values (s.bagTable b)).1).map (·.code)

/-- Elements of codes in an array format with a zero point. -/
def elemsOf (fmt : Nat) (zp : Int) (cs : List Nat) : List Elem :=
  cs.map (fun c => let r := rawVal fmt zp c; ⟨c, r, r, false, false⟩)

/-- The interaction value of two pooled vectors, and whether an INT cell overflowed (R390). -/
def interValue (fmt : Nat) (oscale : Word) (x y : List Nat) : Val × Bool :=
  let p := (pairing fmt fmt).getD ⟨1, 1, false, 0⟩
  let a : Opnd := ⟨[], fmt, oscale, 0⟩
  let c := opCell .zero p a a x.length 1 (elemsOf fmt 0 x) (elemsOf fmt 0 y) 0
  if p.real then (c.value true, false)
  else (vmul (c.value false) (vmul (fp32Val oscale) (fp32Val oscale)), c.b % 2 == 1)

/-- A sample's bags as pooled codes. -/
def State.sampleCodes (s : State) (p : IntPkt) (bags : List BagRun) (smp : Nat) : List (List Nat) :=
  ((bags.drop (smp * p.f)).take p.f).map s.bagCodes

/-- The interaction values of a sample (R389, R390). -/
def State.sampleInter (s : State) (p : IntPkt) (bags : List BagRun) (smp : Nat) : List (Val × Bool) :=
  let xs := s.sampleCodes p bags smp
  let fmt := arrayFmtOf ((bags.head?).elim 0 (fun b => b.desc.outFmt))
  let os := (bags.head?).elim 0 (fun b => b.desc.oscale)
  (interPairs p.inter p.f).map (fun (a, b) => interValue fmt os (xs.getD a []) (xs.getD b []))

/-- The layer-input values of a sample (R389). -/
def State.sampleValues (s : State) (i : Item) (p : IntPkt) (bags : List BagRun) (smp : Nat) : List Val :=
  let rowB := roundUp (ceilDiv (p.denseN * fmtBits p.denseFmt) 8) 4
  let dense := (upto 0 p.denseN).map (fun j =>
    vmul (rawVal p.denseFmt 0 (elemCode p.denseFmt ((i.input 102).drop (smp * rowB)) j)) (fp32Val p.denseScale))
  let fmt := arrayFmtOf ((bags.head?).elim 0 (fun b => b.desc.outFmt))
  let os := (bags.head?).elim 0 (fun b => b.desc.oscale)
  let pooled := if p.pooled then
      (s.sampleCodes p bags smp).flatMap (fun cs => cs.map (fun c => vmul (rawVal fmt 0 c) (fp32Val os)))
    else []
  dense ++ pooled ++ (s.sampleInter p bags smp).map (·.1)

/-- A value as a layer's input code (R389). -/
def toLayerIn (l : Layer) (v : Val) : Conv :=
  let q := v.divPos (fp32Val l.ascale)
  if fmtInt l.afmt then
    match q with
    | .fin _ _ _ => convInt (fmtBits l.afmt) (.ofInt (q.roundInt + l.azp))
    | x => convInt (fmtBits l.afmt) x
  else (fmtFloat l.afmt).convSat q

/-- R372 code of a layer input format (R388). -/
def outOfAfmt (afmt : Nat) : Nat := if afmt = 0 then 1 else if afmt = 2 then 2 else afmt

/-! ### Stages -/

/-- A stage chunk is complete. -/
def State.stageDone (s : State) (seq : Nat) (vecs : Option (List (List Nat))) (asat aovf : Bool) : State :=
  (s.chunksDone seq).modItem seq (fun i => { i with work := match i.work with
    | .interact bs ls st vs a o => .interact bs ls (st + 1) (vecs.getD vs) (a || asat) (o || aovf)
    | w => w })

/-- The layer-input vectors once the dense features are there. -/
def State.buildVec (s : State) (seq : Nat) : State :=
  match s.item seq with
  | none => s
  | some i =>
    let p := IntPkt.ofWords i.iw
    match i.work with
    | .interact bags _ _ _ _ _ =>
      if !i.have [102] then s
      else
        let vals := (upto 0 p.s).map (s.sampleValues i p bags)
        let conv := vals.map (fun vs => vs.map (fun v => match i.layers.head? with
          | some l => toLayerIn l v
          | none => arrayConv p.out 0 (v.divPos (fp32Val p.oscale))))
        s.stageDone seq (some (conv.map (fun cs => cs.map (·.code)))) (conv.any (fun cs => cs.any (·.sat))) false
    | _ => s

/-- Run a layer once its inputs are there (R388, R391). -/
def State.runLayer (s : State) (seq n : Nat) : State :=
  match s.item seq with
  | none => s
  | some i =>
    let p := IntPkt.ofWords i.iw
    let ls := i.layers
    match i.work, ls[n]? with
    | .interact bags binds _ vecs _ _, some l =>
      match binds[n]?, s.table l.table with
      | some _, some t =>
        let keys := [200 + n, 400 + n] ++ (if l.azp = 0 ∨ !fmtInt l.afmt then [] else [300 + n])
        if !i.have keys then s
        else
          let k := s.layerIn p bags ls n
          let out := t.rows
          let pr := (pairing l.afmt t.format).getD ⟨1, 1, false, 0⟩
          let b : Opnd := ⟨opndRows t.format t.esc k t.stride out t.scale t.zp (i.input (400 + n)), t.format, t.scale, t.zp⟩
          let a : Opnd := ⟨vecs.map (elemsOf l.afmt l.azp), l.afmt, l.ascale, l.azp⟩
          let sums := if l.azp = 0 ∨ !fmtInt l.afmt then List.replicate out 0 else sumsOf (i.input (300 + n)) out
          let cells := a.rows.map (fun x => (b.rows.zip sums).map (fun (y, cs) => opCell .zero pr a b k 1 x y cs))
          let fmt := match ls[n + 1]? with
            | some m => outOfAfmt m.afmt
            | none => l.lout
          let reqs := (upto 0 out).map (fun j => requantOf (((i.input (200 + n)).drop (16 * j)).take 16) pr.real fmt)
          match reqsBad reqs with
          | some at_ => s.failItem seq ⟨St.badField, at_, 0⟩
          | none =>
            let conv := cells.map (fun row => (row.zip reqs).map (fun (c, r) =>
              arrayConv fmt (signedOf 8 (r.cfg.bits 15 8)) (requantY r c pr.real)))
            let ovf := !pr.real && cells.any (fun row => row.any (fun c => c.b % 2 == 1))
            let s := s.loadReqs (i.gallery.getD 0) (n + 1) reqs sums (a.rows.map (rowSum a))
            s.stageDone seq (some (conv.map (fun cs => cs.map (·.code)))) (conv.any (fun cs => cs.any (·.sat))) ovf
      | _, _ => s
    | _, _ => s

/-- A hall tenant may use a table: it owns it or holds a grant (R144). -/
def State.mayUse (s : State) (hall table : Nat) (t : Table) (upd : Bool) : Bool :=
  t.owner == hall || s.dir.grants.any (fun (tb, h, r, u) => tb == table && h == hall && (if upd then u else r))

/-- The check of the weight tables at the first layer chunk (R392). -/
def State.layersBad (s : State) (i : Item) (p : IntPkt) (bags : List BagRun) : Option Ending :=
  let ls := i.layers
  ((upto 0 ls.length).zip ls).findSome? (fun (n, l) =>
    match s.table l.table with
    | none => some ⟨St.badTable, l.table, 0⟩
    | some t =>
      if !s.mayUse i.hallId l.table t false then some ⟨St.denied, 0, 0⟩
      else if !t.replicated || decide (t.dim ≠ s.layerIn p bags ls n) || decide (t.rows > 2048) then some ⟨St.badField, 64 * n, 0⟩
      else if t.st != .serving && t.st != .training then some ⟨St.badState, t.st.code, 0⟩
      else if (pairing l.afmt t.format).isNone then some ⟨St.badFormat, 64 * n + 2, 0⟩
      else none)

/-- A stage chunk goes on as its inputs come. -/
def State.interactGo (s : State) (seq : Nat) : State :=
  match s.item seq with
  | none => s
  | some i =>
    let p := IntPkt.ofWords i.iw
    match i.work with
    | .interact _ _ st _ _ _ =>
      if i.chunks.isEmpty then s
      else if st = p.passes then s.buildVec seq
      else if st > p.passes then s.runLayer seq (st - p.passes - 1)
      else s
    | _ => s

/-- A stage chunk has been admitted and charged. -/
def State.startStage (s : State) (seq : Nat) (c : Chunk) : State :=
  match s.item seq with
  | none => s
  | some i =>
    let p := IntPkt.ofWords i.iw
    match i.work with
    | .interact bags binds st vecs a o =>
      if st < p.passes then
        let ovf := (upto (st * p.perPass) (p.passRows st)).any (fun smp => (s.sampleInter p bags smp).any (·.2))
        s.stageDone seq none false ovf
      else if st = p.passes then
        let rowB := roundUp (ceilDiv (p.denseN * fmtBits p.denseFmt) 8) 4
        (s.needInput seq 102 0 p.eng p.denseAddr (if p.denseN = 0 then 0 else p.s * rowB)).interactGo seq
      else
        let n := st - p.passes - 1
        let bad := if binds.isEmpty then s.layersBad i p bags else none
        match bad with
        | some e => s.failAdmit seq c e
        | none =>
          let binds := if binds.isEmpty then i.layers.map (fun l =>
            (⟨l.table, (s.table l.table).elim 0 (·.cur), (s.table l.table).elim 0 (·.epoch)⟩ : Bind)) else binds
          let s := s.setWork seq (.interact bags binds st vecs a o)
          match i.layers[n]?, binds[n]? with
          | some l, some bd =>
            let out := s.layerOut l
            let (s, w) := s.readWeights i.tenant l.table bd.slot 0 out
            let s := s.refundActs c w.pages
            match w.bad with
            | some x => s.failItem seq ⟨St.memUnc, s.hallAddr ((s.table l.table).elim 0 (fun t => t.replAddr bd.slot 0 + x) / 64 * 64), 0⟩
            | none =>
              let s := s.putInput seq (400 + n) w.data
              let s := s.needInput seq (200 + n) 0 (p.eng || l.reqEng) l.req (16 * out)
              let s := if l.azp = 0 ∨ !fmtInt l.afmt then s else s.needInput seq (300 + n) 0 p.eng l.sums (4 * out)
              s.interactGo seq
          | _, _ => s
    | _ => s

/-- The checks of a set's tables at its first chunk (R385, R390, R144). -/
def State.setBad (s : State) (i : Item) (p : IntPkt) (bags : List BagRun) : Option Ending :=
  let dim0 := (bags.head?).elim 0 (fun b => (s.bagTable b).dim)
  ((upto 0 bags.length).zip bags).findSome? (fun (n, b) =>
    match s.table b.desc.table with
    | none => some ⟨St.badTable, b.desc.table, 0⟩
    | some t =>
      if !s.mayUse i.hallId b.desc.table t false then some ⟨St.denied, 0, 0⟩
      else if b.desc.wfmt = 1 ∧ !fmtInt t.format then some ⟨St.badFormat, 32 * n + 1, 0⟩
      else if p.inter ≠ 0 ∧ b.desc.pool = 4 then some ⟨St.badField, 32 * n, 0⟩
      else if p.inter ≠ 0 ∧ t.dim ≠ dim0 then some ⟨St.badField, 32 * n + 24, 0⟩
      else none)

/-! ### The result (R389, R393) -/

/-- How a packet that has delivered its result ends. -/
def interactEnding (i : Item) (bags : List BagRun) (asat aovf : Bool) : Ending :=
  let any := fun (p : BagRun → Bool) => bags.any p
  let aux := b2n (any (fun b => b.sat && b.widened.isNone)) + 2 * b2n (any (·.escOvr)) + 4 * b2n (any (·.rebind))
    + 8 * b2n i.wasSpilled + 16 * b2n (any (·.rerun)) + 32 * b2n i.moved + 64 * b2n asat + 128 * b2n aovf
  match bags.findSome? (·.widened) with
  | some o => ⟨St.okWidened, o, aux⟩
  | none => ⟨St.ok, sumNat (bags.map (·.cached)) % 2 ^ 17 + sumNat (bags.map (·.kites)) % 2 ^ 17 * 2 ^ 17
      + sumNat (bags.map (·.balloon)) % 2 ^ 17 * 2 ^ 34, aux⟩

/-- The result has been written. -/
def State.interactDone (s : State) (seq : Nat) : State :=
  match s.item seq with
  | some i => (match i.work with
    | .interact bags _ _ _ a o =>
      let s := if o then s.bump Reg.GAL_ARR_OVF_CNT 1 else s
      let s := if a then s.bump Reg.GAL_ASAT_CNT 1 else s
      s.endItem seq (interactEnding i bags a o)
    | _ => s)
  | none => s

/-- The result bytes: one row a sample, each packed on its own. -/
def Item.interactBytes (i : Item) (vecs : List (List Nat)) : List Byte :=
  let p := IntPkt.ofWords i.iw
  let out := match i.layers.getLast? with
    | some l => l.lout
    | none => p.out
  vecs.flatMap (packCodes (arrayBits out false))

/-- Every stage is done: deliver the result as one tile, or hand it to RECHECK. -/
def State.interactFinish (s : State) (seq : Nat) : State :=
  match s.item seq with
  | none => s
  | some i =>
    let p := IntPkt.ofWords i.iw
    match i.work with
    | .interact _ _ st vecs _ _ =>
      if st < p.stages || !i.chunks.isEmpty || i.writes > 0 then s
      else
        let (s, bytes) := s.injectedOne i.gallery (i.interactBytes vecs)
        if i.rck.isSome then s.runDone seq bytes
        else if p.dest = 2 then (s.engWrite p.destAddr bytes).interactDone seq
        else if p.dest = 1 then
          if s.xlt.denseCredits > 0 then
            ((s.modXlt (fun x => { x with denseCredits := x.denseCredits - 1 })).emit (.dense p.destAddr bytes)).interactDone seq
          else (s.modXlt (fun x => { x with denseWait := x.denseWait ++ [(seq, p.destAddr, bytes)] })).modItem seq
            (fun (j : Item) => { j with writes := 1 })
        else
          let s := s.modItem seq (fun (j : Item) => { j with writes := 1 })
          let (s, a) := s.hostAcc (i.gallery.getD 0) i.tenant p.destAddr bytes.length (some bytes) (.result seq 0 0) false
          match a with
          | .committed => s.interactDone seq
          | .waiting => s
          | .fault perm at_ => s.failItem seq ⟨xlStatus perm, at_ - p.destAddr, 2⟩
    | _ => s

end Sys2Proof.Machine
end

