-- ==== Sys2Proof/Machine/Update.lean ====
section
/-! DEFINITION. Update batches (R307 to R349): entries, kites and credit at the origin; the inbox, the adders, the
ledger and the dual-apply copies at the home; partial buffers and SPLIT_REDUCE. -/
namespace Sys2Proof.Machine

open Sys2Proof.Config

/-! ### The packet and its entries (R307 to R309) -/

/-- The fields of an UPDATE_BATCH. -/
structure UpdPkt where
  table : Nat
  dfmt : Nat
  sfmt : Nat
  part : Bool
  listPtr : Bool
  listLoc : Bool
  count : Nat
  batch : Word
  listAddr : Nat
  partAddr : Nat
deriving DecidableEq, Repr

/-- Read an UPDATE_BATCH's packet. -/
def UpdPkt.ofWords (ws : List Word) : UpdPkt where
  table := (uw ws 1 2).bits 15 0
  dfmt := (uw ws 1 4).bits 2 0
  sfmt := (uw ws 1 4).bits 4 3
  part := (uw ws 1 4).bit 5
  listPtr := (uw ws 1 4).bit 6
  listLoc := (uw ws 1 4).bit 7
  count := (uw ws 1 4).bits 31 16 + 1
  batch := uw ws 1 5
  listAddr := uw64 ws 1 6
  partAddr := uw64 ws 2 0

/-- Bytes of a delta (R307). -/
def dfmtBytes (d : Nat) : Nat := if d ≤ 1 then 4 else if d = 2 then 2 else 1

/-- The delta format is an integer one. -/
def dfmtInt (d : Nat) : Bool := d == 0 || d == 3

/-- Where the element deltas start in an entry. -/
def deltaStart (sfmt : Nat) : Nat := if sfmt = 0 then 8 else 12

/-- Entry length E (R308). -/
def entryLen (dfmt sfmt dim : Nat) : Nat := roundUp (deltaStart sfmt + dim * dfmtBytes dfmt) 8

/-- One entry from its bytes. -/
def UpdEntry.ofBytes (dfmt sfmt dim pos : Nat) (bs : List Byte) : UpdEntry where
  pos := pos
  row := ofLe (bs.take 5)
  state := if sfmt = 0 then 0 else Word.ofNat (ofLe ((bs.drop 8).take 4))
  deltas := (upto 0 dim).map (fun j =>
    ofLe ((bs.drop (deltaStart sfmt + j * dfmtBytes dfmt)).take (dfmtBytes dfmt)))

/-- The bytes of an entry, reserved ones 0. -/
def UpdEntry.bytes (dfmt sfmt : Nat) (e : UpdEntry) : List Byte :=
  let body := leBytes 5 e.row ++ [0, 0, 0] ++ (if sfmt = 0 then [] else leBytes 4 e.state.toNat)
    ++ e.deltas.flatMap (leBytes (dfmtBytes dfmt))
  body ++ List.replicate (roundUp body.length 8 - body.length) 0

/-- Offset in an entry of its first field that is not as R308 gives: a row ID at or above the row count, or a reserved
byte that is not 0 (R311). -/
def entryFault (dfmt sfmt dim rows : Nat) (bs : List Byte) : Option Nat :=
  let nz := fun (a n : Nat) => ((bs.drop a).take n).any (· != 0)
  let last := deltaStart sfmt + dim * dfmtBytes dfmt
  if ofLe (bs.take 5) ≥ rows then some 0
  else if nz 5 3 then some 5
  else if sfmt = 1 ∧ nz 9 3 then some 9
  else if nz last (entryLen dfmt sfmt dim - last) then some last
  else none

/-- Entries first, first + 1, … of a run of bytes. -/
def entriesOf (dfmt sfmt dim first n : Nat) (bs : List Byte) : List UpdEntry :=
  let e := entryLen dfmt sfmt dim
  (upto 0 n).map (fun j => UpdEntry.ofBytes dfmt sfmt dim (first + j) ((bs.drop (e * j)).take e))

/-- Dimension of a table, 1 where there is none. -/
def State.dimOf (s : State) (table : Nat) : Nat := (s.table table).elim 1 Table.dim

/-- Blocks of a batch (Limits of updates). -/
def UpdPkt.blocks (p : UpdPkt) : Nat := ceilDiv p.count 64

/-- Entries of a block. -/
def UpdPkt.blockLen (p : UpdPkt) (b : Nat) : Nat := min 64 (p.count - 64 * b)

/-! ### The message of an UPDATE (R323) -/

/-- What an UPDATE's payload carries. -/
structure UpdMsg where
  batch : Word
  keyOrigin : Nat
  block : Nat
  dfmt : Nat
  sfmt : Nat
  dual : Bool
  entries : List UpdEntry
deriving DecidableEq, Repr

/-- The set bits of a mask below n, rising. -/
def bitsOf (mask n : Nat) : List Nat := (upto 0 n).filter (fun p => mask.testBit p)

/-- MASK of a message's entries. -/
def UpdMsg.mask (m : UpdMsg) : Nat := maskOf (m.entries.map (fun e => e.pos - 64 * m.block))

/-- The payload of a message. -/
def UpdMsg.payload (m : UpdMsg) : List Byte :=
  leBytes 4 m.batch.toNat ++ leBytes 4 (m.keyOrigin + m.block * 2 ^ 18) ++ leBytes 8 m.mask
    ++ leBytes 4 (m.dfmt + m.sfmt * 8 + b2n m.dual * 32) ++ List.replicate 12 0
    ++ m.entries.flatMap (UpdEntry.bytes m.dfmt m.sfmt)

/-- Read an UPDATE's payload for a table of a dimension. -/
def UpdMsg.ofFrame (f : Frame) (dim : Nat) : UpdMsg :=
  let w := fun i => Word.ofNat (ofLe ((f.payload.drop (4 * i)).take 4))
  let dfmt := (w 4).bits 2 0
  let sfmt := (w 4).bits 4 3
  let block := (w 1).bits 27 18
  let e := entryLen dfmt sfmt dim
  let pos := bitsOf (ofLe ((f.payload.drop 8).take 8)) 64
  { batch := w 0
    keyOrigin := (w 1).bits 17 0
    block := block
    dfmt := dfmt
    sfmt := sfmt
    dual := (w 4).bit 5
    entries := ((upto 0 pos.length).zip pos).map (fun (j, p) =>
      UpdEntry.ofBytes dfmt sfmt dim (64 * block + p) ((f.payload.drop (32 + e * j)).take e)) }

/-- A frame with another set of entries. -/
def withMsg (f : Frame) (m : UpdMsg) : Frame := { f with nrows := m.entries.length, payload := m.payload }

/-! ### Forming kites (R322) -/

/-- The first byte of the fault of a block's entries read through LIST_ADDR: list position and offset (R311). -/
def UpdPkt.badEntry (p : UpdPkt) (dim rows block : Nat) (bs : List Byte) : Option (Nat × Nat) :=
  let e := entryLen p.dfmt p.sfmt dim
  (upto 0 (p.blockLen block)).findSome? (fun j =>
    (entryFault p.dfmt p.sfmt dim rows ((bs.drop (e * j)).take e)).map (fun o => (64 * block + j, e * (64 * block + j) + o)))

/-- The bytes of a block's entries, if they are there. -/
def Item.blockBytes (i : Item) (p : UpdPkt) (dim block : Nat) : Option (List Byte) :=
  let e := entryLen p.dfmt p.sfmt dim
  if p.listPtr then mapGet i.inputs block
  else some ((((wordsBytes i.iw).drop 32).drop (e * 64 * block)).take (e * p.blockLen block))

/-- Cut a list of entries into kites of at most 4,064 bytes of entries. -/
def splitKite (home shard e : Nat) (es : List UpdEntry) (fuel : Nat) : List UpdKite :=
  match fuel with
  | 0 => []
  | f + 1 =>
    let n := max 1 (4064 / e)
    if es.isEmpty then []
    else ⟨home, shard, es.take n⟩ :: splitKite home shard e (es.drop n) f

/-- Put an entry into its group, groups in order of first appearance. -/
def kiteIns (l : List UpdKite) (home shard : Nat) (e : UpdEntry) : List UpdKite :=
  match l with
  | [] => [⟨home, shard, [e]⟩]
  | k :: r => if k.home = home ∧ k.shard = shard then { k with entries := k.entries ++ [e] } :: r
    else k :: kiteIns r home shard e

/-- The binding that an update batch has, or would take now (R83). -/
def State.updBind (s : State) (p : UpdPkt) (bound : Option Bind) : Bind :=
  match bound with
  | some b => b
  | none => (s.table p.table).elim ⟨p.table, 0, 0⟩ (fun t => ⟨p.table, t.cur, t.epoch⟩)

/-- The kites of a block, and how many of its entries were bound to a view that is gone (R190, R231). Entries of a
partial batch form one local kite (R344; log 20). -/
def State.formKites (s : State) (p : UpdPkt) (bd : Bind) (es : List UpdEntry) : List UpdKite × Nat :=
  if p.part then ([⟨s.engineId, 0, es⟩], 0)
  else
    match s.table p.table with
    | none => ([], 0)
    | some t =>
      let e := entryLen p.dfmt p.sfmt t.dim
      let r := es.foldl (fun (acc : List UpdKite × Nat) x =>
        let sh := x.row / 65536
        let (pl, rb) := t.view bd.epoch sh
        (kiteIns acc.1 (plHome pl) sh x, acc.2 + b2n rb)) ([], 0)
      (r.1.flatMap (fun k => splitKite k.home k.shard e k.entries 64), r.2)

/-- The kites that wait, formed from the next block where none does. -/
def State.updKites (s : State) (i : Item) : List UpdKite × Nat :=
  match i.work with
  | .upd bound ks next _ _ _ _ _ _ _ =>
    if !ks.isEmpty then (ks, 0)
    else
      let p := UpdPkt.ofWords i.iw
      let dim := s.dimOf p.table
      if next ≥ p.blocks then ([], 0)
      else
        match i.blockBytes p dim next with
        | none => ([], 0)
        | some bs => s.formKites p (s.updBind p bound) (entriesOf p.dfmt p.sfmt dim (64 * next) (p.blockLen next) bs)
  | _ => ([], 0)

/-- The frame of a remote kite (R323). -/
def State.updFrame (s : State) (i : Item) (bd : Bind) (k : UpdKite) : Frame :=
  let p := UpdPkt.ofWords i.iw
  let m : UpdMsg := ⟨p.batch, s.engineId, (k.entries.head?).elim 0 (fun e => e.pos / 64), p.dfmt, p.sfmt, false, k.entries⟩
  { kind := kUpdate, cls := i.cls, hops := 0, fwd := false, admin := i.tenant == 0, age := 0, dst := k.home,
    origin := s.engineId, slot := 0, gen := 0, table := p.table, epoch := bd.epoch, tenant := i.hallId, vslot := bd.slot,
    nrows := k.entries.length, arg0 := 0, arg1 := 0, payload := m.payload }

/-- Local offset of an entry's row at the origin. -/
def State.entryAddr (s : State) (p : UpdPkt) (bd : Bind) (e : UpdEntry) : Nat :=
  match s.table p.table with
  | none => 0
  | some t =>
    if p.part then p.partAddr + e.row * t.dim * 4
    else t.rowAddr bd.slot (t.view bd.epoch (e.row / 65536)).1 e.row

/-- The charge of a kite (R324). -/
def State.updCharge (s : State) (i : Item) (k : UpdKite) : Charge :=
  let p := UpdPkt.ofWords i.iw
  match i.work with
  | .upd bound _ _ _ _ _ _ _ _ _ =>
    let bd := s.updBind p bound
    if k.home = s.engineId then
      { Charge.zero with acts := actsOf (k.entries.map (s.entryAddr p bd)), vec := k.entries.length }
    else { Charge.zero with fab := (s.updFrame i bd k).units, vec := k.entries.length }
  | _ => .zero

/-! ### Credit (R325, R326) -/

/-- UPDATE kites of update batches BUSY to a home. -/
def State.updBusy (s : State) (home : Nat) : Nat :=
  (s.kite.tethers.filter (fun (_, t) => t.st == .busy && t.dst == home && (match t.owner with
    | .upd _ _ _ => true
    | _ => false))).length
  + (s.kite.waiting.filter (fun w => w.frame.dst == home && w.frame.kind == kUpdate)).length

/-- The credit of a home. -/
def State.creditOf (s : State) (home : Nat) : Nat :=
  if (mapGet s.kite.backoff home).isSome then 0
  else (mapGet s.kite.credit home).getD (s.rbits Reg.KITE_UPD_CTL 9 5)

/-- The credit allows another kite to a home. -/
def State.creditAllows (s : State) (home : Nat) : Bool := decide (s.updBusy home < s.creditOf home)

/-- An UPDATE_ACK sets a home's credit; the cache holds 4,096 homes, and which one leaves it is free (log 21). -/
def State.setCredit (s : State) (home credit backoff : Nat) : State :=
  let s := s.modKite (fun k => { k with backoff := mapDel k.backoff home })
  let s := if credit = 0 then s.modKite (fun k => { k with backoff := mapSet k.backoff home (s.hall.landing + backoff) }) else s
  if (mapGet s.kite.credit home).isSome || s.kite.credit.length < 4096 then
    s.modKite (fun k => { k with credit := mapSet k.credit home credit })
  else
    let out := (s.kite.credit.getD (freeNat s.freeSeq % 4096) (0, 0)).1
    s.draw.modKite (fun k => { k with credit := mapSet (mapDel k.credit out) home credit })

/-- Units of the inbox, 0 for none (R327, R328). -/
def State.inboxUnits (s : State) : Nat :=
  let lg := s.rbits Reg.KITE_UPD_INBOX_SIZE 4 0
  if 16 ≤ lg ∧ lg ≤ 24 then 2 ^ lg else 0

/-- A served kite. -/
def State.servedOf (s : State) (id : Nat) : Option Served := s.kite.served.find? (fun v => v.id == id)

/-- Units the inbox holds. -/
def State.inboxUsed (s : State) : Nat := sumNat (s.kite.inbox.map (fun id => (s.servedOf id).elim 0 (fun v => v.frame.units)))

/-- Live ledger entries. -/
def State.ledgerUsed (s : State) : Nat := (s.kite.ledger.filter (fun l => decide (s.now < l.expires))).length

/-- Ledger entries. -/
def ledgerMax : Nat := 1048576

/-- Lines per microsecond that the adders reach now: 4,000 a column in HALL and RACK, 2,500 in CABINET, at the column's
fraction (Limits of updates, R37). -/
def State.adderRate (s : State) : Nat :=
  sumNat (s.stw.cols.map (fun c => c.frac.pct * (if s.active = 2 then 2500 else 4000))) / 100

/-- CREDIT and BACKOFF of an acknowledgement (R326). Half the inbox is read as half its occupied units, a line each
(log 22). -/
def State.grant (s : State) : Nat × Nat :=
  let used := s.inboxUsed
  let all := s.inboxUnits
  let led := s.ledgerUsed
  if 2 * used ≥ all || 4 * led ≥ 3 * ledgerMax then
    let ns := ceilDiv (ceilDiv used 2 * 1000) (max 1 s.adderRate)
    (0, max 1 (min 255 (ceilDiv ns (max 1 s.lenNs))))
  else if 4 * used ≥ all || 2 * led ≥ ledgerMax then (s.rbits Reg.KITE_UPD_CTL 9 5, 0)
  else (s.rbits Reg.KITE_UPD_CTL 4 0, 0)

/-! ### Deltas into the combining buffer (R313 to R315, R329, R344) -/

/-- Storage kind of a table format that takes APPLY updates (R313). -/
def storeKind (fmt : Nat) : Option Nat :=
  match fmt with
  | 2 => some 0 | 4 => some 1 | 5 => some 2 | 6 => some 3 | 8 => some 4
  | _ => none

/-- R313 allows a delta format on a table format. -/
def addKindOk (fmt dfmt : Nat) : Bool :=
  match storeKind fmt with
  | none => false
  | some k => if k ≤ 2 then decide (3 ≤ dfmt ∧ dfmt ≤ 5) else (dfmt == 1 || dfmt == 2 || dfmt == 4 || dfmt == 5)

/-- Width of a state field (R315). -/
def stateWidth (sfmt : Nat) : Nat := if sfmt = 1 then 1 else 4

/-- Place of the state field in a row (R315). -/
def Table.stateAt (t : Table) (sfmt : Nat) : Nat := roundUp t.rowSize (stateWidth sfmt)

/-- FP32 code of a floating delta code, exact. -/
def deltaFp32 (dfmt code : Nat) : Nat :=
  match dfmt with
  | 1 => code
  | 2 => fFP32.convInf (fBF16.decode code)
  | 4 => fFP32.convInf (fE4M3.decode code)
  | _ => fFP32.convInf (fE5M2.decode code)

/-- One element's delta. -/
def mkDelta (off kind : Nat) (scale : Word) (zp : Int) (gscale : Word) (dfmt code : Nat) : Delta :=
  let int := dfmtInt dfmt
  let d : Delta := { off := off, kind := kind, scale := scale, zp := zp, gscale := gscale,
                     isum := if int then signedOf (8 * dfmtBytes dfmt) code else 0,
                     hi := if int then 0 else deltaFp32 dfmt code, lo := 0, maxd := 0, count := 1, isInt := int }
  { d with maxd := if d.value.isNan then 0 else fFP32.convInf d.value.abs }

/-- The deltas of an entry whose row lies at an address (R314, R315). -/
def entryDeltas (t : Table) (m : UpdMsg) (addr : Nat) (e : UpdEntry) : List Delta :=
  match storeKind t.format with
  | none => []
  | some k =>
    let w := storeBytes k
    ((upto 0 e.deltas.length).zip e.deltas).map (fun (j, c) => mkDelta (addr + j * w) k t.scale t.zp t.gradScale m.dfmt c)
      ++ (if m.sfmt = 0 then [] else
        let kind := if m.sfmt = 1 then 0 else if m.sfmt = 2 then 5 else 4
        let fmt := if m.sfmt = 1 then 3 else if m.sfmt = 2 then 0 else 1
        [mkDelta (addr + t.stateAt m.sfmt) kind t.stateScale 0 t.stateScale fmt
          (if m.sfmt = 1 then e.state.bits 7 0 else e.state.toNat)])

/-- The deltas of an entry of a partial batch (R344). -/
def partDeltas (t : Table) (m : UpdMsg) (addr : Nat) (e : UpdEntry) : List Delta :=
  let one : Word := 0x3F800000
  ((upto 0 e.deltas.length).zip e.deltas).map (fun (j, c) =>
    if dfmtInt m.dfmt then mkDelta (addr + 4 * j) 5 one 0 one m.dfmt c
    else mkDelta (addr + 4 * j) 4 one 0 t.gradScale m.dfmt c)

/-- Lines of a column that wait in the combining buffer. -/
def State.combIn (s : State) (k : Nat) : List CombLine := s.kite.comb.filter (fun c => columnOf (c.line * 64) == k)

/-- A full column's oldest line leaves in its read-modify-write (Limits of updates). -/
def State.combRoom (s : State) (k : Nat) : State :=
  let l := s.combIn k
  if l.length < 1024 then s
  else
    match l with
    | c :: _ => if s.stw.poison.contains c.line then s.failLine c else s.addLine c
    | [] => s

/-- Put a delta into the buffer for a kite; true when it was added into a waiting one (R329). -/
def State.addDelta (s : State) (id table : Nat) (d : Delta) : State × Bool :=
  let line := d.off / 64
  match s.combOf line with
  | some c =>
    let hit := c.deltas.any (fun x => x.off == d.off)
    let ds := if hit then c.deltas.map (fun x => if x.off = d.off then x.combine d else x) else c.deltas ++ [d]
    let new := !c.kites.contains id
    let s := s.modKite (fun k => { k with comb := k.comb.map (fun x =>
      if x.line = line then { x with deltas := ds, kites := if new then x.kites ++ [id] else x.kites } else x) })
    ((if new then s.modServed id (fun v => { v with pendLines := v.pendLines + 1 }) else s), hit)
  | none =>
    let s := s.combRoom (columnOf (line * 64))
    let s := s.modKite (fun k => { k with comb := k.comb ++ [⟨line, table, s.now, [d], [id]⟩] })
    (s.modServed id (fun v => { v with pendLines := v.pendLines + 1 }), false)

/-- Put the deltas of one entry into the buffer; an entry that combines counts once (R329; log 23). -/
def State.addEntry (s : State) (id table : Nat) (ds : List Delta) : State :=
  let (s, any) := ds.foldl (fun (acc : State × Bool) d =>
    let (s, hit) := acc.1.addDelta id table d
    (s, acc.2 || hit)) (s, false)
  if any then s.bump Reg.KITE_UPD_COMBINE_CNT 1 else s

/-! ### Dual-apply (R297, R338) -/

/-- Lines of one slot of a shard. -/
def Table.shardLines (t : Table) : Nat := 1024 * t.stride

/-- The placement under which this engine holds a shard now. -/
def State.homePl (s : State) (t : Table) (table shard : Nat) : Nat :=
  let e := t.shard shard
  if plHome e.cur = s.engineId then e.cur
  else
    match migFind s.kite.migSrc table shard with
    | some m => if m.state ≥ 4 then e.prev else e.cur
    | none => if (migFind s.kite.migDst table shard).isSome then e.next else e.cur

/-- Line numbers, over the slots being copied, that an entry's adds reach. -/
def Mig.linesOf (m : Mig) (t : Table) (slot base : Nat) (ds : List Delta) : List Nat :=
  let k := (m.slots.findIdx? (fun x => x == slot)).getD 0
  (ds.map (fun d => k * t.shardLines + (d.off - base) / 64)).eraseDups

/-- A line of the copy has been acknowledged. -/
def Mig.isAcked (m : Mig) (line : Nat) : Bool := m.acked.any (fun (a, n) => decide (a ≤ line) && decide (line < a + n))

/-- The lines of an entry that have been read and not acknowledged, or none where no line has been read (R297). -/
def Mig.dualLines (m : Mig) (lines : List Nat) : Option (List Nat) :=
  if m.state = 3 then some []
  else
    let read := lines.filter (fun l => decide (l < m.next))
    if read.isEmpty then none else some (read.filter (fun l => !m.isAcked l))

/-- A dual-apply copy of some entries (R338). -/
def State.dualFrame (s : State) (f : Frame) (m : UpdMsg) (peer : Nat) (es : List UpdEntry) : Frame :=
  let c : UpdMsg := { m with dual := true, entries := es }
  { withMsg f c with kind := kUpdate, fwd := true, hops := 0, age := 0, dst := peer, origin := s.engineId, slot := 0, gen := 0 }

/-- Send a dual-apply copy, charged as an answer is (log 24). -/
def State.sendDual (s : State) (id : Nat) (f : Frame) : State :=
  let s := (s.bump Reg.KITE_UPD_DUAL_CNT 1).chargeServed [0, 0, 0, 0] f.units
  let (s, r) := s.sendKite f (.dual id)
  match r with
  | .noRoute => s.modServed id (fun v => { v with dualLost := true })
  | _ => s.modServed id (fun v => { v with duals := v.duals + 1 })

/-- The adds of one kite enter the buffer, and the copies of R297 are made. -/
def State.kiteAdds (s : State) (id : Nat) (f : Frame) (t : Table) (m : UpdMsg) : State :=
  let shard := (m.entries.head?).elim 0 (fun e => e.row / 65536)
  let pl := s.homePl t f.table shard
  let base := t.rowAddr f.vslot pl 0
  let mig := (migFind s.kite.migSrc f.table shard).filter (fun x => decide (2 ≤ x.state ∧ x.state ≤ 4))
  let r := m.entries.foldl (fun (acc : State × List UpdEntry) e =>
    let (s, now) := acc
    let ds := entryDeltas t m (t.rowAddr f.vslot pl e.row) e
    let s := s.addEntry id f.table ds
    match mig with
    | none => (s, now)
    | some g =>
      match g.dualLines (g.linesOf t f.vslot base ds) with
      | none => (s, now)
      | some [] => (s, now ++ [e])
      | some ls =>
        let s := s.modKite (fun k => { k with dualWait := k.dualWait ++ [⟨id, s.dualFrame f m g.peer [e], f.table, shard, ls⟩] })
        (s.modServed id (fun v => { v with duals := v.duals + 1 }), now)) (s, [])
  let s := r.1.countLoad f.table shard 0 m.entries.length
  match mig with
  | some g => if r.2.isEmpty then s else s.sendDual id (s.dualFrame f m g.peer r.2)
  | none => s

/-- Lines of a copy have been acknowledged: the deferred copies that waited for them go out (R297). -/
def State.dualRelease (s : State) (table shard : Nat) (acked : Nat → Bool) : State :=
  let ws := s.kite.dualWait
  let left := ws.map (fun w => if w.table = table ∧ w.shard = shard then { w with lines := w.lines.filter (fun l => !acked l) } else w)
  let s := s.modKite (fun k => { k with dualWait := left.filter (fun w => !w.lines.isEmpty) })
  (left.filter (fun w => w.lines.isEmpty)).foldl (fun (s : State) w =>
    (s.modServed w.served (fun v => { v with duals := v.duals - 1 })).sendDual w.served w.frame) s

/-! ### The origin's chunks -/

/-- A served kite of this engine's own (R322). -/
def State.serveLocal (s : State) (item : Nat) (f : Frame) : State × Nat :=
  let id := s.kite.nextServed
  let v : Served := ⟨id, f, s.now, [], 0, true, 0, false, none, false, false, some item⟩
  (s.modKite (fun k => { k with served := k.served ++ [v], nextServed := id + 1 }), id)

/-- A batch with nothing left to send and nothing outstanding ends (R321, R348). -/
def State.updFinish (s : State) (seq : Nat) : State :=
  match s.item seq with
  | none => s
  | some i =>
    match i.work with
    | .upd _ ks next _ l r sat nan rb cw =>
      if ks.isEmpty && i.chunks.isEmpty && decide (next ≥ (UpdPkt.ofWords i.iw).blocks) then
        s.endItem seq ⟨St.ok, l + r * 2 ^ 17, b2n sat + 2 * b2n nan + 4 * b2n rb + 8 * b2n cw⟩
      else s
    | _ => s

/-- Ask for the entries of the block that is next (R310, R311): bad ones end the batch when they are read. -/
def State.updPrep (s : State) (seq : Nat) : State :=
  match s.item seq with
  | none => s
  | some i =>
    match i.work with
    | .upd _ _ next _ _ _ _ _ _ _ =>
      let p := UpdPkt.ofWords i.iw
      let e := entryLen p.dfmt p.sfmt (s.dimOf p.table)
      if !p.listPtr || next ≥ p.blocks then s
      else if p.listLoc && !s.inOwnRing i.tenant p.listAddr (e * p.count) then s
      else
        let s := s.needInput seq next 0 p.listLoc (p.listAddr + e * 64 * next) (e * p.blockLen next)
        match (s.item seq).bind (fun j => mapGet j.inputs next), s.table p.table with
        | some bs, some t =>
          match p.badEntry t.dim t.rows next bs with
          | some (pos, off) => s.failItem seq ⟨St.badField, off, pos⟩
          | none => s
        | _, _ => s
    | _ => s

/-- One chunk of a batch is complete. -/
def State.updChunkDone (s : State) (seq chunk localN remoteN : Nat) (sat nan : Bool) : State :=
  let s := s.modItem seq (fun i => { i with
    chunks := i.chunks.filter (fun c => c.id != chunk)
    work := match i.work with
      | .upd b ks n o l r a x rb cw => .upd b ks n o (l + localN) (r + remoteN) (a || sat) (x || nan) rb cw
      | w => w })
  s.updFinish seq

/-- Start a local kite: its entries are resolved under R337 and added, or go on to another engine. -/
def State.startLocal (s : State) (seq : Nat) (c : Chunk) (p : UpdPkt) (f : Frame) (k : UpdKite) : State :=
  match s.table p.table with
  | none => s
  | some t =>
    let m := UpdMsg.ofFrame f t.dim
    let (s, id) := s.serveLocal seq { f with arg1 := Word.ofNat c.id }
    if p.part then
      k.entries.foldl (fun (s : State) e =>
        s.addEntry id partialTable (partDeltas t m (p.partAddr + e.row * t.dim * 4) e)) s
    else
      match s.resolveUpdate t p.table k.shard false false with
      | .forward dst =>
        let s := s.modKite (fun x => { x with served := x.served.filter (fun v => v.id != id) })
        let (s, r) := (s.bump Reg.KITE_FWD_CNT 1).sendKite { f with dst := dst, fwd := true } (.upd seq c.id k.entries.length)
        (match r with
          | .noRoute => s.failItem seq ⟨St.unreachable, dst, 0⟩
          | _ => s)
      | .refuse => s.failItem seq ⟨St.unreachable, s.engineId, 0⟩
      | _ => s.kiteAdds id f t m

/-- A chunk of a batch, its first waiting kite, has been admitted and charged (R312, R322 to R325). -/
def State.startUpd (s : State) (seq : Nat) (c : Chunk) (ks : List UpdKite) (rebinds : Nat) : State :=
  match s.item seq, ks with
  | some i, k :: rest =>
    match i.work with
    | .upd bound old next o l r a x rb cw =>
      let p := UpdPkt.ofWords i.iw
      let st := s.tstate p.table
      if bound.isNone && !p.part && st != .training then s.failChunk seq c ⟨St.badState, st.code, 0⟩
      else
        let bd := s.updBind p bound
        let fresh := old.isEmpty
        let s := if fresh then s.bump Reg.DIR_REBIND_CNT rebinds else s
        let s := s.setWork seq (.upd (if p.part then none else some bd) rest (if fresh then next + 1 else next) o l r a x
          (rb || decide (rebinds > 0)) cw)
        let f := s.updFrame i bd k
        let s :=
          if k.home = s.engineId then
            let s := s.refundActs c ((k.entries.map (fun e => s.entryAddr p bd e / 2048)).eraseDups)
            s.startLocal seq c p f k
          else
            let (s, res) := s.sendKite f (.upd seq c.id k.entries.length)
            match res with
            | .noRoute => s.failItem seq ⟨St.unreachable, k.home, 0⟩
            | _ => s
        if rest.isEmpty then s.updPrep seq else s
    | _ => s
  | _, _ => s

/-! ### The home: checks common to GATHER and UPDATE (R283), ledger and inbox -/

/-- A reset is in progress (R283). -/
def State.inReset (s : State) : Bool := s.rst.phase != .run

/-- An arriving frame that is too old is discarded (R279); otherwise it is taken up. -/
def State.arrives (s : State) (f : Frame) : State × Bool :=
  if f.age > 16000 then (s.bump Reg.ZP_AGEDROP_CNT 1, false) else (s, true)

/-- Send a NACK that names this engine (R284). -/
def State.nackSelf (s : State) (f : Frame) (reason : Nat) : State := s.replyServed (f.nack reason s.engineId)

/-- Positions of a message that a live entry already records (R333). -/
def State.ledgerSeen (s : State) (tenant : Nat) (m : UpdMsg) : List Nat :=
  let es := s.kite.ledger.filter (fun l => l.keyOrigin == m.keyOrigin && l.tenant == tenant && l.batch == m.batch.toNat
    && l.block == m.block && decide (s.now < l.expires))
  es.flatMap (fun l => bitsOf l.mask 64)

/-- Record the positions of a kite (R333, R334). -/
def State.ledgerAdd (s : State) (id tenant : Nat) (m : UpdMsg) : State :=
  s.modKite (fun k => { k with ledger := k.ledger ++
    [⟨m.keyOrigin, tenant, m.batch.toNat, m.block, m.mask, s.now + 2 * s.lifeNs, id⟩] })

/-- Take a kite into the inbox; what its bytes in the ring are is free (log 25). -/
def State.inboxTake (s : State) (id : Nat) (f : Frame) : State :=
  let base := (s.reg Reg.KITE_UPD_INBOX_BASE_LO).toNat + s.rbits Reg.KITE_UPD_INBOX_BASE_HI 5 0 * 2 ^ 32
  let at_ := s.kite.inboxTail % max 1 s.inboxUnits
  let s := (upto 0 f.units).foldl (fun (s : State) u =>
    s.stwWrite (base + 64 * ((at_ + u) % max 1 s.inboxUnits)) ((upto (64 * u) 64).map (freeByte s.freeSeq))) s
  let v : Served := ⟨id, f, s.now, [], 0, false, 0, false, none, false, false, none⟩
  (s.draw.modKite (fun k => { k with
    served := k.served ++ [v], inbox := k.inbox ++ [id], inboxTail := k.inboxTail + f.units })).touchSlot f.table f.vslot

/-- An UPDATE arrives and passes the checks of R283 and R340: the ledger, then R337 (R328, R333). -/
def State.updArrive (s : State) (f : Frame) (t : Table) (m : UpdMsg) : State :=
  let shard := (m.entries.head?).elim 0 (fun e => e.row / 65536)
  let w := s.resolveUpdate t f.table shard f.fwd m.dual
  if w = .refuse then s.nackSelf f 3
  else
    let seen := s.ledgerSeen f.tenant m
    let left := m.entries.filter (fun e => !seen.contains (e.pos - 64 * m.block))
    let s := if left.length < m.entries.length then s.bump Reg.KITE_LEDGER_DUP_CNT 1 else s
    if left.isEmpty then s
    else
      let m := { m with entries := left }
      let g := withMsg f m
      let id := s.kite.nextServed
      let full := decide (s.ledgerUsed ≥ ledgerMax)
      match w with
      | .forward dst =>
        if full then (s.bump Reg.KITE_UPD_FULL_CNT 1).replyServed (f.nack 11 0xFF)
        else ((s.modKite (fun k => { k with nextServed := id + 1 })).ledgerAdd id f.tenant m).forward g dst
      | _ =>
        if full || s.inboxUsed + g.units > s.inboxUnits then (s.bump Reg.KITE_UPD_FULL_CNT 1).replyServed (f.nack 11 0xFF)
        else ((s.modKite (fun k => { k with nextServed := id + 1 })).ledgerAdd id f.tenant m).inboxTake id g

/-- The window after a warm reset in which every UPDATE is refused (R335). -/
def State.nackWindow (s : State) : Bool := s.kite.nackWait || (match s.kite.nackUntil with
  | some u => decide (s.now < u)
  | none => false)

/-- A home checks an arriving UPDATE (R283, R335, R340). -/
def State.updCheck (s : State) (f : Frame) : State :=
  if s.inReset || s.nackWindow then s.nackSelf f 8
  else
    match s.table f.table with
    | none => s.nackSelf f 2
    | some t =>
      let m := UpdMsg.ofFrame f t.dim
      if m.entries.any (fun e => decide (e.row ≥ t.rows)) then s.nackSelf f 9
      else if !s.mayUse f.tenant f.table t true then s.replyServed (f.nack 1 0)
      else if t.st != .training then s.replyServed (f.nack 11 t.st.code)
      else
        let sl := t.slot f.vslot
        if sl.st != .current && sl.st != .old then s.replyServed (f.nack 11 sl.st.code)
        else s.updArrive f t m

/-- A served kite leaves the home. -/
def State.unserve (s : State) (id : Nat) : State :=
  let s := s.modKite (fun k => { k with
    served := k.served.filter (fun v => v.id != id)
    inbox := k.inbox.filter (· != id)
    dualWait := k.dualWait.filter (fun w => w.served != id) })
  let s := s.modRc (fun r => { r with misses := r.misses.map (fun m =>
    { m with waiters := m.waiters.filter (fun w => w.1 != servedKey id) }) })
  s.modXlt (fun x => { x with accs := x.accs.filter (fun a => match a.purpose with
    | .coldRow key _ => key != servedKey id
    | _ => true) })

/-- The adders take the oldest kite of the inbox (R329, R330, R300, R324). -/
def State.adderTakeOne (s : State) : State :=
  match s.kite.inbox with
  | [] => s
  | id :: rest =>
    match s.servedOf id with
    | none => s.modKite (fun k => { k with inbox := rest })
    | some v =>
      if s.now > v.arrived + s.lifeNs - us 33 then s
      else
        let s := (s.modKite (fun k => { k with inbox := rest })).modServed id (fun v => { v with taken := true })
        match s.table v.frame.table with
        | none => s
        | some t =>
          let m := UpdMsg.ofFrame v.frame t.dim
          let shard := (m.entries.head?).elim 0 (fun e => e.row / 65536)
          match s.resolveUpdate t v.frame.table shard v.frame.fwd m.dual with
          | .forward dst => (s.unserve id).forward v.frame dst
          | _ =>
            let pl := s.homePl t v.frame.table shard
            let acts := actsOf (m.entries.map (fun e => t.rowAddr v.frame.vslot pl e.row))
            (s.chargeServed acts 0).kiteAdds id v.frame t m

/-- Kites that were not taken up in time are abandoned, unapplied (R330, R280). -/
def State.inboxExpire (s : State) : State :=
  let late := s.kite.inbox.filter (fun id => (s.servedOf id).elim false (fun v => decide (s.now > v.arrived + s.lifeNs - us 33)))
  late.foldl (fun (s : State) id =>
    let s := s.modKite (fun k => { k with ledger := k.ledger.filter (fun l => l.kite != id) })
    (s.unserve id).bump Reg.KITE_ABANDON_CNT 1) s

/-- Every add of a kite has reached the stairwell: the home answers, or the origin's own chunk is complete (R330, R331,
R339). A local kite whose copy ended without an acknowledgement ends its item as a kite of its own would (log 26). -/
def State.updAnswer (s : State) (id : Nat) : State :=
  match s.servedOf id with
  | none => s
  | some v =>
    if v.frame.kind ≠ kUpdate || !v.taken || v.pendLines > 0 || v.duals > 0 then s
    else
      let s := s.unserve id
      match v.item with
      | some seq =>
        match v.failed with
        | some l => s.failItem seq ⟨St.memUnc, s.hallAddr (l * 64), 0⟩
        | none =>
          if v.dualLost then (s.bump Reg.KITE_TIMEOUT_CNT 1).failItem seq ⟨St.kiteTimeout, s.engineId, 0⟩
          else s.updChunkDone seq v.frame.arg1.toNat v.frame.nrows 0 v.sat v.nan
      | none =>
        match v.failed with
        | some l => s.replyServed (v.frame.nack 5 (s.hallAddr (l * 64)))
        | none =>
          if v.dualLost then s
          else
            let (cr, bo) := s.grant
            s.replyServed (v.frame.answer kUpdateAck (cr + bo * 2 ^ 5 + b2n v.sat * 2 ^ 13 + b2n v.nan * 2 ^ 14) 0 [])

/-- A waiting line makes its read-modify-write; ecc says what its read finds (R329, R331, R463). A blocked column makes
none. -/
def State.combFlush (s : State) (line : Nat) (ecc : Ecc) : State :=
  match s.combOf line with
  | none => s
  | some c =>
    let bad := s.stw.poison.contains line || (match ecc with
      | .uncorrectable _ => true
      | _ => false)
    if s.colBlocked (columnOf (line * 64)) then s
    else if bad then (s.lineUe line).failLine c
    else
      let s := if ecc = .corrected then s.lineCe line else s
      match s.combOf line with
      | some c => s.addLine c
      | none => s

/-! ### SPLIT_REDUCE (R345 to R347) -/

/-- The fields of a SPLIT_REDUCE. -/
structure RedPkt where
  src : Nat
  out : OutFmt
  nsrc : Nat
  count : Nat
  dest : Nat
  oscale : Word
  srcs : List Nat
deriving DecidableEq, Repr

/-- Read a SPLIT_REDUCE's packet. -/
def RedPkt.ofWords (ws : List Word) : RedPkt :=
  let n := (uw ws 2 0).bits 7 5 + 1
  { src := (uw ws 2 0).bits 1 0
    out := .ofCode ((uw ws 2 0).bits 4 2)
    nsrc := n
    count := (uw ws 2 1).bits 23 0 + 1
    dest := uw64 ws 2 2
    oscale := uw ws 2 4
    srcs := (upto 0 n).map (fun j => uw64 ws 3 (2 * j)) }

/-- Bytes of a source element. -/
def RedPkt.srcBytes (p : RedPkt) : Nat := if p.src = 2 then 8 else 4

/-- Elements of the chunk at an element. -/
def RedPkt.len (p : RedPkt) (at_ : Nat) : Nat := min 4096 (p.count - at_)

/-- Lines a chunk reads and writes: their local offsets. -/
def RedPkt.lines (p : RedPkt) (at_ : Nat) : List Nat :=
  let n := p.len at_
  (p.srcs.flatMap (fun a => linesOf (a + at_ * p.srcBytes) (n * p.srcBytes))
    ++ linesOf (p.dest + at_ * p.out.bytes) (n * p.out.bytes)).map (· * 64)

/-- The charge of a chunk (R347). -/
def RedPkt.charge (p : RedPkt) (at_ : Nat) : Charge :=
  { Charge.zero with
    acts := actsOf (p.lines at_)
    vec := p.nsrc * ceilDiv (p.len at_) 128 * (if p.src = 2 then 2 else 1) }

/-- The value of a source element. -/
def RedPkt.value (p : RedPkt) (bs : List Byte) : Val :=
  match p.src with
  | 0 => .ofInt (signedOf 32 (ofLe bs))
  | 1 => fFP32.decode (ofLe bs)
  | _ => pairVal (ofLe (bs.take 4)) (ofLe (bs.drop 4))

/-- Read the sources of a chunk, in order, until one fails. -/
def redRead (s : State) (part n : Nat) : List Nat → State × List (List Byte) × Option Nat
  | [] => (s, [], none)
  | a :: r =>
    let s := s.drawRange a n part
    let (s, rd) := s.engRead a n .good
    match rd.bad with
    | some l => (s, [], some (max l a - a))
    | none =>
      let (s, ds, bad) := redRead s part n r
      (s, rd.data :: ds, bad)

/-- The results of n elements of a SPLIT_REDUCE from its sources' bytes: exact sums, converted (R345). -/
def RedPkt.outs (p : RedPkt) (n : Nat) (ds : List (List Byte)) : List Conv :=
  (upto 0 n).map (fun j => p.out.conv
    ((Val.sum (ds.map (fun d => p.value ((d.drop (j * p.srcBytes)).take p.srcBytes)))).divPos (fp32Val p.oscale)))

/-- A tile of a SPLIT_REDUCE from an element on, its sources read: the exact sums are converted and written, and the last
tile ends the item. -/
def State.reduceDone (s : State) (i : Item) (next : Nat) (sat : Bool) (ds : List (List Byte)) (bad : Option Nat) : State :=
  let seq := i.seq
  let p := RedPkt.ofWords i.iw
  let n := p.len next
  match bad with
  | some o => s.failItem seq ⟨St.xlateFault, next * p.srcBytes + o, 128⟩
  | none =>
    let cs := p.outs n ds
    let s := s.drawRange (p.dest + next * p.out.bytes) (n * p.out.bytes) (s.tenant i.tenant).part
    let s := s.engWrite (p.dest + next * p.out.bytes) (convBytes p.out cs)
    let sat := sat || cs.any (·.sat)
    let s := (s.setWork seq (.reduce (next + n) sat)).chunksDone seq
    if next + n ≥ p.count then s.endItem seq ⟨St.ok, 0, b2n sat⟩ else s

/-- One tile of a SPLIT_REDUCE from an element on: its sources are read. -/
def State.reduceTile (s : State) (i : Item) (c : Chunk) (next : Nat) (sat : Bool) : State :=
  let p := RedPkt.ofWords i.iw
  let b := p.srcBytes
  let s := s.refundActs c ((p.lines next).map (· / 2048)).eraseDups
  let r := redRead s (s.tenant i.tenant).part (p.len next * b) (p.srcs.map (· + next * b))
  r.1.reduceDone i next sat r.2.1 r.2.2

/-- A chunk of a SPLIT_REDUCE has been admitted and charged: it is one tile (R346, R347); a memory error ends it as R382
says of a gallery operation, at the byte's offset in its source (log 27). -/
def State.startReduce (s : State) (seq : Nat) (c : Chunk) : State :=
  match s.item seq with
  | none => s
  | some i =>
    match i.work with
    | .reduce next sat => s.reduceTile i c next sat
    | _ => s

end Sys2Proof.Machine
end

