-- ==== Sys2Proof/Machine/Copy.lean ====
section
/-! DEFINITION. Copies (R507 to R532): entries and tiles, their charges, the channels, CRC-32C, barriers and flags, hall
pieces, prefetch; and INLINE_WRITE (R476, R477). -/
namespace Sys2Proof.Machine

open Sys2Proof.Config

/-! ### The packet (R508 to R510) -/

/-- The fields of a COPY. -/
structure CpyPkt where
  dir : Nat
  listPtr : Bool
  listLoc : Bool
  crc : Nat
  barrier : Bool
  flag : Bool
  count : Nat
  peer : Nat
  listAddr : Nat
  crcAddr : Nat
  seed : Word
  expect : Word
  flagAddr : Nat
  flagVal : Nat
deriving DecidableEq, Repr

/-- Read a COPY's packet. -/
def CpyPkt.ofWords (ws : List Word) : CpyPkt where
  dir := (uw ws 1 4).bits 1 0
  listPtr := (uw ws 1 4).bit 6
  listLoc := (uw ws 1 4).bit 7
  crc := (uw ws 1 4).bits 9 8
  barrier := (uw ws 1 4).bit 10
  flag := (uw ws 1 4).bit 11
  count := (uw ws 1 4).bits 27 16 + 1
  peer := (uw ws 1 5).bits 17 0
  listAddr := uw64 ws 1 6
  crcAddr := uw64 ws 2 0
  seed := uw ws 2 2
  expect := uw ws 2 3
  flagAddr := uw64 ws 2 4
  flagVal := uw64 ws 2 6

/-- The copy crosses the fabric. -/
def CpyPkt.hall (p : CpyPkt) : Bool := decide (p.dir ≥ 2)

/-- The source is the other side: host memory or the peer. -/
def CpyPkt.srcFar (p : CpyPkt) : Bool := p.dir == 0 || p.dir == 3

/-! ### Entries (R511 to R513) -/

/-- Slots a list is read in at a time (R216). -/
def slotBlock : Nat := 64

/-- The words of a list slot, if they are there. -/
def Item.slotWords (i : Item) (p : CpyPkt) (n : Nat) : Option (List Word) :=
  if p.listPtr then
    (mapGet i.inputs (n / slotBlock)).map (fun bs =>
      (upto 0 4).map (fun k => Word.ofNat (ofLe ((bs.drop (16 * (n % slotBlock) + 4 * k)).take 4))))
  else some ((upto 0 4).map (fun k => i.iw.getD (16 + 4 * n + k) 0))

/-- A range lies on the engine side: in the stairwells or in the pinned window's largest extent (R513). -/
def cpyEngOk (a n : Nat) : Bool :=
  decide (a + n ≤ memLimit) || (decide (pinBase ≤ a) && decide (a + n ≤ pinBase + 0x4000000))

/-- An entry: its first slot, row length, rows, strides and addresses. -/
structure CpyEntry where
  slot : Nat
  slots : Nat
  row : Nat
  rows : Nat
  hstride : Nat
  estride : Nat
  haddr : Nat
  eaddr : Nat
deriving DecidableEq, Repr

/-- Read an entry from its slot and the next one. -/
def CpyEntry.ofWords (slot : Nat) (w v : List Word) : CpyEntry :=
  let g := fun i => w.getD i 0
  let two := (g 3).bit 22
  { slot := slot
    slots := if two then 2 else 1
    row := (g 3).bits 21 6 + 1
    rows := if two then (v.getD 2 0).bits 15 0 + 1 else 1
    hstride := if two then (v.getD 0 0).toNat else 0
    estride := if two then (v.getD 1 0).toNat else 0
    haddr := Word.pair (g 0) (g 1)
    eaddr := (g 2).toNat + (g 3).bits 5 0 * 2 ^ 32 }

/-- The reserved bits and the ranges of an entry are as R511 to R513 give. -/
def cpyEntryOk (p : CpyPkt) (slot : Nat) (w v : List Word) : Bool :=
  let e := CpyEntry.ofWords slot w v
  let far := (e.rows - 1) * e.hstride + e.row
  let near := (e.rows - 1) * e.estride + e.row
  let dst := if p.srcFar then e.estride else e.hstride
  decide ((w.getD 3 0).bits 31 23 = 0)
    && (e.slots == 1 || (decide (slot + 1 < p.count) && decide ((v.getD 2 0).bits 31 16 = 0) && (v.getD 3 0) == 0
        && decide (e.rows * e.row ≤ 65536) && decide (dst ≥ e.row)))
    && cpyEngOk e.eaddr near
    && (!p.hall || (decide ((w.getD 1 0).bits 31 6 = 0) && decide (e.haddr + far ≤ memLimit)))

/-- The tiles of an entry (R515). -/
def CpyEntry.tiles (p : CpyPkt) (e : CpyEntry) : List CpyTile :=
  (upto 0 e.rows).map (fun r =>
    let h := e.haddr + r * e.hstride
    let l := e.eaddr + r * e.estride
    { entry := e.slot, off := r * e.row, src := if p.srcFar then h else l, dst := if p.srcFar then l else h,
      len := e.row, state := 0, data := [], sent := 0, kites := 0, retries := 0 })

/-- The entry that starts at a slot, when its slots are there; false where it fails R511 to R513. -/
def Item.cpyEntry (i : Item) (p : CpyPkt) (slot : Nat) : Option (CpyEntry × Bool) :=
  match i.slotWords p slot with
  | none => none
  | some w =>
    let two := (w.getD 3 0).bit 22 && decide (slot + 1 < p.count)
    match (if two then i.slotWords p (slot + 1) else some []) with
    | none => none
    | some v => some (CpyEntry.ofWords slot w v, cpyEntryOk p slot w v)

/-! ### Pieces of a hall copy (R527) -/

/-- Bytes of the piece at a byte of a tile whose peer side starts at an offset. -/
def pieceLen (far len sent : Nat) : Nat := min (len - sent) (4096 - (far + sent) % 4096)

/-- Fabric units of the kites of one tile (R271); none when the peer is this engine (R508). -/
def tileUnits (write : Bool) (far len sent fuel : Nat) : Nat :=
  match fuel with
  | 0 => 0
  | f + 1 =>
    if sent ≥ len then 0
    else
      let n := pieceLen far len sent
      (if write then ceilDiv (32 + roundUp n 32) 64 else 1) + tileUnits write far len (sent + n) f

/-- The charge of an entry (R516). -/
def State.cpyCharge (s : State) (p : CpyPkt) (e : CpyEntry) : Charge :=
  let ts := e.tiles p
  let near := fun (t : CpyTile) => if p.srcFar then t.dst else t.src
  let far := fun (t : CpyTile) => if p.srcFar then t.src else t.dst
  let pages := ((ts.filter (fun t => decide (near t < memLimit))).flatMap (fun t => pagesOf (near t) t.len)).eraseDups
  let last := decide (e.slot + e.slots ≥ p.count)
  { Charge.zero with
    acts := actsOf (pages.map (· * 2048))
    cpy := ceilDiv (e.rows * e.row) 64 + (if last then b2n (p.crc == 1) + b2n p.flag else 0)
    fab := if p.hall && p.peer != s.engineId then sumNat (ts.map (fun t => tileUnits (p.dir == 2) (far t) t.len 0 40)) else 0 }

/-! ### Channels -/

/-- Change a channel. -/
def State.modChan (s : State) (ch : Nat) (f : Chan → Chan) : State := { s with cpy := updAt s.cpy ch f }

/-- A channel. -/
def State.chan (s : State) (ch : Nat) : Chan := s.cpy.getD ch Chan.reset

/-- The order of a class. -/
def Chan.queue (c : Chan) (lat : Bool) : List Nat := if lat then c.lat else c.bulk

/-- A copy runs in the latency class (R518). -/
def Item.isLat (i : Item) : Bool := decide (i.cls0 < 2)

/-- Requester number of a channel. -/
def cpyReq (ch : Nat) : Nat := 24 + ch

/-- Key of the stride detector of a class of a channel. -/
def cpyStream (ch : Nat) (lat : Bool) : Nat := 2 * ch + b2n (!lat)

/-- Tiles of an item's copy. -/
def Item.tiles (i : Item) : List CpyTile :=
  match i.work with
  | .copy ts _ _ _ _ _ _ => ts
  | _ => []

/-- The copy has started. -/
def Item.cpyStarted (i : Item) : Bool :=
  match i.work with
  | .copy _ _ _ _ st _ _ => st
  | _ => false

/-- Every entry has been admitted and read in full (R517). -/
def Item.cpyRead (i : Item) : Bool :=
  match i.work with
  | .copy ts next _ _ _ _ _ => decide (next ≥ (CpyPkt.ofWords i.iw).count) && ts.all (fun t => decide (t.state ≥ 2))
  | _ => false

/-- Change a tile of a copy. -/
def State.modTileC (s : State) (seq n : Nat) (f : CpyTile → CpyTile) : State :=
  s.modItem seq (fun i => { i with work := match i.work with
    | .copy ts nx c st a b r => .copy (updAt ts n f) nx c st a b r
    | w => w })

/-- Beats of a tile. -/
def CpyTile.beats (t : CpyTile) : Nat := ceilDiv t.len 64

/-- The items of a class of a channel, in order. -/
def State.cpyItems (s : State) (ch : Nat) (lat : Bool) : List Item := ((s.chan ch).queue lat).filterMap s.item

/-- Key under which data read ahead at a host address is held (R526). -/
def pfKey (addr : Nat) : Nat := 2 ^ 70 + addr

/-- Beats held ahead of use. -/
def Item.pfBeats (i : Item) : Nat := sumNat ((i.inputs.filter (fun x => decide (x.1 ≥ 2 ^ 70))).map (fun x => ceilDiv x.2.length 64))

/-- A class's fill (R520). -/
def State.cpyFill (s : State) (ch : Nat) (lat : Bool) : Nat :=
  sumNat ((s.cpyItems ch lat).map (fun i =>
    i.pfBeats + sumNat ((i.tiles.filter (fun t => decide (1 ≤ t.state ∧ t.state ≤ 3))).map CpyTile.beats)))
  + sumNat (s.xlt.accs.map (fun a => match a.purpose with
      | .input q k _ => if k ≥ 2 ^ 70 ∧ ((s.chan ch).queue lat).contains q then ceilDiv a.len 64 else 0
      | _ => 0))

/-- Whether a class may issue another read, its watermarks followed (R520, R534): the buffer holds 2,048 beats. -/
def State.cpyMayRead (s : State) (ch : Nat) (lat : Bool) (beats : Nat) : State × Bool :=
  let fill := s.cpyFill ch lat
  let wm := s.reg (selKey Reg.CPY_CH_WM ch)
  let was := if lat then (s.chan ch).stopRead else (s.chan ch).stopReadB
  let stop := if fill ≥ wm.bits 11 0 then true else if fill ≤ wm.bits 27 16 then false else was
  let s := s.modChan ch (fun c => if lat then { c with stopRead := stop } else { c with stopReadB := stop })
  (s, !stop && decide (fill + beats ≤ 2048))

/-- Hall kites a class has outstanding. -/
def State.cpyKites (s : State) (ch : Nat) (lat : Bool) : Nat :=
  sumNat ((s.cpyItems ch lat).map (fun i => i.writes + sumNat (i.tiles.map (·.kites))))

/-! ### Errors (R515, R530, R531) -/

/-- AUX of an error: the entry's slot, what failed, and the two marks. -/
def cpyAux (entry wh : Nat) (buserr mem : Bool) : Nat := entry + wh * 2 ^ 12 + b2n buserr * 2 ^ 14 + b2n mem * 2 ^ 15

/-- A tile fails: the copy ends once every tile before it is written, with the error of the first failing tile (R515;
log 28). -/
def State.cpyTileFail (s : State) (seq n : Nat) (e : Ending) : State :=
  match s.item seq with
  | none => s
  | some i =>
    let first := i.tiles.findIdx? (fun t => t.state == 5)
    let s := if first.elim true (fun k => decide (n < k)) then s.modItem seq (fun i => { i with ending := some e }) else s
    s.modTileC seq n (fun t => { t with state := 5 })

/-- A copy ends with an error of no tile. -/
def State.cpyFail (s : State) (seq : Nat) (e : Ending) : State := s.failItem seq e

/-! ### CRC-32C (R525) -/

/-- Eight shifts of the register. -/
def crcShift (c : Nat) (n : Nat) : Nat :=
  match n with
  | 0 => c
  | k + 1 => crcShift (if c % 2 = 1 then Nat.xor (c / 2) 0x82F63B78 else c / 2) k

/-- CRC-32C of bytes from a seed. -/
def crc32c (seed : Nat) (bs : List Byte) : Nat :=
  Nat.xor (bs.foldl (fun c (b : Byte) => crcShift (Nat.xor c b.toNat) 8) (Nat.xor seed 0xFFFFFFFF)) 0xFFFFFFFF

/-! ### Moving tiles -/

/-- Index of the first tile that satisfies a test. -/
def Item.tileWhere (i : Item) (f : CpyTile → Bool) : Option (Nat × CpyTile) :=
  (i.tiles.findIdx? f).bind (fun n => (i.tiles[n]?).map (fun t => (n, t)))

/-- A tile has been written: its bytes are counted, and its entry's chunk completes with its last tile. -/
def State.cpyWritten (s : State) (seq n : Nat) : State :=
  match s.item seq with
  | none => s
  | some i =>
    match i.tiles[n]? with
    | none => s
    | some t =>
      let ch := copyChan i.words
      let lo := selKey Reg.CPY_CH_BYTES_LO ch
      let total := Word.pair (s.reg lo) (s.reg (lo + 4)) + t.len
      let s := (s.setReg lo (Word.ofNat total)).setReg (lo + 4) (Word.ofNat (total / 2 ^ 32))
      let s := s.modTileC seq n (fun t => { t with state := 4 })
      let left := i.tiles.any (fun x => x.entry == t.entry && x.off != t.off && x.state != 4)
      if left then s else s.modItem seq (fun i => { i with chunks := i.chunks.filter (fun c => c.first != t.entry) })

/-- A source has been read. -/
def State.cpyGot (s : State) (seq n : Nat) (data : List Byte) : State :=
  s.modTileC seq n (fun t => { t with state := 2, data := data })

/-- Start the read of a tile. -/
def State.cpyReadTile (s : State) (ch : Nat) (i : Item) (n : Nat) (t : CpyTile) : State :=
  let p := CpyPkt.ofWords i.iw
  match p.dir with
  | 0 =>
    let s := s.detect (cpyStream ch i.isLat) (s.pasidOf i.tenant) (cpyReq ch) t.src t.len
    match mapGet i.inputs (pfKey t.src) with
    | some d =>
      if d.length = t.len then
        ((s.bump Reg.CPY_PF_USED_CNT 1).modItem i.seq (fun j => { j with inputs := mapDel j.inputs (pfKey t.src) })).cpyGot i.seq n d
      else
        let s := s.modItem i.seq (fun j => { j with inputs := mapDel j.inputs (pfKey t.src) })
        s.modTileC i.seq n (fun t => { t with state := 0 })
    | none =>
      let s := s.modTileC i.seq n (fun t => { t with state := 1 })
      let (s, a) := s.hostAcc (cpyReq ch) i.tenant t.src t.len none (.cpyRead i.seq n) false
      match a with
      | .fault perm at_ => s.cpyTileFail i.seq n ⟨xlStatus perm, t.off + (at_ - t.src), cpyAux t.entry 0 false false⟩
      | _ => s
  | 3 => s.modTileC i.seq n (fun t => { t with state := 1, data := List.replicate t.len 0 })
  | _ =>
    let s := s.drawRange t.src t.len (s.tenant i.tenant).part
    let (s, rd) := s.engRead t.src t.len .good
    match rd.bad with
    | some l => s.cpyTileFail i.seq n ⟨St.memUnc, s.hallAddr l, cpyAux t.entry 0 false false⟩
    | none => s.cpyGot i.seq n rd.data

/-- A hall kite of a copy (R527). -/
def State.hallFrame (s : State) (i : Item) (write : Bool) (off n : Nat) (data : List Byte) : Frame :=
  { kind := if write then kHallWrite else kHallRead, cls := i.cls, hops := 0, fwd := false, admin := true, age := 0,
    dst := (CpyPkt.ofWords i.iw).peer, origin := s.engineId, slot := 0, gen := 0, table := 0xFFFF, epoch := 0,
    tenant := (s.tenant 0).hallId, vslot := 0, nrows := 0, arg0 := Word.ofNat off,
    arg1 := Word.ofNat (off / 2 ^ 32 + (n - 1) * 2 ^ 6), payload := data }

/-- Send the next piece of a tile. -/
def State.cpyPiece (s : State) (i : Item) (n : Nat) (t : CpyTile) : State :=
  let p := CpyPkt.ofWords i.iw
  let far := if p.dir = 2 then t.dst else t.src
  let k := pieceLen far t.len t.sent
  let data := if p.dir = 2 then (t.data.drop t.sent).take k else []
  let s := s.modTileC i.seq n (fun t => { t with sent := t.sent + k, kites := t.kites + 1 })
  let (s, r) := s.sendKite (s.hallFrame i (p.dir == 2) (far + t.sent) k data) (.hall i.seq n t.sent k (p.dir == 2))
  match r with
  | .noRoute => s.cpyTileFail i.seq n ⟨St.unreachable, p.peer, cpyAux t.entry (if p.dir = 2 then 1 else 0) false false⟩
  | _ => s

/-- Start the write of a tile. -/
def State.cpyWriteTile (s : State) (ch : Nat) (i : Item) (n : Nat) (t : CpyTile) : State :=
  let p := CpyPkt.ofWords i.iw
  match p.dir with
  | 1 =>
    let s := s.modTileC i.seq n (fun t => { t with state := 3 })
    let (s, a) := s.hostAcc (cpyReq ch) i.tenant t.dst t.len (some t.data) (.cpyWrite i.seq n) false
    match a with
    | .committed => s.cpyWritten i.seq n
    | .waiting => s
    | .fault perm at_ => s.cpyTileFail i.seq n ⟨xlStatus perm, t.off + (at_ - t.dst), cpyAux t.entry 1 false false⟩
  | 2 => s.modTileC i.seq n (fun t => { t with state := 3 })
  | _ =>
    let s := s.drawRange t.dst t.len (s.tenant i.tenant).part
    (s.engWrite t.dst t.data).cpyWritten i.seq n

/-! ### The end of a copy: CRC, barrier and flag -/

/-- Places of the CRC and flag among an item's tiles. -/
abbrev crcTile : Nat := 1000000
/-- The flag's. -/
abbrev flagTile : Nat := 1000001

/-- Set the stage of a copy. -/
def State.cpyStage (s : State) (seq : Nat) (st : CpyStage) (crc : Word) : State :=
  s.modItem seq (fun i => { i with work := match i.work with
    | .copy ts nx _ _ a b r => .copy ts nx crc st a b r
    | w => w })

/-- Write the CRC or the flag at its address; true when it has been written (R515, R522, R525). -/
def State.cpySmall (s : State) (ch : Nat) (i : Item) (tile addr : Nat) (bs : List Byte) : State × Bool :=
  let p := CpyPkt.ofWords i.iw
  let aux := cpyAux 0 3 false false
  match p.dir with
  | 1 =>
    let s := s.modItem i.seq (fun j => { j with writes := 1 })
    let (s, a) := s.hostAcc (cpyReq ch) i.tenant addr bs.length (some bs) (.cpyWrite i.seq tile) false
    match a with
    | .committed => (s.modItem i.seq (fun j => { j with writes := 0 }), true)
    | .waiting => (s, false)
    | .fault perm at_ => (s.cpyFail i.seq ⟨xlStatus perm, at_ - addr, aux⟩, false)
  | 2 =>
    let s := s.modItem i.seq (fun j => { j with writes := 1 })
    let (s, r) := s.sendKite (s.hallFrame i true addr bs.length bs) (.hall i.seq tile 0 bs.length true)
    match r with
    | .noRoute => (s.cpyFail i.seq ⟨St.unreachable, p.peer, aux⟩, false)
    | _ => (s, false)
  | _ =>
    let s := s.drawRange addr bs.length (s.tenant i.tenant).part
    (s.engWrite addr bs, true)

/-- The last byte written in each page of host memory (R522). -/
def Item.fencePages (i : Item) : List Nat :=
  let p := CpyPkt.ofWords i.iw
  let ranges := i.tiles.map (fun t => (t.dst, t.len)) ++ (if p.crc = 1 then [(p.crcAddr, 4)] else [])
  let pages := (ranges.flatMap (fun (a, n) => pages4k a n)).eraseDups
  pages.map (fun pg => (ranges.filter (fun (a, n) => (pages4k a n).contains pg)).foldl
    (fun m (a, n) => max m (min (a + n - 1) (pg + 4095))) pg)

/-- The copy ends (R525, R530). -/
def State.cpyEnd (s : State) (i : Item) : State :=
  match i.work with
  | .copy _ _ crc _ _ pre ret =>
    s.endItem i.seq ⟨St.ok, if (CpyPkt.ofWords i.iw).crc = 0 then 0 else crc.toNat, b2n pre + 2 * b2n ret⟩
  | _ => s

/-- A copy's flag is written, and the copy ends once that write is committed. -/
def State.cpyToFlag (s : State) (ch seq : Nat) (crc : Word) : State :=
  let s := s.cpyStage seq .flag crc
  match s.item seq with
  | none => s
  | some j =>
    let p := CpyPkt.ofWords j.iw
    let (s, ok) := s.cpySmall ch j flagTile p.flagAddr (leBytes 8 p.flagVal)
    if ok then (match s.item seq with
      | some j => s.cpyEnd j
      | none => s) else s

/-- What follows when one stage of the end is over. -/
def State.cpyNext (s : State) (ch seq : Nat) (from_ : CpyStage) : State :=
  match s.item seq with
  | none => s
  | some i =>
    let p := CpyPkt.ofWords i.iw
    match i.work with
    | .copy _ _ crc _ _ _ _ =>
      match from_ with
      | .flag => s.cpyEnd i
      | .fence => s.cpyToFlag ch seq crc
      | _ =>
        if !p.flag then s.cpyEnd i
        else if p.dir = 1 then
          -- R522: a read of the last byte written in each page
          let pages := i.fencePages
          let s := (s.cpyStage seq .fence crc).modItem seq (fun j => { j with writes := pages.length })
          pages.foldl (fun (s : State) a =>
            if (s.item seq).isNone then s
            else
              let (s, r) := s.hostAcc (cpyReq ch) i.tenant a 1 none (.cpyFence seq) false
              match r with
              | .fault perm _ => s.cpyFail seq ⟨xlStatus perm, 0, cpyAux 0 3 false false⟩
              | _ => s) s
        else s.cpyToFlag ch seq crc
    | _ => s

/-- Every data tile is written: the CRC is checked or stored (R525). -/
def State.cpyDataDone (s : State) (ch : Nat) (i : Item) : State :=
  let p := CpyPkt.ofWords i.iw
  if p.crc = 0 then (s.cpyStage i.seq .crc 0).cpyNext ch i.seq .crc
  else
    let crc := crc32c p.seed.toNat (i.tiles.flatMap (·.data))
    let s := s.cpyStage i.seq .crc (Word.ofNat crc)
    if p.crc = 2 then
      if crc ≠ p.expect.toNat then
        (s.bump Reg.CPY_CRC_FAIL_CNT 1).endItem i.seq ⟨St.crcMismatch, crc, cpyAux 0 3 false false⟩
      else s.cpyNext ch i.seq .crc
    else
      match s.item i.seq with
      | none => s
      | some j =>
        let (s, ok) := s.cpySmall ch j crcTile p.crcAddr (leBytes 4 crc)
        if ok then s.cpyNext ch i.seq .crc else s

/-! ### Running a class (R517 to R522) -/

/-- A barrier copy may start: no earlier copy of its channel is left, in either class (R522). -/
def State.barrierOk (s : State) (ch : Nat) (i : Item) : Bool :=
  !(CpyPkt.ofWords i.iw).barrier
    || !s.conc.items.any (fun j => j.op == 0x30 && decide (j.seq < i.seq) && copyChan j.words == ch)

/-- Start the next copy of a class, where it may: a bulk copy that runs yields to a latency-class copy (R519, R521, R524,
R546; log 29). -/
def State.cpyStart (s : State) (ch : Nat) (lat : Bool) : State :=
  let c := s.chan ch
  let items := s.cpyItems ch lat
  match items.findIdx? (fun i => !i.cpyStarted) with
  | none => s
  | some k =>
    match items[k]? with
    | none => s
    | some i =>
      let prev := (items.take k).all Item.cpyRead
      if !prev || c.halt || c.quiesced || (s.reg (selKey Reg.CPY_CH_CTL ch)).bit 0 || !s.barrierOk ch i then s
      else
        let s := s.modItem i.seq (fun j => { j with work := match j.work with
          | .copy ts nx c st _ p r => .copy ts nx c st true p r
          | w => w })
        match (s.cpyItems ch false).find? (fun j => j.cpyStarted) with
        | some b =>
          if lat then
            (s.modItem b.seq (fun j => { j with work := match j.work with
              | .copy ts nx c st a _ r => .copy ts nx c st a true r
              | w => w })).bump (selKey Reg.CPY_CH_PREEMPT_CNT ch) 1
          else s
        | none => s

/-- One thing a started copy can do now, or nothing. -/
def State.cpyStep (s : State) (ch : Nat) (lat : Bool) (i : Item) : State × Bool :=
  let p := CpyPkt.ofWords i.iw
  match i.work with
  | .copy ts next _ stage _ _ _ =>
    let wr := i.tileWhere (fun t => t.state != 4)
    match wr with
    | some (n, t) =>
      if t.state = 5 then
        (match i.ending with
          | some e => s.failItem i.seq e
          | none => s, true)
      else if t.state = 2 && !(p.srcFar && s.rangeBlocked t.dst t.len && decide (t.dst < memLimit)) then
        (s.cpyWriteTile ch i n t, true)
      else
        let piece := i.tileWhere (fun t => (t.state == (if p.dir = 2 then 3 else 1)) && decide (t.sent < t.len))
        match (if p.hall && decide (s.cpyKites ch lat < 16) then piece else none) with
        | some (m, u) => (s.cpyPiece i m u, true)
        | none =>
          match i.tileWhere (fun t => t.state == 0) with
          | none => (s, false)
          | some (m, u) =>
            if i.ending.isSome then (s, false)
            else if !p.srcFar && s.rangeBlocked u.src u.len && decide (u.src < memLimit) then (s, false)
            else if s.inputAsked i.seq (pfKey u.src) then (s, false)
            else
              let (s, ok) := s.cpyMayRead ch lat u.beats
              if ok then (s.cpyReadTile ch i m u, true) else (s, false)
    | none =>
      if decide (next ≥ p.count) && stage == .data && !ts.isEmpty then (s.cpyDataDone ch i, true) else (s, false)
  | _ => (s, false)

/-- Run the started copies of a class as far as they go; fuel bounds the things done. -/
def cpyRun (s : State) (ch : Nat) (lat : Bool) (fuel : Nat) : State :=
  match fuel with
  | 0 => s
  | f + 1 =>
    let s := s.cpyStart ch lat
    let r := ((s.cpyItems ch lat).filter Item.cpyStarted).foldl (fun (acc : State × Bool) i =>
      if acc.2 then acc
      else
        let (s, did) := acc.1.cpyStep ch lat i
        (s, did)) (s, false)
    if r.2 then cpyRun r.1 ch lat f else s

/-- Things a class may do at once: a few for each tile and piece. -/
def State.cpyFuel (s : State) (ch : Nat) (lat : Bool) : Nat :=
  sumNat ((s.cpyItems ch lat).map (fun i => 8 + sumNat (i.tiles.map (fun t => 6 + t.len / 4096))))

/-! ### Data prefetch (R526) -/

/-- The source ranges a copy has accepted and not admitted, in order, as far as its list has been read. -/
def Item.cpyAhead (i : Item) (p : CpyPkt) (slot fuel : Nat) : List (Nat × Nat) :=
  match fuel with
  | 0 => []
  | f + 1 =>
    if slot ≥ p.count then []
    else
      match i.cpyEntry p slot with
      | some (e, true) => (e.tiles p).map (fun t => (t.src, t.len)) ++ i.cpyAhead p (slot + e.slots) f
      | _ => []

/-- Read ahead the data of the next tiles of a locked inbound stream. -/
def State.cpyPrefetch (s : State) (ch : Nat) (lat : Bool) : State :=
  let on := (s.reg (selKey Reg.CPY_CH_CTL ch)).bit 4
  if !on || !s.locked (cpyStream ch lat) then s
  else
    match (s.cpyItems ch lat).find? (fun i => i.cpyStarted && !i.cpyRead) with
    | none => s
    | some i =>
      let p := CpyPkt.ofWords i.iw
      let depth := s.rbits Reg.XLT_CTL 4 1
      let next := match i.work with
        | .copy _ n _ _ _ _ _ => n
        | _ => 0
      if p.dir ≠ 0 || i.tiles.any (fun t => t.state == 0) then s
      else
        ((i.cpyAhead p next depth).take depth).foldl (fun (s : State) (a, n) =>
          match s.item i.seq with
          | none => s
          | some j =>
            if (mapGet j.inputs (pfKey a)).isSome || s.inputAsked i.seq (pfKey a) then s
            else
              let (s, ok) := s.cpyMayRead ch lat (ceilDiv n 64)
              let there := match s.pasidOf i.tenant with
                | some q => (pages4k a n).all (fun pg => match s.xlt.tlbFind q pg with
                  | some e => e.r
                  | none => false)
                | none => true
              if !ok then s
              else if !there || s.accBarred i.tenant (s.pasidOf i.tenant) then
                (s.putInput i.seq (pfKey a) []).bump Reg.CPY_PF_DROP_CNT 1
              else (s.hostAcc (cpyReq ch) i.tenant a n none (.input i.seq (pfKey a) 0) true).1) s

/-- Run both classes of a channel, the latency class first (R519). -/
def State.cpyPump (s : State) (ch : Nat) : State :=
  let s := cpyRun s ch true (s.cpyFuel ch true)
  let s := cpyRun s ch false (s.cpyFuel ch false)
  (s.cpyPrefetch ch true).cpyPrefetch ch false

/-- Run every channel that holds a copy. -/
def State.cpyPumpAll (s : State) : State :=
  (upto 0 40).foldl (fun (s : State) ch =>
    let c := s.chan ch
    if c.lat.isEmpty && c.bulk.isEmpty then s else s.cpyPump ch) s

/-! ### Admission (R510, R516) -/

/-- Ask for the list block that holds a slot. -/
def State.cpyPrep (s : State) (seq slot : Nat) : State :=
  match s.item seq with
  | none => s
  | some i =>
    let p := CpyPkt.ofWords i.iw
    let b := slot / slotBlock
    let n := min slotBlock (p.count - slotBlock * b)
    let addr := p.listAddr + 16 * slotBlock * b
    if !p.listPtr || slot ≥ p.count || (mapGet i.inputs b).isSome || s.inputAsked seq b then s
    else if p.listLoc then
      if !s.inOwnRing i.tenant p.listAddr (16 * p.count) then s
      else
        let s := s.drawRange addr (16 * n) (s.tenant i.tenant).part
        let (s, rd) := s.engRead addr (16 * n) .good
        match rd.bad with
        | some l => s.failItem seq ⟨St.memUnc, s.hallAddr l, cpyAux (slotBlock * b) 2 false false⟩
        | none => s.putInput seq b rd.data
    else
      let (s, a) := s.hostAcc (cpyReq (copyChan i.words)) i.tenant addr (16 * n) none (.input seq b 2) false
      match a with
      | .fault perm at_ => s.failItem seq ⟨xlStatus perm, at_ - p.listAddr, cpyAux ((at_ - p.listAddr) / 16 % 4096) 2 false false⟩
      | _ => s

/-- Entries a class has admitted and not completed. -/
def State.cpyAdmitted (s : State) (ch : Nat) (lat : Bool) : Nat := sumNat ((s.cpyItems ch lat).map (fun i => i.chunks.length))

/-- An entry has been admitted and charged. -/
def State.startEntry (s : State) (seq : Nat) (e : CpyEntry) : State :=
  match s.item seq with
  | none => s
  | some i =>
    let p := CpyPkt.ofWords i.iw
    let ch := copyChan i.words
    let s := s.modChan ch (fun c =>
      if i.isLat then { c with lat := if c.lat.contains seq then c.lat else c.lat ++ [seq] }
      else { c with bulk := if c.bulk.contains seq then c.bulk else c.bulk ++ [seq] })
    let s := s.modItem seq (fun i => { i with work := match i.work with
      | .copy ts _ c st a b r => .copy (ts ++ e.tiles p) (e.slot + e.slots) c st a b r
      | w => w })
    (s.cpyPrep seq (e.slot + e.slots)).cpyPump ch

/-! ### Answers and completions -/

/-- A hall kite of a copy has been answered with its bytes or its acknowledgement. -/
def State.hallAnswered (s : State) (seq n off len : Nat) (data : List Byte) : State :=
  match s.item seq with
  | none => s
  | some i =>
    let ch := copyChan i.words
    if n = crcTile ∨ n = flagTile then
      let s := s.modItem seq (fun j => { j with writes := 0 })
      s.cpyNext ch seq (if n = crcTile then .crc else .flag)
    else
      let get := (CpyPkt.ofWords i.iw).dir == 3
      let s := s.modTileC seq n (fun t => { t with
        kites := t.kites - 1, data := if get then overlay t.data off (data.take len) else t.data })
      match (s.item seq).bind (fun j => j.tiles[n]?) with
      | some t =>
        if t.state = 5 || t.kites > 0 || t.sent < t.len then s
        else if get then s.modTileC seq n (fun t => { t with state := 2 })
        else s.cpyWritten seq n
      | none => s

/-- A host write of a copy has been committed. -/
def State.cpyCommitted (s : State) (seq n : Nat) : State :=
  match s.item seq with
  | none => s
  | some i =>
    if n = crcTile ∨ n = flagTile then
      (s.modItem seq (fun j => { j with writes := 0 })).cpyNext (copyChan i.words) seq (if n = crcTile then .crc else .flag)
    else s.cpyWritten seq n

/-- A fence read has returned (R522). -/
def State.cpyFenced (s : State) (seq : Nat) : State :=
  match s.item seq with
  | none => s
  | some i =>
    let s := s.modItem seq (fun j => { j with writes := j.writes - 1 })
    if i.writes ≤ 1 then s.cpyNext (copyChan i.words) seq .fence else s

/-- A source has come from host memory (R524: after a retry it marks the copy). -/
def State.cpyArrived (s : State) (seq n : Nat) (data : List Byte) (poison : Bool) : State :=
  match (s.item seq).bind (fun j => j.tiles[n]?) with
  | none => s
  | some t =>
    if poison then s.cpyTileFail seq n ⟨St.xlateFault, t.off, cpyAux t.entry 0 false true⟩
    else
      let s := if t.retries > 0 then s.modItem seq (fun i => { i with work := match i.work with
        | .copy ts nx c st a b _ => .copy ts nx c st a b true
        | w => w }) else s
      s.cpyGot seq n (data.take t.len ++ List.replicate (t.len - data.length) 0)

/-- A host access of a copy has failed for want of a translation (R531). -/
def State.cpyFault (s : State) (seq n : Nat) (write perm : Bool) (at_ : Nat) : State :=
  match s.item seq with
  | none => s
  | some i =>
    let p := CpyPkt.ofWords i.iw
    if n = crcTile then s.cpyFail seq ⟨xlStatus perm, at_ - p.crcAddr, cpyAux 0 3 false false⟩
    else if n = flagTile then s.cpyFail seq ⟨xlStatus perm, at_ - p.flagAddr, cpyAux 0 3 false false⟩
    else
      match i.tiles[n]? with
      | some t => s.cpyTileFail seq n ⟨xlStatus perm, t.off + (at_ - (if write then t.dst else t.src)),
          cpyAux t.entry (b2n write) false false⟩
      | none => s

/-- A read of host memory returned an error completion: retried, or the copy ends and the channel halts (R524). -/
def State.cpyReadErr (s : State) (a : HAcc) (seq n first : Nat) : State :=
  match s.item seq with
  | none => s.dropAcc a.id
  | some i =>
    let ch := copyChan i.words
    match i.tiles[n]? with
    | none => s.dropAcc a.id
    | some t =>
      if t.retries < s.rbits (selKey Reg.CPY_CH_CTL ch) 3 1 then
        ((s.bump (selKey Reg.CPY_CH_RETRY_CNT ch) 1).modTileC seq n (fun t => { t with retries := t.retries + 1 })).emit
          (.hostRead a.id a.pasid a.addr a.len)
      else
        let s := (s.dropAcc a.id).cpyTileFail seq n ⟨St.xlateFault, t.off + min first (a.len - 1), cpyAux t.entry 0 true false⟩
        let s := s.modChan ch (fun c => { c with halt := true })
        (s.raise { code := 0x34, kind := 4, unit := ch, addr := a.addr }).cpyPump ch

/-! ### INLINE_WRITE (R476, R477) -/

/-- BYTES, LOC and the address of an INLINE_WRITE. -/
def inlineBytes (ws : List Word) : Nat := (uw ws 1 4).bits 7 0

/-- LOC: 1 is engine memory. -/
def inlineLoc (ws : List Word) : Bool := (uw ws 1 4).bit 8

/-- Its charge. -/
def inlineCharge (ws : List Word) : Charge :=
  let n := ceilDiv (inlineBytes ws) 64
  let addr := uw64 ws 1 6
  if inlineLoc ws then
    { Charge.zero with acts := if addr < memLimit then actsOf ((upto 0 n).map (fun j => addr + 64 * j)) else [0, 0, 0, 0] }
  else { Charge.zero with cpy := n }

/-- The first byte of a write that covers only part of a poisoned line. -/
def State.partPoison (s : State) (off n : Nat) : Option Nat :=
  if off ≥ memLimit then none
  else ((linesOf off n).find? (fun l => s.stw.poison.contains l && !(decide (off ≤ 64 * l) && decide (64 * l + 64 ≤ off + n)))).map
    (fun l => max off (64 * l))

/-- An INLINE_WRITE's chunk has been admitted and charged: its data is one tile. -/
def State.startInline (s : State) (seq : Nat) : State :=
  match s.item seq with
  | none => s
  | some i =>
    let n := inlineBytes i.iw
    let addr := uw64 i.iw 1 6
    let data := ((wordsBytes i.iw).drop 32).take n
    if inlineLoc i.iw then
      match s.partPoison addr n with
      | some a => s.failItem seq ⟨St.xlateFault, a - addr, 4 * 16 + 128⟩
      | none =>
        let s := s.drawRange addr n (s.tenant i.tenant).part
        (s.engWrite addr data).endItem seq ⟨St.ok, 0, 0⟩
    else
      let s := s.modItem seq (fun j => { j with writes := 1 })
      let (s, a) := s.hostAcc reqConc i.tenant addr n (some data) (.result seq 0 4) false
      match a with
      | .committed => s.endItem seq ⟨St.ok, 0, 0⟩
      | .waiting => s
      | .fault perm at_ => s.failItem seq ⟨xlStatus perm, at_ - addr, 4 * 16⟩

end Sys2Proof.Machine
end

