-- ==== Sys2Proof/Machine/Served.lean ====
section
/-! DEFINITION. Kites this engine serves (R283, R293, R528) and the answers to its own (R274 to R284): replies, refusals,
acknowledgements, timeouts and tether slots. -/
namespace Sys2Proof.Machine

open Sys2Proof.Config

/-! ### Serving a GATHER -/

/-- Partition of served kites (R440). -/
def State.kitePart (s : State) (k : Nat) : Nat := s.rbits (stwReg k Reg.STW_CTL) 8 3

/-- Cache class of served kites (R405). -/
def State.kiteClass (s : State) : Nat := s.rbits Reg.RC_CTL 4 2

/-- Draw the tokens of a served access, each column under its own KITE_PART. -/
def State.drawServed (s : State) (off n : Nat) : State :=
  if off < memLimit then (columnsOf off n).foldl (fun (s : State) k => s.drawTokens k (s.kitePart k) 1) s else s

/-- Where a served row lies. -/
def State.servedPlace (s : State) (t : Table) (table slot row : Nat) : Place :=
  let sh := row / 65536
  if t.replicated then ⟨if t.pin then .pinned else .local, t.replAddr slot row, s.engineId, sh, false⟩
  else
    let pl := s.homePl t table sh
    ⟨if plTier pl = 0 then .local else .balloon, t.rowAddr slot pl row, s.engineId, sh, false⟩

/-- Put a row's bytes into a served kite. -/
def State.servedRow (s : State) (id pos : Nat) (data : List Byte) : State :=
  s.modServed id (fun v => { v with rows := v.rows.map (fun (p, r, d) => if p = pos then (p, r, some data) else (p, r, d)) })

/-- The tenant whose PASID the balloon of a table is read under (R203). -/
def State.ownerTenant (s : State) (t : Table) : Nat :=
  ((s.conc.tenEff.find? (fun (_, e) => e.valid && e.hallId == t.owner)).map (·.1)).getD 0

/-- Refuse a served kite: one NACK, and nothing further of it (R283). -/
def State.refuseServed (s : State) (id reason detail : Nat) : State :=
  match s.servedOf id with
  | none => s
  | some v => (s.unserve id).replyServed (v.frame.nack reason detail)

/-- Read one row of a served GATHER, if it can be read now. -/
def State.serveRow (s : State) (id : Nat) (t : Table) (f : Frame) (pos row : Nat) (ecc : Ecc) : State :=
  let p := s.servedPlace t f.table f.vslot row
  let n := t.rowSize
  let cls := s.kiteClass
  let (tags, pre) := s.rowTags t f.table f.vslot row p
  let look := s.rcActive && !tags.isEmpty && t.lookOk f.vslot
  let (s, hit) := if look then s.lookRow cls tags else (s, none)
  match hit with
  | some d => s.servedRow id pos ((d.drop pre).take n)
  | none =>
    match p.src with
    | .balloon =>
      if s.xlt.accs.any (fun a => a.purpose == .coldRow (servedKey id) pos) then s
      else
        let ten := s.ownerTenant t
        let s := match s.pasidOf ten with
          | some q => (pages4k p.addr n).foldl (fun (s : State) pg => s.hotCount q ten pg f.table (some (row / 65536))) s
          | none => s
        let s := if look then tags.foldl (fun (s : State) tg => s.missLine cls 0 tg (servedKey id, pos)) s else s
        let (s, a) := s.hostAcc reqBalloon ten p.addr n none (.coldRow (servedKey id) pos) false
        match a with
        | .fault perm at_ => s.refuseServed id (if perm then 7 else 6) (at_ - t.balloon f.vslot)
        | _ => s
    | .pinned =>
      let (s, rd) := s.engRead (pinBase + p.addr) n ecc
      match rd.bad with
      | some l => s.refuseServed id 5 (s.hallAddr l)
      | none => s.servedRow id pos rd.data
    | _ =>
      if s.rangeBlocked p.addr n then s
      else
        let s := s.drawServed p.addr n
        let (s, rd) := s.engRead p.addr n ecc
        match rd.bad with
        | some l => s.refuseServed id 5 (s.hallAddr l)
        | none =>
          let s := if look && t.allocOk f.vslot then
              tags.foldl (fun (s : State) tg => s.rcAlloc cls 0 tg (s.memBytes (tg.key * 64 % 2 ^ 38) 64)) s
            else s
          s.servedRow id pos rd.data

/-- The REPLY kites of a GATHER whose rows have all come: whole rows, at most 4,096 bytes each (R269, R270). -/
def replyFrames (f : Frame) (rows : List (List Byte)) (first fuel : Nat) : List Frame :=
  match fuel with
  | 0 => []
  | k + 1 =>
    match rows with
    | [] => []
    | r :: _ =>
      let pad := fun (b : List Byte) => b ++ List.replicate (roundUp b.length 4 - b.length) 0
      let n := max 1 (min 64 (4096 / max 1 (roundUp r.length 4)))
      f.answer kReply (first + (rows.take n).length * 2 ^ 6) 0 ((rows.take n).flatMap pad)
        :: replyFrames f (rows.drop n) (first + n) k

/-- A GATHER whose rows have all come is answered. -/
def State.gatherAnswer (s : State) (id : Nat) : State :=
  match s.servedOf id with
  | none => s
  | some v =>
    if v.frame.kind = kGather && v.rows.all (fun (_, _, d) => d.isSome) then
      (replyFrames v.frame (v.rows.map (fun (_, _, d) => d.getD [])) 0 65).foldl (fun (s : State) f => s.replyServed f)
        (s.unserve id)
    else s

/-- Bytes and offset of a HALL_READ or HALL_WRITE (R527). -/
def hallOff (f : Frame) : Nat := f.arg0.toNat + f.arg1.bits 5 0 * 2 ^ 32

/-- Its length. -/
def hallLen (f : Frame) : Nat := f.arg1.bits 17 6 + 1

/-- Serve a hall read or write, if its columns make accesses (R527, R528). -/
def State.serveHall (s : State) (id : Nat) (ecc : Ecc) : State :=
  match s.servedOf id with
  | none => s
  | some v =>
    let f := v.frame
    let off := (hallOff f)
    let n := (hallLen f)
    if s.rangeBlocked off n then s
    else
      let s := s.drawServed off n
      if f.kind = kHallRead then
        let (s, rd) := s.engRead off n ecc
        match rd.bad with
        | some l => s.refuseServed id 5 (s.hallAddr l)
        | none => (s.unserve id).replyServed (f.answer kHallAck f.arg0.toNat f.arg1.toNat rd.data)
      else
        ((s.engWrite off (f.payload.take n)).unserve id).replyServed (f.answer kHallAck f.arg0.toNat f.arg1.toNat [])

/-- Serve what can be served of a kite now. -/
def State.serveTry (s : State) (id : Nat) (ecc : Ecc) : State :=
  match s.servedOf id with
  | none => s
  | some v =>
    if v.frame.kind = kGather then
      match s.table v.frame.table with
      | none => s.refuseServed id 2 s.engineId
      | some t =>
        (v.rows.foldl (fun (s : State) (pos, row, d) =>
          if d.isSome || (s.servedOf id).isNone then s else s.serveRow id t v.frame pos row ecc) s).gatherAnswer id
    else if v.frame.kind = kHallRead ∨ v.frame.kind = kHallWrite then s.serveHall id ecc
    else s

/-- Serve again what waited for a column. -/
def State.servePump (s : State) : State := s.kite.served.foldl (fun (s : State) v => s.serveTry v.id .good) s

/-- Take up a kite to serve. -/
def State.takeServed (s : State) (f : Frame) (rows : List Nat) : State × Nat :=
  let id := s.kite.nextServed
  let v : Served := ⟨id, f, s.now, ((upto 0 rows.length).zip rows).map (fun (p, r) => (p, r, none)), 0, false, 0, false,
    none, false, false, none⟩
  ((s.modKite (fun k => { k with served := k.served ++ [v], nextServed := id + 1 })).touchSlot f.table f.vslot, id)

/-- Row IDs of a GATHER. -/
def gatherRows (f : Frame) : List Nat := (upto 0 f.nrows).map (fun j => ofLe ((f.payload.drop (5 * j)).take 5))

/-- A GATHER arrives: the checks of R283, the resolution of R293, and service. -/
def State.gatherArrive (s : State) (f : Frame) (ecc : Ecc) : State :=
  if s.inReset then s.nackSelf f 8
  else
    match s.table f.table with
    | none => s.nackSelf f 2
    | some t =>
      let rows := gatherRows f
      if rows.any (fun r => decide (r ≥ t.rows)) then s.nackSelf f 9
      else if !s.mayUse f.tenant f.table t false then s.replyServed (f.nack 1 0)
      else if (t.slot f.vslot).st = .filling then s.replyServed (f.nack 4 0)
      else
        let sh := (rows.headD 0) / 65536
        match s.resolveGather t f.table sh f.epoch f.fwd with
        | .forward dst => s.forward f dst
        | .refuse => s.nackSelf f 3
        | _ =>
          let s := if (t.slot f.vslot).st = .empty then s.bump Reg.DIR_SLOT_LATE_CNT 1 else s
          let s := s.countLoad f.table sh rows.length 0
          let places := rows.map (fun r => s.servedPlace t f.table f.vslot r)
          let pages := ((places.filter (fun p => p.src == .local)).map (fun p => p.addr / 2048)).eraseDups
          let (s, id) := (s.chargeServed (actsOf (pages.map (· * 2048))) 0).takeServed f rows
          s.serveTry id ecc

/-- A HALL_READ or HALL_WRITE arrives (R528). -/
def State.hallArrive (s : State) (f : Frame) (ecc : Ecc) : State :=
  if s.inReset then s.nackSelf f 8
  else if !f.admin then s.replyServed (f.nack 1 0)
  else if (hallOff f) + (hallLen f) > memLimit then s.nackSelf f 9
  else
    let acts := actsOf ((pagesOf (hallOff f) (hallLen f)).map (· * 2048))
    let (s, id) := (s.chargeServed acts 0).takeServed f []
    s.serveTry id ecc

/-- A cold row of a served kite has come from the balloon (R204, R407). -/
def State.servedCold (s : State) (id pos : Nat) (data : List Byte) : State :=
  match s.servedOf id with
  | none => s
  | some v =>
    match s.table v.frame.table, v.rows.find? (fun (p, _, _) => p == pos) with
    | some t, some (_, row, _) =>
      let p := s.servedPlace t v.frame.table v.frame.vslot row
      let bs := data.take t.rowSize ++ List.replicate (t.rowSize - data.length) 0
      let s := s.fillRow (servedKey id, pos) ((p.addr - t.balloon v.frame.vslot) % 64) bs
      (s.servedRow id pos bs).gatherAnswer id
    | _, _ => s

/-- A home abandons a kite it has not answered in time (R280). -/
def State.abandon (s : State) (id : Nat) : State :=
  match s.servedOf id with
  | none => s
  | some v =>
    if v.item.isSome || decide (s.now < v.arrived + s.lifeNs - us 32) then s
    else (s.unserve id).bump Reg.KITE_ABANDON_CNT 1

/-! ### Tethers at the origin -/

/-- The tether an answer matches (R274). -/
def State.tetherOf (s : State) (f : Frame) : Option Tether :=
  if f.origin ≠ s.engineId then none
  else (mapGet s.kite.tethers f.slot).filter (fun t => t.st == .busy && t.gen == f.gen)

/-- Free a slot to the back of the list (R276). -/
def State.freeSlot (s : State) (slot : Nat) : State :=
  s.modKite (fun k => { k with tethers := mapDel k.tethers slot, freed := k.freed ++ [slot] })

/-- Status of a NACK's REASON at the origin (R284). -/
def nackStatus (reason : Nat) : Nat :=
  match reason with
  | 1 => St.denied | 4 => St.badState | 5 => St.memUnc | 6 => St.xlateFault | 7 => St.xlatePerm | 11 => St.badState
  | _ => St.unreachable

/-- DETAIL of a NACK at the origin: dst is that of the kite it answers (R284). -/
def nackDetail (reason detail dst : Nat) : Nat :=
  match reason with
  | 1 => 0
  | 4 => 1
  | 2 => detail | 3 => detail | 5 => detail | 6 => detail | 7 => detail | 8 => detail | 9 => detail | 10 => detail
  | 11 => detail
  | _ => dst

/-- How the item of a kite ends that got a NACK. -/
def nackEnding (reason detail dst : Nat) : Ending :=
  ⟨nackStatus reason, nackDetail reason detail dst, if reason = 6 ∨ reason = 7 then 3 else 0⟩

/-- A hall kite of a copy ends without its answer (R528). -/
def State.hallFailed (s : State) (seq n : Nat) (write : Bool) (status detail : Nat) : State :=
  match s.item seq with
  | none => s
  | some i =>
    if n = crcTile ∨ n = flagTile then s.cpyFail seq ⟨status, detail, cpyAux 0 3 false false⟩
    else
      match i.tiles[n]? with
      | some t => (s.cpyTileFail seq n ⟨status, detail, cpyAux t.entry (b2n write) false false⟩).cpyPump (copyChan i.words)
      | none => s

/-- Rows of a REPLY reach the gather unit (R275, R269). -/
def State.replyRows (s : State) (item bag chunk : Nat) (rows : List Nat) (new : List Nat) (first : Nat) (f : Frame) : State :=
  match s.bagOf item bag with
  | none => s
  | some b =>
    let n := (s.bagTable b).rowSize
    let w := roundUp n 4
    new.foldl (fun (s : State) p =>
      match (s.bagOf item bag).bind (fun b => b.rows.find? (fun x => x.chunk == chunk && x.row == rows.getD p 0 && x.data.isNone)) with
      | none => s
      | some sl =>
        let data := (f.payload.drop (w * (p - first))).take n
        (s.fillRow (itemKey item, placeOf bag (sl.pos.headD 0)) 0 data).rowGot item bag sl .kite data) s

/-- A REPLY arrives (R274, R275). -/
def State.replyArrive (s : State) (f : Frame) : State :=
  match s.tetherOf f with
  | none => s.bump Reg.KITE_STALE_CNT 1
  | some t =>
    match t.owner with
    | .gather item bag chunk rows =>
      let first := f.arg0.bits 5 0
      let ps := (upto first (f.arg0.bits 12 6)).filter (fun p => decide (p < rows.length))
      let new := ps.filter (fun p => !t.seen.contains p)
      if new.isEmpty then s.bump Reg.KITE_DUP_CNT 1
      else
        let seen := t.seen ++ new
        let s := s.modKite (fun k => { k with tethers := mapMod k.tethers f.slot (fun t => { t with seen := seen }) })
        let s := if seen.length ≥ rows.length then s.holdSlot f.slot else s
        s.replyRows item bag chunk rows new first f
    | _ => s.bump Reg.KITE_STALE_CNT 1

/-- An UPDATE_ACK arrives (R325, R339). -/
def State.updAckArrive (s : State) (f : Frame) : State :=
  match s.tetherOf f with
  | none => s.bump Reg.KITE_STALE_CNT 1
  | some t =>
    let s := (s.holdSlot f.slot).setCredit t.dst (f.arg0.bits 4 0) (f.arg0.bits 12 5)
    match t.owner with
    | .upd item chunk count => s.updChunkDone item chunk 0 count (f.arg0.bit 13) (f.arg0.bit 14)
    | .dual id => s.modServed id (fun v => { v with duals := v.duals - 1 })
    | _ => s

/-- A HALL_ACK arrives (R527). -/
def State.hallAckArrive (s : State) (f : Frame) : State :=
  match s.tetherOf f with
  | none => s.bump Reg.KITE_STALE_CNT 1
  | some t =>
    match t.owner with
    | .hall item n off len _ =>
      let s := (s.holdSlot f.slot).hallAnswered item n off len f.payload
      (match s.item item with
        | some i => s.cpyPump (copyChan i.words)
        | none => s)
    | _ => s.holdSlot f.slot

/-- A credit backoff has run its landings: the home's credit is DEF_CREDIT again (R325). -/
def State.backoffEnd (s : State) (home : Nat) : State :=
  match mapGet s.kite.backoff home with
  | some l => if s.hall.landing < l then s
    else s.modKite (fun k => { k with backoff := mapDel k.backoff home, credit := mapDel k.credit home })
  | none => s

/-- Ledger entries whose time has come expire (R334). -/
def State.ledgerSweep (s : State) : State :=
  s.modKite (fun k => { k with ledger := k.ledger.filter (fun l => decide (s.now < l.expires)) })

/-- The window of R335 ends. -/
def State.nackWindowEnd (s : State) : State :=
  match s.kite.nackUntil with
  | some u => if s.now < u then s else s.modKite (fun k => { k with nackUntil := none })
  | none => s

/-- Snapshot and zero a table's update statistics (R343). -/
def State.updSnap (s : State) (table : Nat) : State :=
  let u := (mapGet s.kite.upd table).getD ⟨0, 0, 0, 0⟩
  let s := s.modKite (fun k => { k with upd := mapDel k.upd table })
  (((s.setReg Reg.KITE_UPD_MAXD (Word.ofNat u.maxd)).setReg Reg.KITE_UPD_MAXV (Word.ofNat u.maxv)).setReg
    Reg.KITE_UPD_SAT (Word.ofNat u.sat)).setReg Reg.KITE_UPD_NAN (Word.ofNat u.nan)

end Sys2Proof.Machine
end

