-- ==== Sys2Proof/Machine/Migrate.lean ====
section
/-! DEFINITION. Moving a shard (R294 to R302): the start at the old home, the copy, the target's side, the bump's landing,
the grace and its end. -/
namespace Sys2Proof.Machine

open Sys2Proof.Config

/-! ### Finding and changing migrations -/

/-- Change a migration with this engine as source. -/
def State.modSrc (s : State) (table shard : Nat) (f : Mig → Mig) : State :=
  s.modKite (fun k => { k with migSrc := k.migSrc.map (fun m => if m.table = table ∧ m.shard = shard then f m else m) })

/-- Change a migration with this engine as target. -/
def State.modDst (s : State) (table shard : Nat) (f : Mig → Mig) : State :=
  s.modKite (fun k => { k with migDst := k.migDst.map (fun m => if m.table = table ∧ m.shard = shard then f m else m) })

/-- Remove a migration of the source side, its deferred copies and its outstanding kites. -/
def State.dropSrc (s : State) (table shard : Nat) : State :=
  let mine := fun (o : TethOwner) => match o with
    | .migStart t sh => t == table && sh == shard
    | .migData t sh _ _ => t == table && sh == shard
    | _ => false
  s.modKite (fun k => { k with
    migSrc := k.migSrc.filter (fun m => !(m.table == table && m.shard == shard))
    waiting := k.waiting.filter (fun w => !mine w.owner)
    tethers := k.tethers.map (fun (n, t) => if mine t.owner && t.st == .busy then (n, { t with st := .quar, since := s.now }) else (n, t)) })

/-- MIGRATE ends: its record, with the migration gone. One that named a landing is measured against its start there and
is never late (log 13). -/
def State.endMig (s : State) (m : Mig) (status detail aux : Nat) : State :=
  let s := s.dropSrc m.table m.shard
  match m.pkt with
  | some p =>
    if uw64 p.words 1 4 = 0 then s.endMq p status detail aux
    else s.packetRec p.src p.cq p.words p.index status detail aux false
  | none => s

/-- Lines of the whole copy. -/
def Mig.total (m : Mig) (t : Table) : Nat := m.slots.length * t.shardLines

/-- Every line of the copy is acknowledged. -/
def Mig.complete (m : Mig) (t : Table) : Bool := decide (m.state ≥ 2) && decide (m.lines ≥ m.total t)

/-- Byte address of line 0 of a shard under a placement, in one slot. -/
def shardBase (t : Table) (slot pl : Nat) : Nat := t.rowAddr slot pl 0

/-- A frame of the migration. -/
def State.migFrame (s : State) (m : Mig) (t : Table) (kind slot : Nat) (arg1 : Nat) (payload : List Byte) : Frame :=
  { kind := kind, cls := (m.pkt.elim 2 (fun p => (uw p.words 1 0).bits 21 20)), hops := 0, fwd := false, admin := true, age := 0,
    dst := m.peer, origin := s.engineId, slot := 0, gen := 0, table := m.table, epoch := t.epoch, tenant := t.owner,
    vslot := slot, nrows := 0, arg0 := Word.ofNat m.shard, arg1 := Word.ofNat arg1, payload := payload }

/-! ### The old home -/

/-- The checks of R294 at MIGRATE's start. -/
def State.migBad (s : State) (table shard target : Nat) : Option Ending :=
  match s.table table with
  | none => some ⟨St.badTable, table, 0⟩
  | some t =>
    let e := t.shard shard
    if t.replicated || t.curHome shard != s.engineId || !e.pend || plHome e.next != target
        || (migFind s.kite.migSrc table shard).isSome || (migFind s.kite.migDst table shard).isSome || target == s.engineId then
      some ⟨St.badState, t.st.code, 0⟩
    else if s.kite.migSrc.length ≥ 16 then some ⟨St.noResource, 7, 0⟩
    else none

/-- MIGRATE starts: MIG_START to the target (R294, R298). -/
def State.migBegin (s : State) (p : MqPkt) (table shard target : Nat) : State :=
  match s.migBad table shard target, s.table table with
  | some e, _ => s.endMq p e.status e.detail e.aux
  | none, none => s
  | none, some t =>
    let m : Mig := ⟨table, shard, target, 1, false, [], 0, [], 0, false, some p⟩
    let s := s.modKite (fun k => { k with migSrc := k.migSrc ++ [m] })
    let (s, r) := s.sendKite (s.migFrame m t kMigStart 0 0 []) (.migStart table shard)
    match r with
    | .noRoute => s.endMig m St.unreachable target 0
    | _ => s

/-- Send MIG_DONE and go from COPYING to DUAL; a late copy leaves LATE at the next landing (R298, R299). -/
def State.migCheck (s : State) (table shard : Nat) : State :=
  match migFind s.kite.migSrc table shard, s.table table with
  | some m, some t =>
    if !m.complete t || (m.state ≠ 2 ∧ m.state ≠ 4) then s
    else
      let f := { s.migFrame m t kMigDone 0 0 [] with kind := kMigDone }
      let s := (s.chargeServed [0, 0, 0, 0] f.units).sendAnswer f
      if m.state = 2 then s.modSrc table shard (fun m => { m with state := 3 }) else s
  | _, _ => s

/-- The target has accepted: the copy of every READY, CURRENT or OLD slot starts (R295, R298). -/
def State.migAccepted (s : State) (table shard : Nat) : State :=
  match s.table table with
  | none => s
  | some t =>
    let ok := fun (k : Nat) => let st := (t.slot k).st
      st == .ready || st == .current || st == .old
    let s := s.modSrc table shard (fun m => if m.state = 1 then { m with state := 2, slots := (upto 0 2).filter ok } else m)
    let s := (s.touchSlot table 0).touchSlot table 1
    s.migCheck table shard

/-- MIG_DATA kites of a migration that are unanswered. -/
def State.migOut (s : State) (table shard : Nat) : Nat :=
  let mine := fun (o : TethOwner) => match o with
    | .migData t sh _ _ => t == table && sh == shard
    | _ => false
  (s.kite.tethers.filter (fun (_, t) => t.st == .busy && mine t.owner)).length
    + (s.kite.waiting.filter (fun w => mine w.owner)).length
    + (s.xlt.accs.filter (fun a => match a.purpose with
      | .migRead t sh _ _ => t == table && sh == shard
      | _ => false)).length

/-- The next MIG_DATA of a migration: slot, line in its shard, lines. -/
def Mig.nextData (m : Mig) (t : Table) : Option (Nat × Nat × Nat) :=
  if (m.state ≠ 2 ∧ m.state ≠ 4) || m.next ≥ m.total t then none
  else some (m.slots.getD (m.next / t.shardLines) 0, m.next % t.shardLines, min 64 (t.shardLines - m.next % t.shardLines))

/-- The charge of a MIG_DATA (R296); lines of a balloon shard activate nothing here. -/
def State.migCharge (s : State) (m : Mig) (t : Table) (slot line n : Nat) : Charge :=
  let pl := s.homePl t m.table m.shard
  let base := shardBase t slot pl
  { Charge.zero with
    acts := if plTier pl = 0 then actsOf ((upto line n).map (fun l => base + 64 * l)) else [0, 0, 0, 0]
    fab := ceilDiv (32 + 64 * n) 64 }

/-- Send lines that have been read for the copy. -/
def State.migSend (s : State) (m : Mig) (t : Table) (first n : Nat) (data : List Byte) : State :=
  let slot := m.slots.getD (first / t.shardLines) 0
  let (s, r) := s.sendKite (s.migFrame m t kMigData slot (first % t.shardLines) data) (.migData m.table m.shard first n)
  match r with
  | .noRoute => s.endMig m St.unreachable m.peer 0
  | _ => s

/-- A MIG_DATA chunk has been admitted and charged: its lines are read, with the adds that wait for them applied first
(R295 to R297). -/
def State.migChunk (s : State) (table shard flight : Nat) (promoted : Bool) : State :=
  match migFind s.kite.migSrc table shard, s.table table with
  | some m, some t =>
    match m.nextData t with
    | none => s
    | some (slot, line, n) =>
      let pl := s.homePl t table shard
      let base := shardBase t slot pl
      let c := s.migCharge m t slot line n
      let s := s.modSrc table shard (fun m => { m with next := m.next + n })
      if plTier pl = 0 then
        let used := actsOf ((pagesOf (base + 64 * line) (64 * n)).map (· * 2048))
        let s := s.refund flight promoted { Charge.zero with acts := (c.acts.zip used).map (fun (a, u) => a - u) }
        let (s, rd) := s.stwRead (base + 64 * line) (64 * n) .good
        match rd.bad with
        | some l => s.endMig m St.memUnc (s.hallAddr l) 0
        | none => s.migSend m t m.next n rd.data
      else
        let (s, a) := s.hostAcc reqBalloon (s.ownerTenant t) (base + 64 * line) (64 * n) none (.migRead table shard m.next n) false
        match a with
        | .fault perm at_ => s.endMig m (xlStatus perm) (at_ - t.balloon slot) 0
        | _ => s
  | _, _ => s

/-- MIG_ACK arrives at the old home (R274, R297, R298). -/
def State.migAckArrive (s : State) (f : Frame) : State :=
  match s.tetherOf f with
  | none => s.bump Reg.KITE_STALE_CNT 1
  | some t =>
    let s := s.holdSlot f.slot
    match t.owner with
    | .migStart table shard => s.migAccepted table shard
    | .migData table shard first n =>
      let s := s.modSrc table shard (fun m => { m with acked := m.acked ++ [(first, n)], lines := m.lines + n })
      let acked := fun (l : Nat) => (migFind s.kite.migSrc table shard).elim false (fun m => m.isAcked l)
      (s.dualRelease table shard acked).migCheck table shard
    | _ => s

/-- A MIG_START or MIG_DATA ends without being acknowledged (R294, R284, R277). -/
def State.migFailed (s : State) (table shard : Nat) (start : Bool) (reason : Option Nat) (detail dst : Nat) : State :=
  match migFind s.kite.migSrc table shard with
  | none => s
  | some m =>
    match reason with
    | none => s.endMig m St.kiteTimeout dst 0
    | some r =>
      if start && r != 10 then s.endMig m St.badState ((s.table table).elim 0 (fun t => t.st.code)) 0
      else s.endMig m (nackStatus r) (nackDetail r detail dst) 0

/-! ### A kite that ends without its answer -/

/-- How the item of a kite ends: by a NACK's REASON, or for want of an answer in time (R277, R284). -/
def kiteEnding (reason : Option Nat) (detail dst : Nat) : Ending :=
  match reason with
  | some r => nackEnding r detail dst
  | none => ⟨St.kiteTimeout, dst, 0⟩

/-- A kite ends without its answer: its item ends (R225, R277, R284), its migration ends (R294), its copy ends (R528), or
the kite whose dual-apply copy it was can no longer be acknowledged (R339). -/
def State.kiteEnds (s : State) (o : TethOwner) (reason : Option Nat) (detail dst : Nat) : State :=
  let e := kiteEnding reason detail dst
  match o with
  | .gather item _ _ _ => s.failItem item e
  | .upd item _ _ => s.failItem item e
  | .hall item n _ _ w => s.hallFailed item n w e.status e.detail
  | .migStart table shard => s.migFailed table shard true reason detail dst
  | .migData table shard _ _ => s.migFailed table shard false reason detail dst
  | .dual id => s.modServed id (fun v => { v with duals := v.duals - 1, dualLost := true })

/-- Send the kites that waited for a slot, as far as slots are free (R273); one with no route ends (R287). -/
def kitePump (s : State) (fuel : Nat) : State :=
  match fuel with
  | 0 => s
  | f + 1 =>
    match s.kite.waiting with
    | [] => s
    | w :: r =>
      if w.frame.dst ≠ s.engineId ∧ (s.outPort w.frame.dst).isNone then
        kitePump (((s.modKite (fun k => { k with waiting := r })).bump Reg.ZP_UNROUTE_CNT 1).kiteEnds w.owner (some 10)
          w.frame.dst w.frame.dst) f
      else
        match s.takeSlot w.frame.dst w.owner with
        | none => s
        | some (s, slot, gen) =>
          let s := s.modKite (fun k => { k with waiting := r })
          let g := { w.frame with origin := s.engineId, slot := slot, gen := gen }
          kitePump ((s.send g false).1.bump Reg.KITE_SENT_CNT 1) f

/-! ### The target -/

/-- R202 fails for a table: no local tenant of its OWNER has a PASID. -/
def State.noBalloon (s : State) (t : Table) : Bool :=
  !(s.conc.tenEff.any (fun (_, e) => e.valid && e.hallId == t.owner && e.pasidValid))

/-- MIG_START arrives: the target accepts, or refuses with a NACK whose REASON and DETAIL the spec leaves open (R294). -/
def State.migStartArrive (s : State) (f : Frame) : State :=
  if s.inReset then s.nackSelf f 8
  else
    let shard := f.arg0.bits 23 0
    match migFind s.kite.migDst f.table shard with
    | some _ => s.replyServed (f.answer kMigAck f.arg0.toNat f.arg1.toNat [])
    | none =>
      let refuse := s.draw.replyServed (f.nack (freeNat s.freeSeq % 256) (freeNat s.freeSeq / 256))
      match s.table f.table with
      | none => refuse
      | some t =>
        let e := t.shard shard
        if !e.pend || plHome e.next != s.engineId || decide (s.kite.migDst.length ≥ 16)
            || (plTier e.next == 1 && s.noBalloon t) then refuse
        else
          let m : Mig := ⟨f.table, shard, f.origin, 2, false, [], 0, [], 0, false, none⟩
          (s.modKite (fun k => { k with migDst := k.migDst ++ [m] })).replyServed (f.answer kMigAck f.arg0.toNat f.arg1.toNat [])

/-- Lines of a MIG_DATA have been received: they are recorded and acknowledged. -/
def State.migReceived (s : State) (table shard first n : Nat) : State :=
  s.modDst table shard (fun m => { m with
    acked := m.acked ++ [(first, n)]
    lines := m.lines + ((upto first n).filter (fun l => !m.isAcked l)).length })

/-- MIG_DATA arrives: lines not yet received are written into the NEXT region (R295). Line numbers of the target are
counted with slot 1 behind slot 0. -/
def State.migDataArrive (s : State) (f : Frame) : State :=
  if s.inReset then s.nackSelf f 8
  else
    let shard := f.arg0.bits 23 0
    let line := f.arg1.bits 21 0
    match migFind s.kite.migDst f.table shard, s.table f.table with
    | some m, some t =>
      let n := f.payload.length / 64
      let first := f.vslot * t.shardLines + line
      let e := t.shard shard
      let pl := if plHome e.cur = s.engineId then e.cur else e.next
      let base := shardBase t f.vslot pl
      let ack := fun (s : State) => s.replyServed (f.answer kMigAck f.arg0.toNat f.arg1.toNat [])
      let new := (upto 0 n).filter (fun j => !m.isAcked (first + j))
      let s := (s.modDst f.table shard (fun m => { m with slots := setIns m.slots f.vslot })).touchSlot f.table f.vslot
      if plTier pl = 0 then
        let s := s.chargeServed (actsOf ((pagesOf (base + 64 * line) (64 * n)).map (· * 2048))) 0
        let s := new.foldl (fun (s : State) j => s.stwWrite (base + 64 * (line + j)) ((f.payload.drop (64 * j)).take 64)) s
        ack (s.migReceived f.table shard first n)
      else if new.length = n then
        let (s, a) := s.hostAcc reqBalloon (s.ownerTenant t) (base + 64 * line) (64 * n) (some (f.payload.take (64 * n)))
          (.migWrite f.table shard first n) true
        match a with
        | .committed => ack (s.migReceived f.table shard first n)
        | .waiting => (s.takeServed f []).1
        | .fault perm at_ => s.replyServed (f.nack (if perm then 7 else 6) (at_ - t.balloon f.vslot))
      else ack s
    | _, _ => s

/-- The served MIG_DATA whose lines start at a line number. -/
def State.migServed (s : State) (table shard first : Nat) : Option Served :=
  let lines := (s.table table).elim 0 Table.shardLines
  s.kite.served.find? (fun v => v.frame.kind == kMigData && v.frame.table == table && v.frame.arg0.bits 23 0 == shard
    && v.frame.vslot * lines + v.frame.arg1.bits 21 0 == first)

/-- The write of a MIG_DATA into a balloon region has been committed. -/
def State.migWritten (s : State) (table shard first n : Nat) : State :=
  match s.migServed table shard first with
  | none => s
  | some v => ((s.unserve v.id).migReceived table shard first n).replyServed
      (v.frame.answer kMigAck v.frame.arg0.toNat v.frame.arg1.toNat [])

/-- That write has failed for want of a translation (R284). -/
def State.migWriteFault (s : State) (table shard first : Nat) (perm : Bool) (at_ : Nat) : State :=
  match s.migServed table shard first with
  | none => s
  | some v => s.refuseServed v.id (if perm then 7 else 6) (at_ - (s.table table).elim 0 (fun t => t.balloon v.frame.vslot))

/-- MIG_DONE arrives: the target is COMPLETE, or, when its bump has passed, at the end of the migration (R298). -/
def State.migDoneArrive (s : State) (f : Frame) : State :=
  let shard := f.arg0.bits 23 0
  let home := (s.table f.table).elim false (fun t => t.curHome shard == s.engineId)
  if home then
    s.modKite (fun k => { k with migDst := k.migDst.filter (fun m => !(m.table == f.table && m.shard == shard)) })
  else s.modDst f.table shard (fun m => { m with state := 3 })

/-! ### The bump's landing, grace and record (R299 to R301, R209) -/

/-- A source enters GRACE: its grace ends at the second landing from now (R300). -/
def State.graceStart (s : State) (m : Mig) : State :=
  let s := s.modSrc m.table m.shard (fun m => { m with state := 5 })
  s.modConc (fun c => { c with
    sched := c.sched ++ [⟨s.hall.landing + 2, c.nextSeq, true, false, .graceEnd m.table m.shard, none⟩]
    nextSeq := c.nextSeq + 1 })

/-- The bump of a table acts on its migrations: the old home of a finished copy enters GRACE, of an unfinished one LATE;
the target is home (R299, R298). -/
def State.migBump (s : State) (table : Nat) : State :=
  let s := (s.kite.migSrc.filter (fun m => m.table == table)).foldl (fun (s : State) m =>
    if m.state = 3 then s.graceStart m
    else if m.state = 2 ∨ m.state = 1 then s.modSrc table m.shard (fun m => { m with state := 4, late := true })
    else s) s
  s.modKite (fun k => { k with migDst := k.migDst.filter (fun m => !(m.table == table && m.state == 3)) })

/-- At a landing, a late copy that has completed enters GRACE (R299). -/
def State.migLanding (s : State) : State :=
  s.kite.migSrc.foldl (fun (s : State) m =>
    if m.state = 4 && (s.table m.table).elim false (fun t => m.complete t) then s.graceStart m else s) s

/-- The grace of a shard ends (R301). -/
def State.graceDone (s : State) (table shard : Nat) : State :=
  s.modSrc table shard (fun m => if m.state = 5 then { m with graceDone := true } else m)

/-- At a landing after its grace, MIGRATE's record is written once no kite for the shard is being served (R301). -/
def State.migRecords (s : State) : State :=
  s.kite.migSrc.foldl (fun (s : State) m =>
    let served := s.kite.served.any (fun v => v.frame.table == m.table && (match v.frame.kind with
      | 0 => (v.rows.any (fun (_, r, _) => r / 65536 == m.shard))
      | 3 => ofLe ((v.frame.payload.drop 32).take 5) / 65536 == m.shard
      | _ => false))
    if m.graceDone && !served then s.endMig m St.ok 0 (b2n m.late) else s) s

end Sys2Proof.Machine
end

