-- ==== Sys2Proof/Machine/Persist.lean ====
section
/-! DEFINITION. The strap (R563), presence (R150) and the persistent store (R572 to R578): which writes it takes, refuses
and counts, and the registers held in it. -/
namespace Sys2Proof.Machine

open Sys2Proof.Config

/-! ### The strap and presence -/

/-- Choice of a converter code (R563). -/
def strapChoice (c : Nat) : Nat := c / 16

/-- The four strap bits of a code (R563). -/
def strapBits (c : Nat) : Nat := if strapChoice c ≥ 8 then Nat.xor (strapChoice c) 4 else strapChoice c

/-- MARGINAL of a code (R563). -/
def strapMarginal (c : Nat) : Bool :=
  decide (14 ≤ c ∧ c ≤ 241) && (c % 16 == 14 || c % 16 == 15 || c % 16 == 0 || c % 16 == 1)

/-- The strap as measured in the last step 1. -/
def State.strap (s : State) : Nat := strapBits s.rst.strap

/-- Lab presence. -/
def State.labPresence (s : State) : Bool := s.strap.testBit 2

/-- Presence by button (R150). -/
def State.buttonPresence (s : State) : Bool :=
  match s.pres.press with
  | some t => decide (s.now ≤ t + ms 60000)
  | none => false

/-- Presence is valid. -/
def State.presence (s : State) : Bool := s.labPresence || s.buttonPresence

/-- The presence state (R150). -/
def State.presenceCode (s : State) : Nat :=
  (if s.labPresence then 2 else b2n s.buttonPresence) + 128 * b2n s.pres.sealOpen

/-- DETAIL of ST_PRESENCE_REQUIRED for a refused persistent word (R576, R130). -/
def State.presDetail (s : State) (word : Option Nat) : Nat :=
  s.presenceCode + (match word with
    | some w => w * 2 ^ 32 + 2 ^ 46
    | none => 0)

/-! ### Words of the store -/

/-- Words of the store. -/
abbrev psWords : Nat := 16384

/-- The largest count of a word (R576). -/
abbrev psLimit : Nat := 1000000

/-- The count from which a write needs presence (R576). -/
abbrev psGate : Nat := 950000

/-- The shipped value of a word the store's list does not hold: boot control and the image slots are Lamone's, every
other word is 0 (log 3, log 6). -/
def psShipped (w : Nat) : Word := if (576 ≤ w ∧ w < 640) ∨ 4096 ≤ w then Config.shippedWord w else 0

/-- The stored value of a word: what has been persisted. -/
def State.psStored (s : State) (w : Nat) : Word := (mapGet s.ps.words w).getD (psShipped w)

/-- Writes accepted and not yet persisted, oldest first. -/
def Ps.waiting (p : Ps) : List PsWrite := (match p.busy with
  | some (x, _) => [x]
  | none => []) ++ p.queue

/-- The value a word will hold once every accepted write is persisted (R573). -/
def State.psValue (s : State) (w : Nat) : Word :=
  match (s.ps.waiting.filter (fun x => x.word == w)).getLast? with
  | some x => x.value
  | none => s.psStored w

/-- The count a word will have once every accepted write is persisted. -/
def State.psCount (s : State) (w : Nat) : Nat :=
  mapCnt s.ps.counts w + (s.ps.waiting.filter (fun x => x.word == w)).length

/-- What the store says to a write (R573, R575, R576). -/
inductive PsRes where
  | same
  | presence
  | wear
  | full
  | ok
deriving DecidableEq, Repr

/-- The checks of R576 on a write that changes a word. -/
def State.psWear (s : State) (w : Nat) : PsRes :=
  if s.psCount w ≥ psLimit then .wear
  else if s.psCount w ≥ psGate ∧ !s.presence ∧ !s.ps.unlocked.contains w then .presence
  else .ok

/-- Whether the store takes a write now. -/
def State.psCheck (s : State) (w : Nat) (v : Word) : PsRes :=
  if s.psValue w = v then .same
  else
    match s.psWear w with
    | .ok => if s.ps.busy.isSome && decide (s.ps.queue.length ≥ 8) then .full else .ok
    | r => r

/-- Change the store. -/
def State.modPs (s : State) (f : Ps → Ps) : State := { s with ps := f s.ps }

/-- Take a write: it starts at once when none is being persisted (R575). -/
def State.psPut (s : State) (w : Nat) (v : Word) (engine : Bool) : State :=
  let x : PsWrite := ⟨w, v, engine⟩
  s.modPs (fun p => match p.busy with
    | none => { p with busy := some (x, s.now) }
    | some _ => { p with queue := p.queue ++ [x] })

/-- The write being persisted is persisted: the word holds it, its count has risen, and the next starts (R574, R575). A
word's count stays at its limit. A write of word 0 takes the bits that the engine sets from their live values (R628). -/
def State.psDone (s : State) : State :=
  match s.ps.busy with
  | none => s
  | some (x, _) =>
    let v := if x.word = 0 then
        Word.ofNat (x.value.bits 12 8 * 2 ^ 8 + x.value.bits 1 0 + (s.reg Reg.ENG_PROFILE).bits 31 13 * 2 ^ 13)
      else x.value
    s.modPs (fun p => { p with
      words := mapSet p.words x.word v
      counts := mapPut p.counts x.word (min psLimit (mapCnt p.counts x.word + 1))
      busy := p.queue.head?.map (fun y => (y, s.now))
      queue := p.queue.drop 1 })

/-- A write through an RWP register: true when the register takes it (R573, R575, R576). -/
def State.psRegister (s : State) (w : Nat) (v : Word) : State × Bool :=
  match s.psCheck w v with
  | .same => (s, true)
  | .ok => (s.psPut w v false, true)
  | .full => (s.modPs (fun p => { p with drop := true }), false)
  | .presence => (s.modPs (fun p => { p with presRef := true }), false)
  | .wear => (s.modPs (fun p => { p with wearRef := true }), false)

/-- The engine's own write of word 0 (R594): one that the store refuses is reported, and one that finds the queue full
waits behind it (log 32). -/
def State.psEngine (s : State) (v : Word) (kind unit : Nat) : State :=
  let lost := fun (s : State) (st : Nat) =>
    ({ s with err := { s.err with fenceUnsaved := true } }).raise { code := 0x84, kind := kind, unit := unit, d0 := st }
  match s.psCheck 0 v with
  | .same => s
  | .presence => lost s St.presence
  | .wear => lost s St.wearLimit
  | _ => s.psPut 0 v true

/-! ### The RWP registers -/

/-- The register a settings word belongs to. -/
def psRegOf (w : Nat) : Option Nat :=
  match w with
  | 0 => some Reg.ENG_PROFILE
  | 1 => some Reg.ZP_ID
  | 2 => some Reg.XLT_HLOSS
  | 3 => some Reg.HR_RST_CTL
  | 4 => some Reg.HR_RST_GAP
  | 5 => some Reg.HR_MFP_FUNC
  | _ => none

/-- Some pin carries THERMTRIP# and none an invalid code (R556, R557). -/
def mfpOk (w : Word) : Bool :=
  let f := fun n => w.bits (8 * n + 2) (8 * n)
  (f 0 == 5 || f 1 == 5 || f 2 == 5 || f 3 == 5) && f 0 != 7 && f 1 != 7 && f 2 != 7 && f 3 != 7

/-- What a settings register makes of a written value: the value it would hold, or none where it discards the write
(R26, R264, R557, R594, and the field tables). -/
def State.rwpValue (s : State) (w : Nat) (v : Word) : Option Word :=
  match w with
  | 0 =>
    if v.bits 1 0 = 3 ∨ v.bits 12 8 < 8 ∨ v.bits 12 8 > 16 then none
    else some (Word.ofNat (v.bits 1 0 + v.bits 12 8 * 2 ^ 8 + (s.reg Reg.ENG_PROFILE).toNat / 2 ^ 13 * 2 ^ 13))
  | 1 => if s.zp.ports.any (·.lit) then none else some (Word.ofNat (v.bits 18 0))
  | 2 => some (Word.ofNat (v.bits 1 0))
  | 3 => some (Word.ofNat (v.bits 1 0))
  | 4 => if v.bits 15 0 < 512 then none else some (Word.ofNat (v.bits 15 0))
  | 5 => if mfpOk v then some (v &&& 0x0F0F0F0F) else none
  | _ => none

/-- ENG_PROFILE.REPLACE is set, and persisted (R594, R595, R607). -/
def State.setReplace (s : State) : State :=
  let v := s.reg Reg.ENG_PROFILE ||| 0x80000000
  (s.setReg Reg.ENG_PROFILE v).psEngine v 0 0

end Sys2Proof.Machine
end

