-- ==== Sys2Proof/Machine/Advance.lean ====
section
/-! DEFINITION. How admitted items go on as their inputs come, fences and restarts (R224, R369, R589 to R595), the
outcomes of RECHECK (R606 to R608), and what a finished host access does for an item. -/
namespace Sys2Proof.Machine

open Sys2Proof.Config

/-! ### Restarts (R224) -/

/-- A bag from its start, its binding kept. -/
def BagRun.again (b : BagRun) : BagRun :=
  { BagRun.start b.desc (if b.desc.listPtr then [] else b.ids) (if b.desc.wgt = 1 then b.wts else []) with bind := b.bind }

/-- Bags of a work that run on a gallery and have not completed. -/
def Work.bagsOn (w : Work) (g : Nat) : List Nat :=
  let bs := match w with
    | .bag b => [b]
    | .interact bs _ _ _ _ _ => bs
    | _ => []
  ((upto 0 bs.length).zip bs).filterMap (fun (k, b) => if b.gallery = some g && !b.done then some k else Option.none)

/-- The work of an item from its beginning, binding kept. -/
def Work.fresh (i : Item) (w : Work) : Work :=
  match w with
  | .array b _ _ _ _ => if i.iop = 0x10 then .array b false false 0 0 else .tile
  | .tile => .tile
  | .vec _ _ => .vec 0 0
  | x => x

/-- What one bag of an item has outstanding is let go, as `letGo` does for the whole item. -/
def State.letGoBag (s : State) (seq k : Nat) : State :=
  let mine := fun (o : TethOwner) => match o with
    | .gather i b _ _ => i == seq && b == k
    | _ => false
  let s := s.modKite (fun x => { x with
    tethers := x.tethers.map (fun (n, t) =>
      if mine t.owner && t.st == .busy then (n, { t with st := .quar, since := s.now }) else (n, t))
    waiting := x.waiting.filter (fun w => !mine w.owner) })
  let s := s.modXlt (fun x => { x with accs := x.accs.filter (fun a => match a.purpose with
    | .list i b _ => !(i == seq && b == k)
    | .weights i b _ => !(i == seq && b == k)
    | .widenHead i b => !(i == seq && b == k)
    | .widen i b _ _ => !(i == seq && b == k)
    | .coldRow key place => !(key == itemKey seq && place / 65536 == k)
    | _ => true) })
  s.modRc (fun r => { r with misses := r.misses.map (fun m =>
    { m with waiters := m.waiters.filter (fun w => !(w.1 == itemKey seq && w.2 / 65536 == k)) }) })

/-- Restart what an item was running on a gallery (R224, R369, R390); a RECHECK's run restarts on the next gallery that
the engine chooses (R608). -/
def State.restartOn (s : State) (i : Item) (g : Nat) : State :=
  let on := i.gallery == some g || (s.gal g).working == some i.seq
  match i.rck with
  | some r =>
    if on || !(i.work.bagsOn g).isEmpty then
      let s := (s.letGo i.seq).clearWork i.seq
      s.modItem i.seq (fun j => { j with
        chunks := [], inputs := [], gallery := none, writes := 0, work := j.work.again
        rck := some { r with gals := updAt r.gals r.cur (fun _ => 31) } })
    else s
  | none =>
    match i.work with
    | .bag b =>
      if b.gallery != some g then s
      else (s.letGo i.seq).modItem i.seq (fun j => { j with
        chunks := [], gallery := none, moved := true, writes := 0
        work := match j.work with
          | .bag b => .bag b.again
          | w => w })
    | .interact _ _ _ _ _ _ =>
      let ks := i.work.bagsOn g
      let s := if ks.isEmpty then s else
        (ks.foldl (fun (s : State) k => ((s.letGoBag i.seq k).modBag i.seq k BagRun.again).modItem i.seq (fun j => { j with
          chunks := j.chunks.filter (fun c => c.bag != k) })) s).modItem i.seq (fun j => { j with moved := true })
      if on && i.writes == 0 then
        ((s.letGo i.seq).clearWork i.seq).modItem i.seq (fun j => { j with
          chunks := [], gallery := none, moved := true, inputs := j.inputs.filter (fun x => decide (x.1 < 102))
          work := match j.work with
            | .interact bs ls _ _ _ _ => .interact bs ls 0 [] false false
            | w => w })
      else s
    | .array _ _ _ _ _ =>
      if on && i.writes == 0 then ((s.letGo i.seq).clearWork i.seq).modItem i.seq (fun j => { j with
          chunks := [], inputs := [], gallery := none, moved := true, work := j.work.fresh j }) else s
    | .tile =>
      if on && i.writes == 0 then ((s.letGo i.seq).clearWork i.seq).modItem i.seq (fun j => { j with
          chunks := [], inputs := [], gallery := none, moved := true }) else s
    | .vec _ _ =>
      if on then ((s.letGo i.seq).clearWork i.seq).modItem i.seq (fun j => { j with
          chunks := [], inputs := [], gallery := none, writes := 0, moved := true, work := .vec 0 0 }) else s
    | _ => s

/-- Every item that ran on a gallery restarts. -/
def State.restartGallery (s : State) (g : Nat) : State :=
  let s := s.conc.items.foldl (fun (s : State) i => match s.item i.seq with
    | some j => s.restartOn j g
    | none => s) s
  s.modGal g (fun x => { x with working := none })

/-! ### Fences and spares (R589 to R595) -/

/-- Galleries that are enabled and not fenced. -/
def State.servingCount (s : State) : Nat := (s.gals.filter (fun g => g.enabled && !g.fenced)).length

/-- The lowest gallery that is neither enabled nor fenced. -/
def State.nextSpare (s : State) : Option Nat := (galsWhere s.gals (fun g => !g.enabled && !g.fenced)).head?

/-- Change the error state. -/
def State.modErr (s : State) (f : Err → Err) : State := { s with err := f s.err }

/-- Galleries counted for capability (R621): enabled ones, and spares neither enabled nor fenced, 16 at most. -/
def State.noteCap (s : State) : State :=
  s.modErr (fun e => { e with capGal := min 16 (s.gals.filter (fun g => g.enabled || !g.fenced)).length })

/-- A gallery's own registers, at their reset values (R547, R625). -/
def State.clearGalRegs (s : State) (g : Nat) : State :=
  let lo := galReg g Reg.GAL_ARR_CYC
  let hi := galReg g Reg.GAL_REQ_ROWSUM
  ({ s with regs := s.regs.filter (fun x => !(decide (lo ≤ x.1) && decide (x.1 ≤ hi))) }).modGal g (fun x =>
    { x with req := [], colsum := [], rowsum := [] })

/-- While fewer than sixteen galleries serve and no spare is under test or ready, the next spare is switched on and its
test begins (R591, R625). -/
def State.takeSpareGal (s : State) : State :=
  if s.servingCount ≥ 16 || s.err.spareTest.isSome || s.err.spareReady.isSome then s
  else
    match s.nextSpare with
    | some g =>
      ((s.clearGalRegs g).modGal g (fun x => { x with on := true })).modErr (fun e => { e with spareTest := some (g, s.now) })
    | none => s

/-- Held tiles of a fenced gallery are LOST (R369). -/
def State.loseTiles (s : State) (g : Nat) : State :=
  let here := fun (t : Tile) => !t.lost && (match t.home with
    | some (h, _) => h == g
    | none => false)
  let n := (s.tiles.filter (fun x => here x.2)).length
  ({ s with tiles := s.tiles.map (fun (k, t) => if here t then (k, { t with lost := true, home := none }) else (k, t)) }).bump
    Reg.GAL_TILE_LOST_CNT n

/-- Fence a gallery (R590): at once, without firmware. It stays in ERR_GAL_EN until the next landing. A fence caused by
injection is not persisted (R615). -/
def State.fenceGal (s : State) (g cause : Nat) (injected : Bool) : State :=
  if g ≥ 18 || (s.gal g).fenced then s
  else
    let s := s.modGal g (fun x => { x with fenced := true, on := false })
    let s := (s.restartGallery g).loseTiles g
    let s := s.modErr (fun e => { e with
      spareTest := if (e.spareTest.map (·.1)) = some g then none else e.spareTest
      spareReady := if e.spareReady = some g then none else e.spareReady })
    let s := s.raise { code := 0x31, kind := 1, unit := g, d0 := cause, d1 := s.servingCount, injected := injected }
    let v := s.reg Reg.ENG_PROFILE ||| Word.ofNat (2 ^ (13 + g))
    let s := if injected then s.modErr (fun e => { e with tempFence := setIns e.tempFence g })
      else (s.setReg Reg.ENG_PROFILE v).psEngine v 1 g
    if s.servingCount = 0 then (s.forceDrain 4).raise { code := 0xB0, d0 := 5 } else s.takeSpareGal

/-! ### RECHECK (R605 to R608) -/

/-- Key of the expected bytes among an item's inputs. -/
def expectKey : Nat := 2 ^ 71

/-- A RECHECK has its outcome (R607, R608). -/
def State.rckEnd (s : State) (seq : Nat) (r : Rck) (outcome : Nat) (suspect : Option Nat) : State :=
  let g := (suspect.map (fun k => r.gals.getD k 31)).getD 31
  let s := match outcome with
    | 1 => s.raise { code := 0xA3 }
    | 2 => s.raise { code := 0xA0 }
    | 3 => s.raise { code := 0xA1, kind := 1, unit := g }
    | 4 => s.raise { code := 0xA2 }
    | _ => s
  let s := s.endItem seq ⟨St.ok, r.detail r.runs.length 0, outcome + g * 8⟩
  if outcome = 3 then s.fenceGal g 3 false
  else if outcome = 4 then (s.forceDrain 3).setReplace
  else s

/-- What follows a RECHECK's runs: the outcome, the read of the expected bytes, or the next run's admission (R606). -/
def State.rckGo (s : State) (seq : Nat) : State :=
  match s.item seq with
  | none => s
  | some i =>
    match i.rck with
    | none => s
    | some r =>
      match rckNext r.runs false with
      | .run _ => s
      | .done 0 none =>
        if !r.expectEn || r.runs.length ≠ 2 then s.rckEnd seq r 0 none
        else if r.waitExpect then s
        else
          let n := (r.runs.headD []).length
          let s := s.modItem seq (fun i => { i with rck := some { r with waitExpect := true } })
          let (s, a) := s.hostAcc reqConc i.tenant r.expectAddr n none (.input seq expectKey 0) false
          match a with
          | .fault perm at_ => s.failItem seq ⟨xlStatus perm, at_ - r.expectAddr, 0⟩
          | _ => s
      | .done o sus => s.rckEnd seq r o sus

/-- The expected bytes have come. -/
def State.rckExpect (s : State) (seq : Nat) (data : List Byte) : State :=
  match (s.item seq).bind (·.rck) with
  | some r =>
    let n := (r.runs.headD []).length
    s.rckEnd seq r (if r.runs.headD [] = data.take n then 0 else 1) none
  | none => s

/-! ### Going on -/

/-- A bag of a RECHECK has its final values: its result is the run's. -/
def State.bagRunDone (s : State) (seq : Nat) : State :=
  match s.item seq with
  | some i =>
    (match i.rck, i.work with
      | some _, .bag b =>
        if b.settled then
          let (s, bs) := s.injectedOne i.gallery (s.bagBytes b)
          s.runDone seq bs
        else s
      | _, _ => s)
  | none => s

/-- An item goes on as far as it can. -/
def State.advance (s : State) (seq : Nat) : State :=
  match s.item seq with
  | none => s
  | some i =>
    let s := match i.work with
      | .bag _ => (s.bagFinish seq 0).bagRunDone seq
      | .interact bs _ _ _ _ _ =>
        let s := s.interactPrep seq
        let s := (upto 0 bs.length).foldl (fun (s : State) k => s.bagFinish seq k) s
        (s.interactGo seq).interactFinish seq
      | .array _ _ _ _ _ =>
        if i.chunks.isEmpty then s
        else if i.iop = 0x10 then s.arrayExec seq else s.tileExec seq
      | .tile => if i.chunks.isEmpty then s else s.tileExec seq
      | .vec _ _ => if i.chunks.isEmpty then s else vecGo s seq i.vecFuel
      | .upd _ _ _ _ _ _ _ _ _ _ => s.updFinish seq
      | .copy _ _ _ _ _ _ _ => s.cpyPump (copyChan i.words)
      | _ => s
    s.rckGo seq

/-- Everything that waited for a column, a slot or a channel is tried again. -/
def State.pump (s : State) : State := (kitePump s.servePump (s.kite.waiting.length + 1)).cpyPumpAll

/-! ### Finished host accesses of items -/

/-- What became of a host access: the bytes of a read, a committed write, a translation that failed, poisoned data, or an
error completion; for the last two with the offset of the first byte concerned. -/
inductive HRes where
  | data (bs : List Byte)
  | wrote
  | fault (perm : Bool) (at_ : Nat)
  | poison (first : Nat)
  | err (first : Nat)
deriving DecidableEq, Repr

/-- The failure of an access as status, permission aside, and first byte (R491). -/
def HRes.fail (r : HRes) (a : HAcc) : Option (Bool × Nat) :=
  match r with
  | .fault perm at_ => some (perm, at_)
  | .poison first => some (false, a.addr + min first (a.len - 1))
  | .err first => some (false, a.addr + min first (a.len - 1))
  | _ => none

/-- The data came poisoned. -/
def HRes.isPoison : HRes → Bool
  | .poison _ => true
  | _ => false

/-- The read was answered by an error. -/
def HRes.isErr : HRes → Bool
  | .err _ => true
  | _ => false

/-- A result write of an item is committed (R116, R252). -/
def State.resultWritten (s : State) (seq wh : Nat) : State :=
  match s.item seq with
  | none => s
  | some i =>
    match i.work with
    | .bag _ => s.bagWritten seq
    | .interact _ _ _ _ _ _ => s.interactDone seq
    | .vec _ _ => s.vecWritten seq wh
    | .inlineW => s.endItem seq ⟨St.ok, 0, 0⟩
    | _ => if i.iop = 0x10 then s.arrayDone seq else s.tileDone seq

/-- A result write of an item has failed: WHERE by opcode (R257, R401, R477). -/
def State.resultFailed (s : State) (seq wh : Nat) (perm : Bool) (at_ : Nat) : State :=
  match s.item seq with
  | none => s
  | some i =>
    let end_ := fun (base aux : Nat) => s.failItem seq ⟨xlStatus perm, at_ - base, aux⟩
    match i.work with
    | .bag b => end_ b.desc.destAddr 2
    | .interact _ _ _ _ _ _ => end_ (uw64 i.iw 1 6) 2
    | .vec _ _ => end_ (uw64 i.iw 2 wh) (wh * 16)
    | .inlineW => end_ (uw64 i.iw 1 6) (4 * 16)
    | _ => if i.iop = 0x10 then end_ (uw64 i.iw 1 6) (4 * 16) else end_ (uw64 i.iw 2 0) (7 * 16)

/-- An input of an item has come or failed. -/
def State.inputDone (s : State) (seq key wh : Nat) (a : HAcc) (r : HRes) : State :=
  match s.item seq with
  | none => s
  | some i =>
    if key = expectKey then
      match r with
      | .data d => s.rckExpect seq d
      | _ => match r.fail a with
        | some (perm, at_) => s.failItem seq ⟨xlStatus perm, at_ - a.addr, 0⟩
        | none => s
    else if i.op = 0x30 then
      let p := CpyPkt.ofWords i.iw
      match r with
      | .data d => (s.putInput seq key (d.take a.len)).cpyPump (copyChan i.words)
      | _ =>
        if key ≥ 2 ^ 70 then ((s.putInput seq key []).bump Reg.CPY_PF_DROP_CNT 1).cpyPump (copyChan i.words)
        else match r.fail a with
          | some (perm, at_) => s.failItem seq ⟨xlStatus perm, at_ - p.listAddr,
              cpyAux ((at_ - p.listAddr) / 16 % 4096) 2 (r.isErr) (r.isPoison)⟩
          | none => s
    else
      match r with
      | .data d =>
        let s := s.putInput seq key (d.take a.len)
        let s := if i.op = 0x20 then
            let p := UpdPkt.ofWords i.iw
            (match s.table p.table with
              | some t => (match p.badEntry t.dim t.rows key (d.take a.len) with
                | some (pos, off) => s.failItem seq ⟨St.badField, off, pos⟩
                | none => s)
              | none => s)
          else s
        s.advance seq
      | _ => match r.fail a with
        | some (perm, at_) => s.failItem seq ⟨xlStatus perm, at_ - i.inputBase key a.addr, i.inputAux wh (r.isPoison && i.memAsPage)⟩
        | none => s

/-- A cold row of an item has failed (R257). -/
def State.coldFailed (s : State) (seq place : Nat) (perm : Bool) (at_ : Nat) : State :=
  match s.bagOf seq (place / 65536) with
  | some b =>
    let base := (s.bagTable b).balloon ((b.bind.map (·.slot)).getD 0)
    s.failItem seq ⟨xlStatus perm, at_ - base, 3⟩
  | none => s

/-- A host access made for an item has finished; one whose item has ended does nothing. The access is out of the list,
but for a cold row's, which its arrival takes out. -/
def State.itemAccess (s : State) (a : HAcc) (r : HRes) : State :=
  match a.purpose with
  | .list seq k first =>
    (match r with
      | .data d => ((s.takeList seq k first (d.take a.len)).listReady seq k first).advance seq
      | _ => match r.fail a, s.bagOf seq k with
        | some (perm, at_), some b => s.failItem seq ⟨xlStatus perm, at_ - b.desc.listAddr, 0⟩
        | _, _ => s)
  | .weights seq k first =>
    (match r with
      | .data d => ((s.takeWts seq k first (d.take a.len)).listReady seq k first).advance seq
      | _ => match r.fail a, s.bagOf seq k with
        | some (perm, at_), some b => s.failItem seq ⟨xlStatus perm, at_ - b.desc.wgtAddr, 1⟩
        | _, _ => s)
  | .input seq key wh => s.inputDone seq key wh a r
  | .coldRow key place =>
    (match r with
      | .data d => if key % 2 = 0 then (s.rowArrive (key / 2) place (.balloon d)).advance (key / 2)
        else (s.dropAcc a.id).servedCold (key / 2) place d
      | _ => match r.fail a with
        | some (perm, at_) =>
          let s := s.dropAcc a.id
          if key % 2 = 0 then s.coldFailed (key / 2) place perm at_
          else (match s.servedOf (key / 2) with
            | some v => s.refuseServed (key / 2) (if perm then 7 else 6)
                (at_ - (s.table v.frame.table).elim 0 (fun t => t.balloon v.frame.vslot))
            | none => s)
        | none => s)
  | .widenHead seq k =>
    (match r with
      | .data d => (s.widenHead seq k d).advance seq
      | _ => match r.fail a with
        | some (perm, at_) => s.failItem seq ⟨xlStatus perm, at_ - a.addr, 4⟩
        | none => s)
  | .widen seq k _ off =>
    (match r with
      | .wrote => (s.widenWritten seq k off).advance seq
      | _ => match r.fail a, s.item seq with
        | some (perm, at_), some i => s.failItem seq ⟨xlStatus perm, at_ - ((s.widenArea i.tenant).map (·.1)).getD 0, 4⟩
        | _, _ => s)
  | .result seq _ wh =>
    (match r with
      | .wrote => s.resultWritten seq wh
      | _ => match r.fail a with
        | some (perm, at_) => s.resultFailed seq wh perm at_
        | none => s)
  | .spill t =>
    (match r with
      | .wrote => s.tileSpilled t
      | _ => s.spillFault t)
  | .restore seq t =>
    (match r with
      | .data d => (s.tileRestored seq t d).advance seq
      | _ => match r.fail a with
        | some (perm, at_) => s.failItem seq ⟨xlStatus perm, at_ - a.addr, 5 * 16 + 128 * b2n (r.isPoison)⟩
        | none => s)
  | .cpyRead seq n =>
    (match r with
      | .data d => (s.cpyArrived seq n d false).advance seq
      | .poison _ => (s.cpyArrived seq n [] true).advance seq
      | _ => match r.fail a with
        | some (perm, at_) => (s.cpyFault seq n false perm at_).advance seq
        | none => s)
  | .cpyWrite seq n =>
    (match r with
      | .wrote => (s.cpyCommitted seq n).advance seq
      | _ => match r.fail a with
        | some (perm, at_) => (s.cpyFault seq n true perm at_).advance seq
        | none => s)
  | .cpyFence seq =>
    (match r with
      | .data _ => s.cpyFenced seq
      | _ => match r.fail a with
        | some (perm, _) => s.cpyFail seq ⟨xlStatus perm, 0, cpyAux 0 3 (r.isErr) (r.isPoison)⟩
        | none => s)
  | _ => s

end Sys2Proof.Machine
end

