-- ==== Sys2Proof/Machine/Admit.lean ====
section
/-! DEFINITION. Admission of chunks (R82 to R88, R98, R99, R118, R325, R363 to R366, R516, R592): which chunk may be
admitted next, what it is charged, where it runs, and CHUNK_ADMIT. -/
namespace Sys2Proof.Machine

open Sys2Proof.Config

/-! ### ORDER (R118) -/

/-- A packet from a ring. -/
def MqPkt.before (p : MqPkt) (n seq : Nat) : Bool := p.src == .ring n && decide (p.seq < seq)

/-- An earlier packet of a ring has not had its completion written or suppressed. -/
def State.ringOpen (s : State) (n seq : Nat) : Bool :=
  s.conc.items.any (fun i => i.src == .ring n && decide (i.seq < seq))
    || s.conc.mq.any (fun p => p.before n seq) || s.conc.ops.any (fun o => o.pkt.before n seq)
    || s.conc.sched.any (fun x => x.pkt.any (fun p => p.before n seq))
    || s.kite.migSrc.any (fun m => m.pkt.any (fun p => p.before n seq))
    || s.selftest.any (fun t => t.pkt.before n seq)

/-- ORDER lets a packet go on. -/
def State.orderOk (s : State) (src : PktSrc) (words : List Word) (seq : Nat) : Bool :=
  !(words.getD 1 0).bit 2 || (match src with
    | .ring n => !s.ringOpen n seq
    | .lane _ => true)

/-! ### The next chunk of an item -/

/-- The item can admit chunks: on chip, past its restore's landing, and ORDER satisfied (R118, R222). -/
def State.ready (s : State) (i : Item) : Bool :=
  !i.spilled && decide (i.admitAt ≤ s.hall.landing) && s.orderOk i.src i.words i.seq

/-- The place of the run that a RECHECK makes next; none when its runs are over (R606). -/
def Item.rckPlace (i : Item) : Option Nat :=
  match i.rck with
  | none => none
  | some r => match rckNext r.runs false with
    | .run k => some k
    | .done _ _ => none

/-- The next slot of a copy. -/
def Item.cpySlot (i : Item) : Nat :=
  match i.work with
  | .copy _ n _ _ _ _ _ => n
  | _ => 0

/-- A check made at admission ends the item with nothing charged: a spilled context that could not be read, a list outside
R214, a list slot that fails R511 to R513, or a split over too many galleries (R222, R310, R510, R514, R592). -/
def State.admitEnds (s : State) (i : Item) : Option Ending :=
  let outside := fun (ptr loc : Bool) (addr n : Nat) => ptr && loc && !s.inOwnRing i.tenant addr n
  if !i.admitted && i.ending.isSome then i.ending
  else
    match i.work with
    | .upd _ _ 0 _ _ _ _ _ _ _ =>
      let p := UpdPkt.ofWords i.iw
      if outside p.listPtr p.listLoc p.listAddr (entryLen p.dfmt p.sfmt (s.dimOf p.table) * p.count) then
        some ⟨St.denied, 0, 0⟩ else none
    | .copy _ n _ _ _ _ _ =>
      let p := CpyPkt.ofWords i.iw
      if outside p.listPtr p.listLoc p.listAddr (16 * p.count) then some ⟨St.denied, 0, 0⟩
      else
        match i.cpyEntry p n with
        | some (e, false) =>
          if n < p.count && i.chunks.isEmpty && i.ending.isNone then
            some ⟨St.badField, if p.listPtr then 16 * e.slot else 64 + 16 * e.slot, cpyAux e.slot 2 false false⟩
          else none
        | _ => none
    | .array _ _ _ _ _ =>
      let p := ArrPkt.ofWords i.iw
      if i.iop = 0x10 && !arrForeign i.iw && p.split > s.enabledCount && i.chunks.isEmpty then some ⟨St.badField, 17, 0⟩ else none
    | _ => none

/-- The charge of an item's next chunk, when it has one to admit now. -/
def State.nextCharge (s : State) (i : Item) : Option Charge :=
  if !s.ready i || (i.rck.isSome && i.rckPlace.isNone) then none
  else
    let once := fun (c : Charge) => if i.chunks.isEmpty then some c else none
    match i.work with
    | .none => once .zero
    | .bag b => s.bagNext i 0 b
    | .interact bags _ st _ _ _ =>
      if bags.isEmpty then none
      else
        match s.nextSetBag i bags with
        | some (_, c) => some c
        | none =>
          if bags.all (·.settled) && i.chunks.isEmpty && decide (st < (IntPkt.ofWords i.iw).stages) then
            some (s.stageCharge i bags st)
          else none
    | .array _ _ _ _ _ => once (if i.iop = 0x10 then s.arrayCharge i (ArrPkt.ofWords i.iw) else s.tileCharge i)
    | .tile => once (s.tileCharge i)
    | .vec _ _ => once (vecCharge i.iw)
    | .upd _ _ _ _ _ _ _ _ _ _ => (s.updKites i).1.head?.map (s.updCharge i)
    | .reduce next _ => once ((RedPkt.ofWords i.iw).charge next)
    | .copy _ n _ _ _ _ _ =>
      let p := CpyPkt.ofWords i.iw
      let ch := copyChan i.words
      if n ≥ p.count || s.cpyAdmitted ch i.isLat ≥ 8 || (s.chan ch).quiesced || i.ending.isSome then none
      else
        match i.cpyEntry p n with
        | some (e, true) => some (s.cpyCharge p e)
        | _ => none
    | .inlineW => once (inlineCharge i.iw)

/-! ### The order of admission (R86, R98, R99) -/

/-- A chunk that could be admitted: an item's, or the next MIG_DATA of a migration (R296). -/
structure Cand where
  seq : Nat
  tenant : Nat
  cls : Nat
  due : Nat
  promoted : Bool
  charge : Charge
deriving DecidableEq, Repr

/-- The next chunk of a migration, when fewer than sixteen of its kites are unanswered (R296). -/
def State.migCand (s : State) (m : Mig) : Option Cand :=
  match m.pkt, s.table m.table with
  | some p, some t =>
    if s.migOut m.table m.shard ≥ 16 then none
    else (m.nextData t).map (fun (slot, line, n) =>
      ⟨p.seq, p.tenant, (p.words.getD 0 0).bits 21 20, p.due, false, s.migCharge m t slot line n⟩)
  | _, _ => none

/-- The next chunk of an item as a candidate. -/
def State.itemCand (s : State) (i : Item) : Option Cand :=
  (s.nextCharge i).map (fun c => ⟨i.seq, i.tenant, i.cls, i.due, i.cls != i.cls0, c⟩)

/-- Every chunk that could be admitted now. -/
def State.cands (s : State) : List Cand := s.conc.items.filterMap s.itemCand ++ s.kite.migSrc.filterMap s.migCand

/-- The promoted cap holds a chunk back (R98, R99). -/
def State.heldBack (s : State) (c : Cand) : Bool := c.promoted && !s.promoFits c.charge

/-- Position in the order of R86 and R99: classes 0, 1, held-back promoted chunks, class 2. -/
def State.rank (s : State) (c : Cand) : Nat := if s.heldBack c then 4 else if c.cls = 2 then 5 else 2 * c.cls

/-- One chunk comes before another of the same position: held-back chunks by acceptance, others of one tenant by due
landing and then acceptance (R86, R99). -/
def State.ahead (s : State) (a b : Cand) : Bool :=
  s.rank a == s.rank b && (if s.rank a = 4 then decide (a.seq < b.seq)
    else a.tenant == b.tenant && (decide (a.due < b.due) || (a.due == b.due && decide (a.seq < b.seq))))

/-- No chunk of the list comes before this one at its position. -/
def State.isHead (s : State) (l : List Cand) (c : Cand) : Bool := !l.any (fun d => s.ahead d c)

/-- It is this chunk's turn: it is a head of its position, and no head of an earlier position fits (R86). The order among
tenants of one class is the command's to choose (R86, R87; log 12). -/
def State.turn (s : State) (c : Cand) : Bool :=
  let l := s.cands
  s.isHead l c && !l.any (fun d => decide (s.rank d < s.rank c) && s.isHead l d && (s.refuses d.charge).isNone)

/-! ### Galleries, slots and credit -/

/-- Chunks outstanding on a gallery (Limits of bags). -/
def State.chunksOn (s : State) (g : Nat) : Nat :=
  sumNat (s.conc.items.map (fun i =>
    let bags := (upto 0 256).filter (fun k => (i.work.bagAt k).any (fun b => b.gallery == some g))
    (i.chunks.filter (fun c => bags.contains c.bag || (i.gallery == some g && (i.work.bagAt c.bag).isNone))).length))

/-- A gallery can be given a chunk. -/
def State.galFree (s : State) (g : Nat) : Bool := (s.gal g).usable && decide (s.chunksOn g < 64)

/-- The galleries that the next chunk of an item would take: the first runs it, further ones hold the parts of a split. -/
inductive Spot where
  /-- It needs no gallery. -/
  | nowhere
  | at_ (g : Nat) (others : List Nat)
  /-- It waits. -/
  | waits
  /-- It waits for a slot of a held tile (R366). -/
  | slot
deriving DecidableEq, Repr

/-- The gallery of a RECHECK's run: the packet's choice while it is not fenced, else the engine's (R606, R608). -/
def State.rckGallery (s : State) (r : Rck) (k : Nat) : Option Nat :=
  let g := r.gals.getD k 31
  let taken := ((upto 0 3).filter (· != k)).map (fun j => r.gals.getD j 31)
  if g ≠ 31 && !(s.gal g).fenced then some g else (s.rckPool taken).head?

/-- Further galleries for the parts of a split (R379). -/
def State.splitGals (s : State) (g n : Nat) : Option (List Nat) :=
  let free := ((galsWhere s.gals (fun x => x.usable && x.working.isNone)).filter (fun x => x != g && decide (s.chunksOn x < 64))).take n
  if free.length < n then none else some free

/-- Where a chunk of an operation on a tile runs: a resident held tile's own gallery, else the one the command names
(R363, R366, R379). -/
def State.tileSpot (s : State) (i : Item) (gal : Nat) : Spot :=
  let p := ArrPkt.ofWords i.iw
  let arr := i.iop = 0x10
  let split := if arr then p.split else 1
  match i.tile with
  | none =>
    if !s.galFree gal && i.rck.isNone then .waits
    else if (s.gal gal).working.isSome then .waits
    else (match s.splitGals gal (split - 1) with
      | some l => .at_ gal l
      | none => .waits)
  | some k =>
    if arr && arrForeign i.iw then .nowhere
    else if s.conc.items.any (fun j => j.seq != i.seq && j.admitted && j.tile == some k) then .waits
    else
      let town := (uw i.iw 1 4).bits 6 5
      let t := mapGet s.tiles k
      let home := t.bind (fun x => x.home)
      let long := decide (i.iw.length ≥ 16)
      let needs := (s.townBad k town).isNone && home.isNone && (town == 1 || (t.any (fun x => !x.lost) && (arr || long)))
      match home with
      | some (g, _) =>
        if !s.galFree g then .waits
        else if split > 1 && (s.gal g).working.isSome then .waits
        else (match s.splitGals g (split - 1) with
          | some l => .at_ g l
          | none => .waits)
      | none =>
        if needs && !s.anySlot then .slot
        else if !s.galFree gal || (needs && (s.freeSlots gal).isEmpty) then .waits
        else if split > 1 && (s.gal gal).working.isSome then .waits
        else (match s.splitGals gal (split - 1) with
          | some l => .at_ gal l
          | none => .waits)

/-- Where the next chunk of an item runs, given the gallery the command names. -/
def State.spot (s : State) (i : Item) (gal : Nat) : Spot :=
  let gal := match i.rck, i.rckPlace with
    | some r, some k => i.gallery.getD ((s.rckGallery r k).getD 31)
    | _, _ => i.gallery.getD gal
  let ok := fun (g : Nat) => if i.rck.isSome then decide (g < 18) && !(s.gal g).fenced && !(s.gal g).quiesced && !(s.gal g).testing
    else s.galFree g
  match i.work with
  | .bag b => let g := b.gallery.getD gal; if ok g then .at_ g [] else .waits
  | .interact bags _ _ _ _ _ =>
    (match s.nextSetBag i bags with
      | some (k, _) => let g := ((bags[k]?).bind (·.gallery)).getD gal; if ok g then .at_ g [] else .waits
      | none =>
        if !ok gal then .waits
        else if i.gallery.isNone && (s.gal gal).working.isSome then .waits
        else .at_ gal [])
  | .array _ _ _ _ _ => if i.rck.isSome && !ok gal then .waits else s.tileSpot i gal
  | .tile => s.tileSpot i gal
  | .vec _ _ => if ok gal then .at_ gal [] else .waits
  | _ => .nowhere

/-- The next chunk of a batch waits for its home's credit (R325). -/
def State.creditWaits (s : State) (i : Item) : Bool :=
  match (s.updKites i).1 with
  | k :: _ => i.op == 0x20 && k.home != s.engineId && !s.creditAllows k.home
  | [] => false

/-! ### CHUNK_ADMIT -/

/-- Galleries taken for a chunk: the item's, its bag's, and the working tiles it holds. -/
def State.takeGals (s : State) (i : Item) (sp : Spot) (bag : Option Nat) : State :=
  match sp with
  | .at_ g others =>
    let real := match i.work with
      | .array _ _ _ _ _ => let p := ArrPkt.ofWords i.iw
        ((pairing p.a.fmt (s.opndB p).fmt).map (·.real)).getD false
      | _ => false
    let hold := match i.work, bag with
      | .array _ _ _ _ _, _ => i.iop == 0x10 && i.tile.isNone
      | .interact _ _ _ _ _ _, none => true
      | _, _ => false
    let s := (if hold then g :: others else others).foldl (fun (s : State) x =>
      s.modGal x (fun y => { y with working := some i.seq, workReal := real })) s
    (match bag with
      | some k =>
        let s := s.modBag i.seq k (fun b => { b with gallery := some g })
        (match i.work with
          | .bag _ => s.modItem i.seq (fun j => { j with gallery := some g })
          | _ => s)
      | none => s.modItem i.seq (fun j => { j with gallery := some g }))
  | _ => s

/-- Note the gallery of a RECHECK's run. -/
def State.takeRun (s : State) (i : Item) (sp : Spot) : State :=
  match i.rck, i.rckPlace, sp with
  | some r, some k, .at_ g _ =>
    s.modItem i.seq (fun j => { j with rck := some { r with gals := updAt r.gals k (fun _ => g), cur := k } })
  | _, _, _ => s

/-- Run an admitted chunk. -/
def State.startChunk (s : State) (seq : Nat) (c : Chunk) (bag : Option Nat) : State :=
  match s.item seq with
  | none => s
  | some i =>
    match i.work with
    | .none => s.endItem seq ⟨St.ok, 0, 0⟩
    | .bag _ => s.startBagChunk seq 0 c
    | .interact bags _ _ _ _ _ =>
      (match bag with
        | some k =>
          (match (if i.nextChunk ≤ 1 then s.setBad i (IntPkt.ofWords i.iw) bags else none) with
            | some e => s.failChunk seq c e
            | none => s.startBagChunk seq k c)
        | none => s.startStage seq c)
    | .array _ _ _ _ _ => if i.iop = 0x10 then s.startArray seq c else s.startTile seq c
    | .tile => s.startTile seq c
    | .vec _ _ => vecGo s seq i.vecFuel
    | .upd _ _ _ _ _ _ _ _ _ _ => let (ks, rb) := s.updKites i; s.startUpd seq c ks rb
    | .reduce _ _ => s.startReduce seq c
    | .copy _ n _ _ _ _ _ =>
      (match i.cpyEntry (CpyPkt.ofWords i.iw) n with
        | some (e, _) => s.startEntry seq e
        | none => s)
    | .inlineW => s.startInline seq

/-- The chunk record of an item's next chunk, and the bag it belongs to. -/
def State.newChunk (s : State) (i : Item) (c : Charge) (promoted : Bool) : Chunk × Option Nat :=
  let mk := fun (bag first count : Nat) => (⟨i.nextChunk, s.hall.landing, bag, first, count, c, promoted, 0⟩ : Chunk)
  match i.work with
  | .bag b => (mk 0 b.next (if b.finishDue then 0 else b.chunkLen), some 0)
  | .interact bags _ _ _ _ _ =>
    (match s.nextSetBag i bags with
      | some (k, _) => (match bags[k]? with
        | some b => (mk k b.next (if b.finishDue then 0 else b.chunkLen), some k)
        | none => (mk k 0 0, some k))
      | none => (mk bags.length 0 0, none))
  | .copy _ n _ _ _ _ _ => (match i.cpyEntry (CpyPkt.ofWords i.iw) n with
    | some (e, _) => (mk 0 e.slot e.slots, none)
    | none => (mk 0 n 1, none))
  | _ => (mk 0 0 0, none)

/-- Admit a chunk whose turn it is and whose charge fits. -/
def State.admitOne (s : State) (i : Item) (c : Cand) (sp : Spot) : State :=
  let promoted := c.promoted && !s.heldBack c
  let (ch, bag) := s.newChunk i c.charge promoted
  let s := s.chargeOrig c.charge promoted
  let s := match sp with
    | .at_ g _ => (s.bump (galReg g Reg.GAL_ARR_CYC) c.charge.arr).bump (galReg g Reg.GAL_VEC_CYC) c.charge.vec
    | _ => s
  let s := (s.takeGals i sp bag).takeRun i sp
  let s := s.modItem i.seq (fun j => { j with
    admitted := true, heldBack := false, waited := false, nextChunk := j.nextChunk + 1, chunks := j.chunks ++ [ch] })
  (s.startChunk i.seq ch bag).advance i.seq

/-- Count a chunk that the promoted cap holds back, once (R99). -/
def State.noteHeld (s : State) (i : Item) (c : Cand) : State :=
  if s.heldBack c && !i.heldBack then
    (s.modItem i.seq (fun j => { j with heldBack := true })).bump Reg.FLT_OVERCAP_CNT 1
  else s

/-- CHUNK_ADMIT for an item: nothing where it is not its turn (R86); a chunk that does not fit is noted as refused (R84,
R100); one that waits for credit or a slot is counted as waiting (R325, R366). -/
def State.admitItem (s : State) (i : Item) (gal : Nat) : State :=
  if s.ready i && (s.admitEnds i).isSome then
    match s.admitEnds i with
    | some e => s.failItem i.seq e
    | none => s
  else
    match s.itemCand i with
    | none => s
    | some c =>
      let s := s.noteHeld i c
      if s.creditWaits i then
        if i.waited then s
        else (s.modItem i.seq (fun j => { j with
            waited := true
            work := match j.work with
              | .upd b ks n o l r a x rb _ => .upd b ks n o l r a x rb true
              | w => w })).bump Reg.KITE_UPD_CREDIT_WAIT_CNT 1
      else
        match s.spot i gal with
        | .waits => s
        | .slot => s.spillForSlot i.seq
        | sp =>
          if !s.turn c then s
          else
            match s.refuses c.charge with
            | some r => s.noteRefused r
            | none => s.admitOne i c sp

/-- CHUNK_ADMIT for a migration's next MIG_DATA (R296). -/
def State.admitMig (s : State) (m : Mig) : State :=
  match s.migCand m with
  | none => s
  | some c =>
    if !s.turn c then s
    else
      match s.refuses c.charge with
      | some r => s.noteRefused r
      | none => (s.chargeOrig c.charge false).migChunk m.table m.shard s.hall.landing false

/-- Admit the next chunk of the packet that a number names. -/
def State.chunkAdmit (s : State) (seq gal : Nat) : State :=
  match s.item seq with
  | some i => s.admitItem i gal
  | none =>
    match s.kite.migSrc.find? (fun m => m.pkt.any (fun p => p.seq == seq)) with
    | some m => s.admitMig m
    | none => s

/-- PROMOTE_BY_AGE (R95): a class 2 item of the given age becomes class 1. -/
def State.promoteAge (s : State) (seq : Nat) : State :=
  match s.item seq with
  | some i =>
    let age := s.rbits Reg.FLT_AGE 15 0
    if i.cls = 2 ∧ age ≠ 0 ∧ i.accLanding + age ≤ s.hall.landing then
      (s.modItem seq (fun j => { j with cls := 1 })).bump Reg.FLT_PROMO_CNT 1
    else s
  | none => s

/-- PROMOTE_BY_MARGIN (R96): a class 2 item, or one promoted from it, due within two landings becomes class 0. -/
def State.promoteMargin (s : State) (seq : Nat) : State :=
  match s.item seq with
  | some i =>
    if i.cls0 = 2 ∧ i.cls ≠ 0 ∧ i.due ≤ s.hall.landing + 2 then
      (s.modItem seq (fun j => { j with cls := 0 })).bump Reg.FLT_PROMO_CNT 1
    else s
  | none => s

end Sys2Proof.Machine
end

