-- ==== Sys2Proof/Machine/Check.lean ====
section
/-! DEFINITION. The checks of R121 on a packet: its length, reserved bits, class, deadline, privilege and table, and the
opcode-specific checks of the datapath opcodes (R218, R311, R345, R375 to R385, R396 to R399, R476, R508 to R514,
R605). -/
namespace Sys2Proof.Machine

open Sys2Proof.Config

/-! ### Small pieces -/

/-- ST_BAD_FIELD at a byte of the packet (R130). -/
def badAt (n : Nat) : Ending := ⟨St.badField, n, 0⟩

/-- ST_BAD_LENGTH with the one LEN required. -/
def badLen (n : Nat) : Ending := let m := min n 255; ⟨St.badLength, m + m * 256, 0⟩

/-- ST_DENIED at check 10 (R130). -/
def denied10 : Ending := ⟨St.denied, 10, 0⟩

/-- The first failing check of a list. -/
def failing (l : List (Bool × Ending)) : Option Ending := (l.find? (·.1)).map (·.2)

/-- The first byte that is not 0 among bytes a to b - 1. -/
def nzIn (bs : List Byte) (a b : Nat) : Option Nat := (upto a (b - a)).find? (fun n => bs.getD n 0 != 0)

/-- ST_BAD_FIELD at the first byte from a to b - 1 that is not 0. -/
def nzBad (bs : List Byte) (a b : Nat) : Option Ending := (nzIn bs a b).map badAt

/-- ST_BAD_FIELD at the first set bit of a reserved field [hi:lo] of a packet word. -/
def rsvBad (ws : List Word) (word hi lo : Nat) : Option Ending :=
  ((upto lo (hi + 1 - lo)).find? (fun n => (ws.getD word 0).bit n)).map (fun n => badAt (4 * word + n / 8))

/-- The first failure of a list of checks made one after another. -/
def firstBad (l : List (Option Ending)) : Option Ending := l.findSome? id

/-- One condition as a check. -/
def chk (bad : Bool) (e : Ending) : Option Ending := if bad then some e else none

/-- An address is not a multiple of n. -/
def misaligned (a n : Nat) : Bool := a % n != 0

/-- LEN of the packet's words. -/
def lenOf (ws : List Word) : Nat := ws.length / 8

/-! ### BAG (R211 to R215, R218) -/

/-- The descriptor of a BAG packet. -/
def bagDesc (ws : List Word) : BagDesc :=
  let ptr := (uw ws 1 4).bit 6
  BagDesc.ofWords ((uw ws 1 2).bits 15 0) (uw ws 1 4) (uw ws 1 5) (uw ws 1 6) (uw ws 1 7)
    (if ptr then uw64 ws 2 0 else 0) (if ptr then uw64 ws 2 2 else 0)

/-- End of an inline payload, from the packet's start, and the LEN a BAG needs (R212, R213). -/
def BagDesc.need (d : BagDesc) : Nat × Nat :=
  if d.listPtr then (48, 2)
  else
    let p := if d.wgt = 1 then 2 * ceilDiv (5 * d.count) 2 + 2 * d.count else 5 * d.count
    (32 + p, 1 + ceilDiv p 32)

/-- Check 10 of a BAG (R218). -/
def State.bagCheck (s : State) (tenant : Nat) (ws : List Word) : Option Ending :=
  let d := bagDesc ws
  let bs := wordsBytes ws
  let (fin, need) := d.need
  firstBad [
    rsvBad ws 2 31 16,
    chk (decide (d.pool > 4)) (badAt 16), chk (decide (d.wgt = 3)) (badAt 17), chk (decide (d.vhint = 3)) (badAt 17),
    chk (decide (d.dest = 3)) (badAt 17), chk (d.listLoc && !d.listPtr) (badAt 16),
    chk (decide (d.wfmt ≠ 0 ∧ d.wgt = 0)) (badAt 17), chk (d.listPtr && d.wgt != 2 && d.wgtAddr != 0) (badAt 40),
    nzBad bs fin bs.length,
    chk (lenOf ws != need) (badLen need),
    chk ((!d.listPtr && decide (d.count > 32)) || (d.pool == 4 && decide (d.count > 256))) (badAt 18),
    chk ((d.wgt != 0) != (d.pool == 2) || (d.wgt == 1 && d.listPtr) || (d.wgt == 2 && !d.listPtr)) (badAt 17),
    chk (!fp32PosNormal d.oscale) (badAt 20),
    chk (d.listPtr && misaligned d.listAddr 8) (badAt 32), chk (d.listPtr && misaligned d.wgtAddr 2) (badAt 40),
    chk (d.dest != 1 && misaligned d.destAddr 64) (badAt 24),
    chk (d.dest == 2 && tenant != 0) denied10,
    (s.table d.table).bind (fun t => chk (d.wfmt == 1 && !fmtInt t.format) ⟨St.badFormat, 17, 0⟩),
    (s.table d.table).bind (fun t => if d.listPtr then none else
      ((inlineIds (bs.drop 32) d.count).find? (fun x => decide (x.2 ≥ t.rows))).map (fun x => badAt (32 + 5 * x.1)))]

/-! ### UPDATE_BATCH (R307 to R313) -/

/-- Bytes that the state field needs after the row (R315). -/
def stateEnd (t : Table) (sfmt : Nat) : Nat :=
  if sfmt = 0 then t.rowSize else roundUp t.rowSize (if sfmt = 1 then 1 else 4) + (if sfmt = 1 then 1 else 4)

/-- Check 10 of an UPDATE_BATCH (R311). -/
def State.batchCheck (s : State) (tenant : Nat) (ws : List Word) : Option Ending :=
  let p := UpdPkt.ofWords ws
  let bs := wordsBytes ws
  let dim := s.dimOf p.table
  let e := entryLen p.dfmt p.sfmt dim
  let need := if p.listPtr then 2 else 1 + ceilDiv (p.count * e) 32
  let fin := if p.listPtr then 40 else 32 + p.count * e
  firstBad [
    rsvBad ws 2 31 16,
    chk (decide (p.dfmt > 5)) (badAt 16), rsvBad ws 4 15 8,
    chk (p.listLoc && !p.listPtr) (badAt 16), chk (!p.listPtr && p.listAddr != 0) (badAt 24),
    chk (p.listPtr && !p.part && p.partAddr != 0) (badAt 32), nzBad bs fin bs.length,
    chk (lenOf ws != need || (!p.listPtr && decide (p.count * e > 224))) (badLen need),
    chk (decide (e > 4064)) (badAt 16),
    chk (p.part && !p.listPtr) (badAt 16), chk (p.part && tenant != 0) denied10,
    (s.table p.table).bind (fun t =>
      chk (!p.part && (!addKindOk t.format p.dfmt || decide (stateEnd t p.sfmt > t.stride))) ⟨St.badFormat, 16, 0⟩),
    chk (p.listPtr && misaligned p.listAddr 8) (badAt 24), chk (p.part && misaligned p.partAddr 4) (badAt 32),
    (s.table p.table).bind (fun t => if p.listPtr then none else
      (upto 0 p.count).findSome? (fun j =>
        (entryFault p.dfmt p.sfmt dim t.rows ((bs.drop (32 + e * j)).take e)).map (fun o => badAt (32 + e * j + o))))]

/-! ### SPLIT_REDUCE (R345) -/

/-- Check 10 of a SPLIT_REDUCE. -/
def redCheck (ws : List Word) : Option Ending :=
  let p := RedPkt.ofWords ws
  let need := if p.nsrc ≤ 4 then 3 else 4
  firstBad [
    chk (decide (p.src = 3)) (badAt 32), rsvBad ws 8 31 8, rsvBad ws 9 31 24, rsvBad ws 13 31 0, rsvBad ws 14 31 0,
    rsvBad ws 15 31 0, chk (decide (p.nsrc < 2)) (badAt 32),
    chk (lenOf ws != need) (badLen need),
    chk (misaligned p.dest 64) (badAt 40), chk (!fp32PosNormal p.oscale) (badAt 48),
    (((upto 0 p.srcs.length).zip p.srcs).find? (fun (_, a) => misaligned a 64)).map (fun (j, _) => badAt (64 + 8 * j))]

/-! ### ARRAY_OP (R374 to R381) -/

/-- Check 10 of a release of another tenant's tile (R374). -/
def State.foreignCheck (s : State) (tenant : Nat) (ws : List Word) : Option Ending :=
  let id := (uw ws 2 0).bits 11 0
  let key := tileKey id ((uw ws 1 4).bits 3 0)
  firstBad [
    rsvBad ws 4 31 7, rsvBad ws 5 23 0, rsvBad ws 5 31 28, chk ((uw ws 1 5).bits 27 24 != id % 16) (badAt 23),
    rsvBad ws 6 31 0, rsvBad ws 7 31 0, rsvBad ws 8 31 12, nzBad (wordsBytes ws) 36 (4 * ws.length),
    chk (lenOf ws != 3) (badLen 3),
    chk (tenant != 0) denied10,
    (s.townBad key 2).map (fun d => ⟨St.badState, d, 0⟩)]

/-- Reserved bits and codes of an operand descriptor in unit u; `b` says that it is B (R375). -/
def operandBad (ws : List Word) (u : Nat) (b : Bool) : Option Ending :=
  let o := Operand.ofUnit ws u
  let at_ := 32 * (u - 1)
  firstBad [
    chk (decide (o.fmt > 8)) (badAt at_), chk (decide (o.loc = 3) || (!b && decide (o.loc = 2))) (badAt at_),
    rsvBad ws (8 * (u - 1)) 31 9, rsvBad ws (8 * (u - 1) + 3) 31 16,
    chk (!b && o.sums != 0) (badAt (at_ + 24)), chk (b && o.loc == 2 && decide (o.addr ≥ 2 ^ 40)) (badAt (at_ + 21))]

/-- Scale, zero point, stride and alignment of an operand descriptor (check 3). -/
def operandForm (o : Operand) (u k : Nat) (table : Bool) : Option Ending :=
  let at_ := 32 * (u - 1)
  if table then chk (misaligned o.sums 4) (badAt (at_ + 24))
  else firstBad [
    chk (misaligned o.stride 4 || decide (o.stride < rowBytes o.fmt k o.esc)) (badAt (at_ + 4)),
    chk (!fp32PosNormal o.scale) (badAt (at_ + 8)), chk (!zpOk o.fmt o.zp) (badAt (at_ + 12)),
    chk (misaligned o.addr 64) (badAt (at_ + 16)), chk (misaligned o.sums 4) (badAt (at_ + 24))]

/-- Check 10 of an ARRAY_OP (R381). -/
def State.arrayCheck (s : State) (tenant : Nat) (ws : List Word) : Option Ending :=
  if arrForeign ws then s.foreignCheck tenant ws
  else
    let p := ArrPkt.ofWords ws
    let b := s.opndB p
    let none_ := p.out == 0
    let need := if none_ then 3 else 4
    let pr := pairing p.a.fmt b.fmt
    let real := (pr.map (·.real)).getD false
    firstBad [
      chk (decide (p.town = 3)) (badAt 16), chk (p.work && (decide (p.tile ≠ 0) || decide (p.town ≠ 0) || p.acc)) (badAt 16),
      chk (decide (p.out > 10)) (badAt 17), chk (!p.work && decide (p.split ≠ 1)) (badAt 17),
      chk (decide (p.dest = 3) || (none_ && p.dest != 0)) (badAt 19),
      rsvBad ws 5 31 28, chk (p.town != 2 && (uw ws 1 5).bits 27 24 != 0) (badAt 23),
      chk (none_ && p.destAddr != 0) (badAt 24), operandBad ws 2 false, operandBad ws 3 true,
      (if none_ then none else firstBad [rsvBad ws 26 31 1, nzBad (wordsBytes ws) 112 128,
        chk (p.out == 10 && p.req != 0) (badAt 96), chk (p.out == 10 && p.reqEng) (badAt 104)]),
      chk (lenOf ws != need) (badLen need),
      chk pr.isNone ⟨St.badFormat, 64, 0⟩,
      chk (p.a.esc != 0 && !fmtEsc p.a.fmt) ⟨St.badFormat, 32, 0⟩,
      chk (p.b.loc != 2 && b.esc != 0 && !fmtEsc b.fmt) ⟨St.badFormat, 64, 0⟩,
      operandForm p.a 2 p.k false, operandForm p.b 3 p.k (p.b.loc == 2),
      (if none_ then none else firstBad [chk (p.dest != 1 && misaligned p.destAddr 64) (badAt 24),
        chk (misaligned p.req 16) (badAt 96), chk (decide (p.ostride < p.rowOut real)) (badAt 108)]),
      chk (tenant != 0 && (p.a.loc == 1 || p.b.loc == 1 || (!none_ && p.reqEng) || p.dest == 2 || (uw ws 1 5).bits 27 24 != 0))
        denied10,
      (if p.work then none else (s.townBad (tileKey tenant p.tile) p.town).map (fun d => ⟨St.badState, d, 0⟩))]

/-! ### TILE_READ and TILE_WRITE (R383) -/

/-- Check 10 of a TILE_READ or TILE_WRITE. -/
def State.tileCheck (s : State) (tenant : Nat) (ws : List Word) (write : Bool) : Option Ending :=
  let w4 := uw ws 1 4
  let town := w4.bits 6 5
  let two := lenOf ws == 2
  let ok := if write then (if two then decide (town < 2) else town == 1) else (if two then town == 0 || town == 2 else town == 2)
  firstBad [
    rsvBad ws 4 4 4, (if write then none else rsvBad ws 4 7 7), rsvBad ws 4 31 8, rsvBad ws 5 31 0, rsvBad ws 6 31 0,
    rsvBad ws 7 31 0,
    (if two then firstBad [rsvBad ws 10 31 1, nzBad (wordsBytes ws) 44 64] else none),
    chk (!ok) (badAt 16), chk (two && misaligned (uw64 ws 2 0) 64) (badAt 32),
    chk (two && tenant != 0 && (uw ws 2 2).bit 0) denied10,
    (s.townBad (tileKey tenant (w4.bits 3 0)) town).map (fun d => ⟨St.badState, d, 0⟩)]

/-! ### VEC_CHAIN (R396 to R399) -/

/-- A stream format code is defined. -/
def vecFmtOk (f : Nat) : Bool := f == 0 || f == 2 || (decide (4 ≤ f) && decide (f ≤ 9))

/-- A stage's code and registers are as R397 and R398 give. -/
def stageBad (ws : List Word) (n : Nat) : Option Ending :=
  let st := Stage.ofWord (uw ws 3 n)
  let w := uw ws 4 0
  let at_ := 64 + 4 * n
  let inFmt := w.bits (4 * (st.op - 1) + 3) (4 * (st.op - 1))
  let outFmt := if st.op = 3 then w.bits 10 8 else w.bits 13 11
  firstBad [
    rsvBad ws (16 + n) 31 30, chk (decide (st.op > 0x12)) (badAt at_),
    chk (st.int && (st.op == 9 || st.op == 0x10)) ⟨St.badFormat, at_, 0⟩,
    chk (st.int && (st.op == 1 || st.op == 2) && !(inFmt == 0 || inFmt == 2 || inFmt == 9)) ⟨St.badFormat, at_, 0⟩,
    chk (st.int && (st.op == 3 || st.op == 4) && decide (outFmt > 1)) ⟨St.badFormat, at_, 0⟩,
    chk (st.op == 0x10 && st.dst % 2 == 1) (badAt at_),
    chk ((st.op == 3 || st.op == 4) && !st.int && outFmt == 7 && st.sa % 2 == 1) (badAt (at_ + 1))]

/-- Check 10 of a VEC_CHAIN. -/
def vecCheck (tenant : Nat) (ws : List Word) : Option Ending :=
  let sts := vecStages ws
  let many := fun (op : Nat) => decide ((sts.filter (fun st => st.op == op)).length > 1)
  let w := uw ws 4 0
  let imm := sts.any (fun st => st.imm.isSome)
  let need := if imm then 5 else 4
  let stores := vecHas ws 3 || vecHas ws 4
  firstBad [
    chk (lenOf ws != 5 && lenOf ws != need) (if imm then badLen 5 else ⟨St.badLength, 4 + 5 * 256, 0⟩),
    rsvBad ws 4 31 20, rsvBad ws 5 31 0, rsvBad ws 6 31 0, rsvBad ws 7 31 0, rsvBad ws 24 31 14,
    rsvBad ws 28 31 0, rsvBad ws 29 31 0, rsvBad ws 30 31 0, rsvBad ws 31 31 0,
    nzBad (wordsBytes ws) (64 + 4 * sts.length) 96,
    (upto 0 sts.length).findSome? (stageBad ws),
    chk (many 1 || many 2 || many 3 || many 4) (badAt 64),
    chk (!vecFmtOk (w.bits 3 0) || !vecFmtOk (w.bits 7 4)) (badAt 96),
    (upto 0 4).findSome? (fun k => chk (!vecHas ws (k + 1) && uw64 ws 2 (2 * k) != 0) (badAt (32 + 8 * k))),
    chk (stores && !fp32PosNormal (uw ws 4 3)) (badAt 108),
    (upto 0 4).findSome? (fun k => chk (misaligned (uw64 ws 2 (2 * k)) 64) (badAt (32 + 8 * k))),
    chk ((uw ws 1 4).bit 19 && tenant != 0) denied10]

/-! ### BAG_INTERACT (R385) -/

/-- Check 10 of a BAG_INTERACT. -/
def interactCheck (tenant : Nat) (ws : List Word) : Option Ending :=
  let p := IntPkt.ofWords ws
  let last := p.nlayer == 0
  firstBad [
    chk (decide (p.s * p.f > 4096)) (badAt 16), chk (decide (p.inter = 3)) (badAt 17), chk (decide (p.nlayer > 8)) (badAt 17),
    chk (decide (p.dest = 3)) (badAt 18), rsvBad ws 4 31 23, chk (decide (p.denseN > 4096)) (badAt 20), rsvBad ws 5 31 21,
    chk (p.denseN != 0 && !(p.denseFmt == 2 || (decide (4 ≤ p.denseFmt) && decide (p.denseFmt ≤ 8)))) (badAt 21),
    chk (last && (decide (p.out < 1) || decide (p.out > 9))) (badAt 22),
    chk (last && p.layersAddr != 0) (badAt 40), chk (p.denseN == 0 && p.denseAddr != 0) (badAt 48),
    chk (if last then !fp32PosNormal p.oscale else p.oscale != 0) (badAt 60),
    chk (lenOf ws != 2) (badLen 2),
    chk (misaligned p.bagsAddr 32) (badAt 32), chk (misaligned p.layersAddr 64) (badAt 40),
    chk (misaligned p.denseAddr 4) (badAt 48), chk (p.dest != 1 && misaligned p.destAddr 64) (badAt 24),
    chk (tenant != 0 && (p.eng || p.dest == 2)) denied10]

/-! ### COPY (R508 to R514) -/

/-- The first inline slot from n that fails R511 to R513. -/
def slotsBad (p : CpyPkt) (ws : List Word) (n fuel : Nat) : Option Nat :=
  match fuel with
  | 0 => none
  | k + 1 =>
    if n ≥ p.count then none
    else
      let g := fun (m : Nat) => (upto 0 4).map (fun j => ws.getD (16 + 4 * m + j) 0)
      if !cpyEntryOk p n (g n) (g (n + 1)) then some n
      else slotsBad p ws (n + (CpyEntry.ofWords n (g n) (g (n + 1))).slots) k

/-- Check 10 of a COPY (R514). -/
def cpyCheck (ws : List Word) : Option Ending :=
  let p := CpyPkt.ofWords ws
  let bs := wordsBytes ws
  let need := if p.listPtr then 2 else 2 + ceilDiv p.count 2
  firstBad [
    rsvBad ws 2 31 16, chk (decide (p.crc = 3)) (badAt 17), rsvBad ws 4 15 12, rsvBad ws 4 31 28, rsvBad ws 5 31 18,
    chk (p.listLoc && !p.listPtr) (badAt 16), chk (!p.listPtr && p.listAddr != 0) (badAt 24),
    chk (p.crc != 1 && p.crcAddr != 0) (badAt 32), chk (p.crc == 0 && p.seed != 0) (badAt 40),
    chk (p.crc != 2 && p.expect != 0) (badAt 44), chk (!p.flag && p.flagAddr != 0) (badAt 48),
    chk (!p.flag && p.flagVal != 0) (badAt 56),
    (if p.listPtr then none else nzBad bs (64 + 16 * p.count) bs.length),
    chk (lenOf ws != need && (p.listPtr || decide (p.count ≤ 12))) (badLen need),
    chk (p.hall && decide ((uw ws 1 4).bits 5 2 ≥ 8)) (badAt 16), chk (!p.hall && p.peer != 0) (badAt 20),
    chk (p.flag && !p.barrier) (badAt 17), chk (!p.listPtr && decide (p.count > 12)) (badAt 18),
    chk (p.listPtr && misaligned p.listAddr 16) (badAt 24), chk (misaligned p.crcAddr 4) (badAt 32),
    chk (misaligned p.flagAddr 8) (badAt 48),
    (if p.listPtr then none else (slotsBad p ws 0 p.count).map (fun n => badAt (64 + 16 * n)))]

/-! ### INLINE_WRITE (R476, R477) -/

/-- Check 10 of an INLINE_WRITE. -/
def inlineCheck (tenant : Nat) (ws : List Word) : Option Ending :=
  let n := inlineBytes ws
  let need := 1 + ceilDiv n 32
  firstBad [
    chk (n == 0 || decide (n > 192)) (badAt 16), rsvBad ws 4 31 9, rsvBad ws 5 31 0,
    nzBad (wordsBytes ws) (32 + n) (4 * ws.length), chk (lenOf ws != need) (badLen need),
    chk (inlineLoc ws && tenant != 0) denied10]

/-! ### RECHECK (R605) -/

/-- The inner packet of a RECHECK: its header's first word, TAG and table, the inner opcode and LEN, and the inner words. -/
def rckInner (ws : List Word) : List Word :=
  let u := uw ws 2 0
  let n := u.bits 19 16
  let w0 := Word.ofNat (u.bits 15 0 + n * 65536 + ((uw ws 1 0).toNat / 2 ^ 20) * 2 ^ 20)
  [w0, uw ws 1 1, Word.ofNat ((uw ws 1 2).bits 15 0), uw ws 1 3, uw ws 2 4, uw ws 2 5, uw ws 2 6, uw ws 2 7]
    ++ (ws.drop 16).take (8 * (n - 1))

/-- Permitted lengths of a RECHECK's inner opcode; none for another. -/
def rckLens (op : Nat) : Option (Nat × Nat) :=
  match op with
  | 1 => some (1, 8)
  | 2 => some (2, 8)
  | 0x10 => some (2, 8)
  | 0x18 => some (2, 8)
  | _ => none

/-- A check of the inner packet's bytes, in terms of the RECHECK's own. -/
def innerAt (e : Ending) : Ending :=
  if e.status = St.badField ∨ e.status = St.badFormat then { e with detail := e.detail + 32 } else e

/-- Check 10 of a RECHECK; `inner` is check 10 of the inner opcode. -/
def State.rckCheck (s : State) (ws : List Word) (inner : List Word → Option Ending) : Option Ending :=
  let w4 := uw ws 1 4
  let gs := [w4.bits 4 0, w4.bits 9 5, w4.bits 14 10]
  let u := uw ws 2 0
  let op := u.bits 15 0
  let n := u.bits 19 16
  let iws := rckInner ws
  firstBad [
    (((upto 0 3).zip gs).find? (fun (_, g) => decide (18 ≤ g ∧ g ≠ 31))).map (fun (k, _) => badAt (16 + 5 * k / 8)),
    rsvBad ws 4 31 16, rsvBad ws 5 31 0, rsvBad ws 8 31 20, rsvBad ws 9 31 0, rsvBad ws 10 31 0, rsvBad ws 11 31 0,
    chk (rckLens op).isNone (badAt 32), chk (n == 0 || n + 1 != lenOf ws) (badAt 34),
    chk (op == 0x10 && (!(uw iws 1 4).bit 4 || (uw iws 1 4).bits 11 8 == 0)) (badAt 48),
    (rckLens op).bind (fun (a, b) => chk (decide (n < a)) ⟨St.badLength, a + b * 256, 0⟩),
    (inner iws).map innerAt,
    (gs.find? (fun g => decide (g < 18) && (s.gal g).fenced)).map (fun g => ⟨St.fenced, g, 0⟩)]

/-! ### Check 10 by opcode -/

/-- Check 10 of an opcode that may stand inside a RECHECK. -/
def State.workCheck (s : State) (tenant op : Nat) (ws : List Word) : Option Ending :=
  match op with
  | 1 => s.bagCheck tenant ws
  | 2 => interactCheck tenant ws
  | 0x10 => s.arrayCheck tenant ws
  | 0x18 => vecCheck tenant ws
  | _ => none

/-- Check 10 of a datapath packet. -/
def State.check10 (s : State) (tenant op : Nat) (ws : List Word) : Option Ending :=
  match op with
  | 0x11 => s.tileCheck tenant ws false
  | 0x12 => s.tileCheck tenant ws true
  | 0x20 => s.batchCheck tenant ws
  | 0x22 => redCheck ws
  | 0x30 => cpyCheck ws
  | 0x40 => s.rckCheck ws (s.workCheck tenant ((uw ws 2 0).bits 15 0))
  | 0x60 => inlineCheck tenant ws
  | _ => s.workCheck tenant op ws

/-! ### The opcode table (R132) -/

/-- An opcode's LEN range, whether it is for tenant 0 alone, and whether its header names a table: 0 no, 1 by check 9. -/
structure OpRow where
  lo : Nat
  hi : Nat
  admin : Bool
  table : Bool
deriving DecidableEq, Repr

/-- The opcode table; none for an undefined opcode. -/
def opRow (op : Nat) : Option OpRow :=
  match op with
  | 0x0000 => some ⟨1, 8, false, false⟩
  | 0x0001 => some ⟨1, 8, false, true⟩
  | 0x0002 => some ⟨2, 8, false, false⟩
  | 0x0010 => some ⟨2, 8, false, false⟩
  | 0x0011 => some ⟨1, 2, false, false⟩
  | 0x0012 => some ⟨1, 2, false, false⟩
  | 0x0018 => some ⟨2, 8, false, false⟩
  | 0x0020 => some ⟨2, 8, false, true⟩
  | 0x0022 => some ⟨3, 4, true, false⟩
  | 0x0030 => some ⟨2, 8, true, false⟩
  | 0x0040 => some ⟨2, 8, false, false⟩
  | 0x0060 => some ⟨2, 7, false, false⟩
  | 0x8000 => some ⟨1, 1, false, false⟩
  | 0x8001 => some ⟨2, 2, true, false⟩
  | 0x8002 => some ⟨1, 1, true, false⟩
  | 0x8004 => some ⟨2, 2, true, false⟩
  | 0x8005 => some ⟨1, 1, true, false⟩
  | 0x8010 => some ⟨2, 2, true, false⟩
  | 0x8011 => some ⟨1, 1, true, false⟩
  | 0x8012 => some ⟨1, 1, true, false⟩
  | 0x8020 => some ⟨2, 8, true, false⟩
  | 0x8021 => some ⟨1, 1, true, true⟩
  | 0x8022 => some ⟨1, 1, true, true⟩
  | 0x8023 => some ⟨2, 8, true, true⟩
  | 0x8024 => some ⟨1, 1, true, true⟩
  | 0x8025 => some ⟨2, 2, true, true⟩
  | 0x8026 => some ⟨2, 2, true, true⟩
  | 0x8030 => some ⟨2, 2, false, true⟩
  | 0x8031 => some ⟨1, 1, true, false⟩
  | 0x8040 => some ⟨1, 2, true, false⟩
  | 0x8041 => some ⟨1, 1, true, false⟩
  | 0x8042 => some ⟨1, 1, true, false⟩
  | 0x8043 => some ⟨1, 1, true, false⟩
  | 0x8050 => some ⟨2, 2, true, false⟩
  | 0x8051 => some ⟨2, 8, true, false⟩
  | 0x8060 => some ⟨2, 2, true, false⟩
  | 0x8061 => some ⟨1, 1, true, false⟩
  | 0x8062 => some ⟨1, 1, true, false⟩
  | 0x8063 => some ⟨1, 1, true, false⟩
  | 0x8064 => some ⟨1, 1, true, false⟩
  | 0x8070 => some ⟨1, 1, true, false⟩
  | 0x8071 => some ⟨2, 2, true, false⟩
  | _ => none

/-- A control opcode (R119). -/
def isControl (op : Nat) : Bool := decide (op ≥ 0x8000)

/-- Opcodes that may name a landing at check 4 (R120; R170 governs VERSION_SWITCH's own actions). -/
def mayLand (op : Nat) : Bool := op == 0x8021 || op == 0x8022 || op == 0x8024 || op == 0x8025

/-- Opcodes that carry a local tenant ID in OPARG (R635). -/
def localId (op : Nat) : Bool := op == 0x8001 || op == 0x8002 || op == 0x8004 || op == 0x8005

/-- Opcodes of tenant 0 that DRAINING still accepts (R599). -/
def drainOk (op : Nat) : Bool :=
  [0x8000, 0x8030, 0x8023, 0x8024, 0x8025, 0x8021, 0x8011, 0x8002, 0x8040, 0x8041, 0x8042, 0x8043, 0x8050, 0x8051, 0x8062,
    0x8064, 0x0030].contains op

/-- Table of a packet that check 9 judges. R144 makes that check of datapath packets; the management core looks up a
control packet's table when it executes it (log 40). -/
def tableNamed (row : OpRow) (op : Nat) (ws : List Word) : Option Nat :=
  let t := (uw ws 1 2).bits 15 0
  if row.table then some t
  else if op = 0x10 then (if !arrForeign ws && (uw ws 3 0).bits 8 7 = 2 then some t else none)
  else if op = 0x40 then
    let iop := (uw ws 2 0).bits 15 0
    if iop = 1 ∨ (iop = 0x10 ∧ (uw (rckInner ws) 3 0).bits 8 7 = 2) then some t else none
  else none

/-- Checks 2 to 10 of R121 on a packet of a ring's owner; none when it is accepted. -/
def State.checkPkt (s : State) (tenant : Nat) (ws : List Word) : Option Ending :=
  let w0 := uw ws 1 0
  let w1 := uw ws 1 1
  let op := w0.bits 15 0
  let ctl := isControl op
  let e := s.tenant tenant
  if w1.bits 31 20 ≠ tenant then some ⟨St.denied, 2, 0⟩
  else
    match opRow op with
    | none => some ⟨St.badOpcode, 0, 0⟩
    | some row =>
      firstBad [
        chk (decide (lenOf ws < row.lo ∨ lenOf ws > row.hi)) ⟨St.badLength, row.lo + row.hi * 256, 0⟩,
        rsvBad ws 0 23 22, rsvBad ws 1 19 3,
        (if ctl then firstBad [rsvBad ws 6 31 0, rsvBad ws 7 31 0] else none),
        chk (ctl && !mayLand op && uw64 ws 1 4 != 0) (badAt 16),
        (if localId op then chk ((uw ws 1 2).bits 31 28 != 0) (badAt 11) else none),
        chk (decide (w0.bits 21 20 = 3)) (badAt 2),
        chk (s.isDraining && !(tenant == 0 && drainOk op)) ⟨St.draining, 0, 0⟩,
        chk (decide (w0.bits 21 20 < e.classMin)) ⟨St.denied, 6, 0⟩,
        chk (decide (w0.bits 31 24 = 0)) ⟨St.badDeadline, 0, 0⟩,
        chk (row.admin && tenant != 0) ⟨St.denied, 8, 0⟩,
        (if ctl then none
          else (tableNamed row op ws).bind (fun t =>
            match s.table t with
            | none => some ⟨St.badTable, t, 0⟩
            | some tb => chk (!s.mayUse e.hallId t tb (op == 0x20)) ⟨St.denied, 9, 0⟩)),
        (if ctl then none else s.check10 tenant op ws)]

end Sys2Proof.Machine
end

