-- ==== Sys2Proof/Machine/Concourse.lean ====
section
/-! DEFINITION. The concourse: reading rings (R107 to R113, R126, R127, R154), accepting packets (R118 to R123, R133,
R148, R149), and the rows by which a packet reaches it. -/
namespace Sys2Proof.Machine

open Sys2Proof.Config

/-! ### Accepting a packet -/

/-- Mean service time in ns of the last 64 control packets (CONC_MQ_SVC, R149). -/
def State.mqMean (s : State) : Nat :=
  if s.conc.mqSvc.isEmpty then 500 else min 0xFFFF (sumNat s.conc.mqSvc / s.conc.mqSvc.length)

/-- The retry-after count of a refused control packet (R149); 255 until firmware runs (Boot). -/
def State.retryAfter (s : State) : Nat :=
  if s.boot.state ≠ 3 then 255
  else min 255 (max 1 (ceilDiv (s.conc.mq.length * s.mqMean) (max 1 s.lenNs)))

/-- The control queue takes a packet of a tenant (R148). -/
def State.mqTakes (s : State) (tenant : Nat) : Bool :=
  s.boot.state == 3 && decide (s.conc.mq.length < 256)
    && (tenant == 0 || (decide (s.conc.mq.length < 192)
        && decide ((s.conc.mq.filter (fun p => p.tenant == tenant)).length < 16)))

/-- The work of a packet of an opcode before its first chunk. -/
def startWork (op : Nat) (ws : List Word) : Work :=
  match op with
  | 0x01 =>
    let d := bagDesc ws
    let pay := (wordsBytes ws).drop 32
    .bag (BagRun.start d (if d.listPtr then [] else inlineIds pay d.count) (if d.wgt = 1 then inlineWts pay d.count else []))
  | 0x02 => .interact [] [] 0 [] false false
  | 0x10 => .array none false false 0 0
  | 0x11 => .tile
  | 0x12 => .tile
  | 0x18 => .vec 0 0
  | 0x20 => .upd none [] 0 0 0 0 false false false false
  | 0x22 => .reduce 0 false
  | 0x30 => .copy [] 0 (CpyPkt.ofWords ws).seed .data false false false
  | 0x60 => .inlineW
  | _ => .none

/-- The recheck that a RECHECK packet starts (R605, R606). -/
def startRck (ws : List Word) : Rck :=
  let w4 := uw ws 1 4
  { gals := [w4.bits 4 0, w4.bits 9 5, w4.bits 14 10], runs := [], cur := 31, words := rckInner ws, expectEn := w4.bit 15,
    expectAddr := uw64 ws 1 6, expect := none, waitExpect := false, suspect := 31 }

/-- What an accepted item asks for before its first chunk: a set's entries and layers, a batch's or a copy's list. -/
def State.prepare (s : State) (seq : Nat) : State :=
  match s.item seq with
  | none => s
  | some i =>
    match i.iop with
    | 0x02 => s.interactPrep seq
    | 0x20 => s.updPrep seq
    | 0x30 => s.cpyPrep seq 0
    | _ => s

/-- The item of a datapath packet just accepted (R80, R119). -/
def State.newItem (s : State) (src : PktSrc) (cq : Option Nat) (index tenant : Nat) (ws : List Word) : Item :=
  let w0 := uw ws 1 0
  let op := w0.bits 15 0
  let rck := if op = 0x40 then some (startRck ws) else none
  { seq := s.conc.nextSeq
    tenant := tenant
    hallId := (s.tenant tenant).hallId
    src := src
    cq := cq
    index := index
    words := ws
    op := op
    cls := w0.bits 21 20
    cls0 := w0.bits 21 20
    accLanding := s.hall.landing
    due := s.hall.landing + w0.bits 31 24
    spilled := false
    wasSpilled := false
    admitAt := 0
    admitted := false
    gallery := none
    moved := false
    heldBack := false
    waited := false
    chunks := []
    nextChunk := 0
    inputs := []
    work := (match rck with
      | some r => startWork ((uw r.words 1 0).bits 15 0) r.words
      | none => startWork op ws)
    writes := 0
    ending := none
    rck := rck }

/-- A datapath packet takes a context (R80, R123, R221); a NOP that ORDER does not hold completes at once. -/
def State.acceptItem (s : State) (src : PktSrc) (cq : Option Nat) (index tenant : Nat) (ws : List Word) : State :=
  let seq := s.conc.nextSeq
  let item := s.newItem src cq index tenant ws
  let s := s.modConc (fun c => { c with items := c.items ++ [item], nextSeq := seq + 1 })
  if (uw ws 1 0).bits 15 0 = 0 && s.orderOk src ws seq then s.endItem seq ⟨St.ok, 0, 0⟩
  else s.spillOne.prepare seq

/-- A control packet enters the management core's queue, or ends with ST_BUSY_RETRY at once (R148). -/
def State.acceptControl (s : State) (src : PktSrc) (cq : Option Nat) (index tenant : Nat) (ws : List Word) : State :=
  if s.mqTakes tenant then
    let p : MqPkt :=
      { seq := s.conc.nextSeq, tenant := tenant, src := src, cq := cq, index := index, words := ws,
        due := s.hall.landing + (uw ws 1 0).bits 31 24 }
    s.modConc (fun c => Conc.noteMq { c with mq := c.mq ++ [p], nextSeq := c.nextSeq + 1 })
  else (s.bump Reg.CONC_BUSY_CNT 1).packetRec src cq ws index St.busyRetry s.retryAfter 0 false

/-- The concourse has read a packet: it is checked, and rejected or accepted (R121, R122). -/
def State.takePkt (s : State) (src : PktSrc) (cq : Option Nat) (index tenant : Nat) (ws : List Word) : State :=
  match s.checkPkt tenant ws with
  | some e => (s.bump Reg.CONC_REJECT_CNT 1).packetRec src cq ws index e.status e.detail e.aux false
  | none =>
    if isControl ((uw ws 1 0).bits 15 0) then s.acceptControl src cq index tenant ws
    else s.acceptItem src cq index tenant ws

/-! ### Reading rings -/

/-- A command ring. -/
def State.ring (s : State) (n : Nat) : Option CmdRing := mapGet s.conc.cmd n

/-- Difference of two free-running counts. -/
def sub32 (a b : Nat) : Nat := (a + 2 ^ 32 - b % 2 ^ 32) % 2 ^ 32

/-- The concourse reads a ring: EN, not stopped, ACTIVE, its tenant not suspended, and reachable in this host state
(CONC_CTL, R113, R138, R140, R499, R502). -/
def State.mayRead (s : State) (n : Nat) (r : CmdRing) : Bool :=
  let c := s.reg Reg.CONC_CTL
  !s.inReset && c.bit 0 && (!c.bit 1 || n == 0) && !r.halted && !r.destroying && r.wait == .no
    && !(s.tenant r.tenant).suspended
    && (match s.xlt.host with
      | .attached => true
      | .detached => r.engine
      | .attaching => r.engine || n == 0)

/-- A read of a ring is under way. -/
def State.ringBusy (s : State) (n : Nat) : Bool :=
  s.xlt.accs.any (fun a => match a.purpose with
    | .tail m => m == n
    | .packets m _ => m == n
    | _ => false)

/-- No context is free for a tenant (R123, R223). -/
def State.ctxFull (s : State) (tenant : Nat) : Bool :=
  decide (s.conc.items.length ≥ 1048576)
    || decide ((s.conc.items.filter (fun i => i.tenant == tenant)).length ≥ (s.tenant tenant).ctxQuota)

/-- Write HEAD_WB, if it has moved (R108). -/
def State.writeWb (s : State) (n : Nat) : State :=
  match s.ring n with
  | none => s
  | some r =>
    if r.head = r.wbHead then s
    else
      let s := s.modCmd n (fun r => { r with wbHead := r.head, wbLanding := some s.hall.landing })
      let bs := leBytes 4 r.head
      if r.engine then s.engWrite (r.rcb + 8) bs
      else (s.hostAcc reqConc r.tenant (r.rcb + 8) 4 (some bs) (.wbHead n) false).1

/-- The concourse has read what it could: HEAD_WB at most once per landing (R108). -/
def State.readEnds (s : State) (n : Nat) : State :=
  let s := s.modCmd n (fun r => { r with buf := [] })
  match s.ring n with
  | some r => if r.wbLanding = some s.hall.landing then s else s.writeWb n
  | none => s

/-- It stops reading the ring: HEAD_WB always. -/
def State.readStops (s : State) (n : Nat) : State := (s.modCmd n (fun r => { r with buf := [] })).writeWb n

/-- A ring halts (R113): its one record, which takes any free slot, and an error record. -/
def State.haltRing (s : State) (n tail opcode tag : Nat) : State :=
  match s.ring n with
  | none => s
  | some r =>
    let s := (s.modCmd n (fun r => { r with halted := true })).readStops n
    let s := match mapGet s.conc.cpl r.cq with
      | some q => if q.free ≥ 1 then s.putRec r.cq (recWords s St.ringHalted opcode tag n r.head tail 0) false false false else s
      | none => s
    s.raise { code := 0x01, tenant := r.tenant, d0 := n, d1 := tail }

/-- HEAD of a completion ring has been read: a moved head ends an advisory's silence, and rings that wait for slots go
on once two are free (R126, R127). -/
def State.gotHead (s : State) (q h : Nat) : State :=
  let s := s.modCpl q (fun r => { r with advised := r.advised && r.head == h, head := h })
  match mapGet s.conc.cpl q with
  | none => s
  | some r =>
    if r.free < 2 then s
    else s.modConc (fun c => { c with cmd := c.cmd.map (fun (n, x) => match x.wait with
      | .cq _ => if x.cq = q then (n, { x with wait := .no, again := true }) else (n, x)
      | _ => (n, x)) })

/-- Read HEAD of a completion ring, at most once per landing (R126). -/
def State.readHead (s : State) (q : Nat) : State :=
  match mapGet s.conc.cpl q with
  | none => s
  | some r =>
    if r.headRead = some s.hall.landing then s
    else
      let s := s.modCpl q (fun r => { r with headRead := some s.hall.landing })
      if r.engine then
        let (s, rd) := s.engRead r.rcb 4 .good
        if rd.bad.isSome then s else s.gotHead q (ofLe (rd.data.take 4))
      else (s.hostAcc reqConc r.tenant r.rcb 4 none (.cqHead q) false).1

/-- Every ring bound to a completion ring waits for its slots (R126). -/
def State.waitCq (s : State) (q : Nat) : State :=
  let ns := (s.conc.cmd.filter (fun (_, r) => r.cq == q && r.wait == .no && !r.halted && !r.destroying)).map (·.1)
  let s := ns.foldl (fun (s : State) n => (s.modCmd n (fun r => { r with wait := .cq s.hall.landing })).readStops n) s
  s.readHead q

/-- Read on from where the bytes in hand end, up to the ring's end or TAIL. -/
def State.readMore (s : State) (n : Nat) (r : CmdRing) : State :=
  let got := r.buf.length / 32
  let at_ := (r.head + got) % 2 ^ r.log2
  let units := min (sub32 r.tail r.head - got) (2 ^ r.log2 - at_)
  (s.hostAcc reqConc r.tenant (r.base + 32 * at_) (32 * units) none (.packets n (r.head + got + units)) false).1

/-- Take whole packets from the bytes in hand, in ring order (R109, R112, R118, R126). -/
def takeUnits (s : State) (n fuel : Nat) : State :=
  match fuel with
  | 0 => s.readEnds n
  | k + 1 =>
    match s.ring n with
    | none => s
    | some r =>
      let left := sub32 r.tail r.head
      if !s.mayRead n r then s.readStops n
      else if left = 0 then s.readEnds n
      else if r.buf.length < 32 then s.readMore n r
      else
        let ws := bytesWords r.buf 8
        let w0 := ws.getD 0 0
        let len := w0.bits 19 16
        if len = 0 ∨ len > 8 then s.haltRing n r.tail (w0.bits 15 0) (ws.getD 3 0).toNat
        else if len > left then s.readEnds n
        else if r.buf.length < 32 * len then s.readMore n r
        else if s.ctxFull r.tenant then (s.modCmd n (fun r => { r with wait := .ctx })).readStops n
        else if ((mapGet s.conc.cpl r.cq).elim 0 CplRing.free) < 2 then s.waitCq r.cq
        else
          let s := s.modCpl r.cq (fun q => { q with reserved := q.reserved + 1 })
          let s := s.modCmd n (fun r => { r with head := (r.head + len) % 2 ^ 32, buf := r.buf.drop (32 * len) })
          takeUnits (s.takePkt (.ring n) (some r.cq) r.head r.tenant (bytesWords r.buf (8 * len))) n k

/-- TAIL has been read (R113, R115): the ring halts when it lies too far ahead, else its packets are read. -/
def State.gotTail (s : State) (n tail : Nat) : State :=
  match s.ring n with
  | none => s
  | some r =>
    let left := sub32 tail r.head
    if !s.mayRead n r then s
    else if left > 2 ^ r.log2 then s.haltRing n tail 0 0
    else
      let s := s.modCmd n (fun r => { r with tail := tail, buf := [] })
      if left = 0 then s.readEnds n
      else if r.engine then
        let first := min left (2 ^ r.log2 - r.head % 2 ^ r.log2)
        let (s, a) := s.engRead (r.base + 32 * (r.head % 2 ^ r.log2)) (32 * first) .good
        let (s, b) := s.engRead r.base (32 * (left - first)) .good
        if a.bad.isSome || b.bad.isSome then s
        else takeUnits (s.modCmd n (fun r => { r with buf := a.data ++ b.data })) n left
      else takeUnits s n 1

/-- Start a read of a ring: its TAIL first (R110, R115). -/
def State.readRing (s : State) (n : Nat) : State :=
  match s.ring n with
  | none => s
  | some r =>
    let s := s.modCmd n (fun r => { r with again := false })
    if r.engine then
      let (s, rd) := s.engRead r.rcb 4 .good
      if rd.bad.isSome then s else s.gotTail n (ofLe (rd.data.take 4))
    else (s.hostAcc reqConc r.tenant r.rcb 4 none (.tail n) false).1

/-- Read every ring that a doorbell, a poll or a freed slot has asked for. -/
def ringRun (s : State) (fuel : Nat) : State :=
  match fuel with
  | 0 => s
  | k + 1 =>
    match s.conc.cmd.find? (fun (n, r) => r.again && s.mayRead n r && !s.ringBusy n) with
    | some (n, _) => ringRun (s.readRing n) k
    | none => s

/-- Ask for a ring to be read (R110); one that is not ACTIVE is left alone. -/
def State.kick (s : State) (n : Nat) : State :=
  match s.ring n with
  | some r => if s.mayRead n r then s.modCmd n (fun r => { r with again := true }) else s
  | none => s

/-- Ask for every ring that is read: reading resumes. -/
def State.kickAll (s : State) : State := s.conc.cmd.foldl (fun (s : State) x => s.kick x.1) s

/-- Rings that waited for a context go on once their tenants have one (R123, R223). -/
def State.wakeCtx (s : State) : State :=
  s.modConc (fun c => { c with cmd := c.cmd.map (fun (n, r) =>
    if r.wait = .ctx && !s.ctxFull r.tenant then (n, { r with wait := .no, again := true }) else (n, r)) })

/-- The host write of a record of a ring's packets (word 2 [12:0] of the record is its RING, R124). -/
def HAcc.recordOf (a : HAcc) (n : Nat) : Bool :=
  match a.purpose with
  | .record _ _ _ => ofLe (((a.write.getD []).drop 8).take 4) % 2 ^ 13 == n
  | _ => false

/-- Accepted packets of a ring other than one that are not over, their records included (R138). -/
def State.ringHolds (s : State) (n except : Nat) : Bool :=
  let mine := fun (p : MqPkt) => p.src == .ring n && p.seq != except
  s.xlt.accs.any (fun a => a.recordOf n) ||
  s.conc.items.any (fun i => i.src == .ring n) || s.conc.mq.any mine || s.conc.ops.any (fun o => mine o.pkt)
    || s.conc.sched.any (fun x => x.pkt.any mine) || s.kite.migSrc.any (fun m => m.pkt.any mine)
    || s.selftest.any (fun t => mine t.pkt)

/-- Destroys of command rings complete once their packets are over (R138); a ring whose destroy a restart of the
management core has ended goes then too. -/
def State.destroyDone (s : State) : State :=
  let owned := fun (n : Nat) => s.conc.ops.any (fun o => o.kind == .ringDestroy n)
  let s := s.modConc (fun c => { c with cmd := c.cmd.filter (fun x =>
    !(x.2.destroying && !owned x.1 && !s.ringHolds x.1 (2 ^ 64))) })
  s.conc.ops.foldl (fun (s : State) o => match o.kind with
    | .ringDestroy n =>
      if s.ringHolds n o.pkt.seq then s
      else
        let s := s.modConc (fun c => { c with ops := c.ops.filter (fun x => x.pkt.seq != o.pkt.seq) })
        let s := s.endMq o.pkt St.ok 0 0
        s.modConc (fun c => { c with cmd := mapDel c.cmd n })
    | _ => s) s

/-- NOPs that waited for ORDER complete (R118). -/
def State.nopsDone (s : State) : State :=
  s.conc.items.foldl (fun (s : State) i =>
    if i.op = 0 && !i.spilled && s.orderOk i.src i.words i.seq then s.endItem i.seq ⟨St.ok, 0, 0⟩ else s) s

/-- Everything that waited goes on as far as it can: columns, slots and channels, then NOPs, destroys, contexts and
rings. -/
def State.wake (s : State) : State :=
  let s := s.pump.nopsDone.destroyDone.wakeCtx
  ringRun s (2 * (s.conc.cmd.length + s.conc.cpl.length) + 2)

/-! ### Packets as rows -/

/-- A packet's words with an opcode, as long as its LEN says. -/
def pktWords (op : Nat) (pkt : List Word) : List Word :=
  let w0 := pkt.getD 0 0
  let w := Word.ofNat (op + w0.toNat / 65536 * 65536)
  let n := max 1 (min 8 (w0.bits 19 16))
  ((w :: pkt.drop 1) ++ List.replicate (8 * n) 0).take (8 * n)

/-- The next packet of a ring is this one (R112, R121). A ring that is not read, or is being read, takes nothing. -/
def State.ringArrive (s : State) (n : Nat) (ws : List Word) : State :=
  match s.ring n with
  | none => s
  | some r =>
    if !s.mayRead n r || s.ringBusy n then s
    else takeUnits (s.modCmd n (fun r => { r with
      tail := (r.head + lenOf ws) % 2 ^ 32, buf := wordsBytes ws })) n 1

/-- A packet from the lane (R133): taken as tenant 0's; with no ring to halt, an invalid LEN ends it. -/
def State.laneArrive (s : State) (seq : Nat) (ws : List Word) : State :=
  let len := (uw ws 1 0).bits 19 16
  if s.inReset then s
  else if len = 0 ∨ len > 8 then s.packetRec (.lane seq) none ws 0 St.badLength (1 + 8 * 256) 0 false
  else s.takePkt (.lane seq) none 0 0 ws

/-- A datapath packet of an opcode reaches the concourse. -/
def State.arrivePkt (s : State) (op : Nat) (src : PktSrc) (pkt : List Word) : State :=
  let ws := pktWords op pkt
  (match src with
    | .ring n => s.ringArrive n ws
    | .lane q => s.laneArrive q ws).wake

/-- NOP (R132): pads rings and carries ORDER. -/
def execNop (src : PktSrc) (pkt : List Word) (s : State) : Host.Outcome State Fault Refusal := ran s (s.arrivePkt 0x0000 src pkt)

/-- BAG (R211 to R218). -/
def execBag (src : PktSrc) (pkt : List Word) (s : State) : Host.Outcome State Fault Refusal := ran s (s.arrivePkt 0x0001 src pkt)

/-- BAG_INTERACT (R385). -/
def execBagInteract (src : PktSrc) (pkt : List Word) (s : State) : Host.Outcome State Fault Refusal :=
  ran s (s.arrivePkt 0x0002 src pkt)

/-- ARRAY_OP (R374). -/
def execArrayOp (src : PktSrc) (pkt : List Word) (s : State) : Host.Outcome State Fault Refusal :=
  ran s (s.arrivePkt 0x0010 src pkt)

/-- TILE_READ (R383). -/
def execTileRead (src : PktSrc) (pkt : List Word) (s : State) : Host.Outcome State Fault Refusal :=
  ran s (s.arrivePkt 0x0011 src pkt)

/-- TILE_WRITE (R383). -/
def execTileWrite (src : PktSrc) (pkt : List Word) (s : State) : Host.Outcome State Fault Refusal :=
  ran s (s.arrivePkt 0x0012 src pkt)

/-- VEC_CHAIN (R396). -/
def execVecChain (src : PktSrc) (pkt : List Word) (s : State) : Host.Outcome State Fault Refusal :=
  ran s (s.arrivePkt 0x0018 src pkt)

/-- UPDATE_BATCH (R307). -/
def execUpdateBatch (src : PktSrc) (pkt : List Word) (s : State) : Host.Outcome State Fault Refusal :=
  ran s (s.arrivePkt 0x0020 src pkt)

/-- SPLIT_REDUCE (R345). -/
def execSplitReduce (src : PktSrc) (pkt : List Word) (s : State) : Host.Outcome State Fault Refusal :=
  ran s (s.arrivePkt 0x0022 src pkt)

/-- COPY (R508). -/
def execCopy (src : PktSrc) (pkt : List Word) (s : State) : Host.Outcome State Fault Refusal := ran s (s.arrivePkt 0x0030 src pkt)

/-- RECHECK (R605). -/
def execRecheck (src : PktSrc) (pkt : List Word) (s : State) : Host.Outcome State Fault Refusal :=
  ran s (s.arrivePkt 0x0040 src pkt)

/-- INLINE_WRITE (R476). -/
def execInlineWrite (src : PktSrc) (pkt : List Word) (s : State) : Host.Outcome State Fault Refusal :=
  ran s (s.arrivePkt 0x0060 src pkt)

/-- PACKET (R133): a lane message delivers a packet of any opcode. -/
def execPacket (seq : Nat) (pkt : List Word) (s : State) : Host.Outcome State Fault Refusal :=
  ran s (s.laneArrive seq (pktWords ((pkt.getD 0 0).bits 15 0) pkt)).wake

/-! ### Doorbells, enabling and advisories -/

/-- CONC_DB (R110): the named ring's TAIL is read, and its complete packets. -/
def State.concDb (s : State) (w : Word) : State := if s.inReset then s else (s.kick (w.bits 12 0)).wake

/-- CONC_DB. -/
def execConcDb (w : Word) (s : State) : Host.Outcome State Fault Refusal := ran s (s.concDb w)

/-- A fresh ring pair 0 from the CONC_A* registers (R154); LOG2SIZE outside 6 to 16 starts nothing. -/
def State.startAdmin (s : State) : State :=
  let a := s.rbits Reg.CONC_ASQ_CFG 4 0
  let c := s.rbits Reg.CONC_ACQ_CFG 4 0
  let rcb := s.reg64 Reg.CONC_ARCB_LO
  if a < 6 ∨ a > 16 ∨ c < 6 ∨ c > 16 then s
  else
    let cmd : CmdRing := ⟨0, false, false, a, 0, s.reg64 Reg.CONC_ASQ_BASE_LO, rcb, 0, 0, false, false, .no, 0, none, [], false⟩
    let cpl : CplRing := ⟨0, false, c, s.rbits Reg.CONC_ACQ_CFG 26 16, 0, s.reg64 Reg.CONC_ACQ_BASE_LO, rcb + 64, 0, 0, 0, 0, false, none⟩
    s.modConc (fun x => { x with cmd := mapSet x.cmd 0 cmd, cpl := mapSet x.cpl 0 cpl })

/-- CONC_CTL is written with EN set (R154): from EN = 0 it starts the administrative rings afresh. -/
def State.concEnable (s : State) (w : Word) : State :=
  if s.inReset then s
  else
    let was := (s.reg Reg.CONC_CTL).bit 0
    let s' := s.setReg Reg.CONC_CTL (Word.ofNat (1 + 2 * w.bits 1 1))
    (if was then s' else s'.startAdmin).kickAll.wake

/-- CONC_ENABLE: a write of CONC_CTL with EN set. -/
def execConcEnable (w : Word) (s : State) : Host.Outcome State Fault Refusal := ran s (s.concEnable w)

/-- RING_FULL_ADVISORY (R127): a ring that has waited 16 landings for slots gets one advisory record into a free slot. -/
def execRingFullAdvisory (ring : Nat) (s : State) : Host.Outcome State Fault Refusal :=
  match s.ring ring with
  | none => ran s s
  | some r =>
    match r.wait, mapGet s.conc.cpl r.cq with
    | .cq since, some q =>
      if s.hall.landing < since + 16 || q.advised || q.free < 1 then ran s s
      else
        let ws := recWords s St.ringFull 0 0 ring r.head (s.hall.landing - since) 0
        ran s ((s.modCpl r.cq (fun q => { q with advised := true })).putRec r.cq ws false true false)
    | _, _ => ran s s

/-! ### Admission and promotion as rows -/

/-- CHUNK_ADMIT (R82 to R88). While the core is in reset nothing is admitted. -/
def execChunkAdmit (item gal : Nat) (s : State) : Host.Outcome State Fault Refusal :=
  ran s (if s.inReset then s else (s.chunkAdmit item gal).wake)

/-- PROMOTE_BY_AGE (R95). -/
def execPromoteByAge (item : Nat) (s : State) : Host.Outcome State Fault Refusal := ran s (s.promoteAge item)

/-- PROMOTE_BY_MARGIN (R96). -/
def execPromoteByMargin (item : Nat) (s : State) : Host.Outcome State Fault Refusal := ran s (s.promoteMargin item)

end Sys2Proof.Machine
end

