-- ==== Sys2Proof/Machine/MgmtConc.lean ====
section
/-! DEFINITION. How the management core executes a control packet (R132, R135, R149, R152), and the control opcodes for
tenants, PASIDs and rings (R137 to R143, R635, R636), STATUS_GET and TELEMETRY_CFG. -/
namespace Sys2Proof.Machine

open Sys2Proof.Config

/-! ### The management core -/

/-- Firmware runs (HR_BOOT_STAT.STATE RUNNING) and the core is out of reset. -/
def State.fwRuns (s : State) : Bool := s.boot.state == 3 && !s.inReset

/-- The packet the core takes next: the oldest in the queue that ORDER lets go on (R118). -/
def State.nextControl (s : State) : Option MqPkt := s.conc.mq.find? (fun p => s.orderOk p.src p.words p.seq)

/-- A packet's opcode. -/
def MqPkt.op (p : MqPkt) : Nat := (uw p.words 1 0).bits 15 0
/-- A packet's OPARG. -/
def MqPkt.arg (p : MqPkt) : Nat := (uw p.words 1 2).bits 31 16
/-- A packet's TABLE. -/
def MqPkt.table (p : MqPkt) : Nat := (uw p.words 1 2).bits 15 0
/-- A packet's AT_LANDING (R120). -/
def MqPkt.at_ (p : MqPkt) : Nat := uw64 p.words 1 4

/-- Take a packet out of the queue, its service time among the last 64. -/
def State.mqTake (s : State) (p : MqPkt) (svcNs : Nat) : State :=
  s.modConc (fun c =>
    let l := c.mqSvc ++ [svcNs]
    Conc.noteMq { c with mq := c.mq.filter (fun q => q.seq != p.seq), mqSvc := l.drop (l.length - 64) })

/-- The core executes the queue's next packet when it has this opcode: nothing else happens otherwise. -/
def State.mgRun (s : State) (op svcNs : Nat) (f : State → MqPkt → State) : State :=
  if !s.fwRuns then s
  else
    match s.nextControl with
    | some p => if p.op = op then (f (s.mqTake p svcNs) p).wake else s
    | none => s

/-- A packet ends ST_OK with a DETAIL. -/
def State.mgOk (s : State) (p : MqPkt) (detail : Nat) : State := s.endMq p St.ok detail 0

/-- A packet ends with an ending. -/
def State.mgEnd (s : State) (p : MqPkt) (e : Ending) : State := s.endMq p e.status e.detail e.aux

/-- ST_BAD_STATE of something that has no state code: DETAIL is a free value (log 5). -/
def State.mgBadState (s : State) (p : MqPkt) : State :=
  (s.endMq p St.badState (freeNat s.freeSeq % 2 ^ 64) 0).draw

/-- Put a packet aside whose execution goes on. -/
def State.putOp (s : State) (p : MqPkt) (k : MgmtKind) : State := s.modConc (fun c => { c with ops := c.ops ++ [⟨p, k⟩] })

/-- A packet put aside is over. -/
def State.dropOp (s : State) (seq : Nat) : State := s.modConc (fun c => { c with ops := c.ops.filter (fun o => o.pkt.seq != seq) })

/-! ### STATUS_GET and TELEMETRY_CFG -/

/-- STATUS_GET: ST_OK; the spec does not say what its DETAIL holds (log 5). -/
def execStatusGet (svcNs : Nat) (s : State) : Host.Outcome State Fault Refusal :=
  ran s (s.mgRun 0x8000 svcNs (fun s p => (s.mgOk p (freeNat s.freeSeq % 2 ^ 64)).draw))

/-- TELEMETRY_CFG: the period is taken from OPARG (log 7). -/
def execTelemetryCfg (svcNs : Nat) (s : State) : Host.Outcome State Fault Refusal :=
  ran s (s.mgRun 0x8031 svcNs (fun s p => (s.modConc (fun c => { c with telePeriod := Word.ofNat p.arg })).mgOk p 0))

/-! ### Tenants (R140 to R143) -/

/-- An entry's fields that change at once, the deferred ones kept (R140). -/
def TenEntry.merge (old new : TenEntry) : TenEntry where
  w0 := Word.ofNat (new.w0.bits 23 0 + old.w0.bits 31 24 * 2 ^ 24)
  w1 := Word.ofNat (new.w1.bits 19 0 + old.w1.bits 31 20 * 2 ^ 20)
  w2 := Word.ofNat (old.w2.bits 20 0 + new.w2.bits 31 21 * 2 ^ 21)
  w3 := Word.ofNat (old.w3.bits 15 0 + new.w3.bits 31 16 * 2 ^ 16)

/-- The PASID an entry binds. -/
def TenEntry.bound (e : TenEntry) : Option Nat := if e.pasidValid then some e.pasid else none

/-- The entry of a tenant as the TEN window shows it, if it is in use. -/
def State.tenOf (s : State) (t : Nat) : Option TenEntry := (mapGet s.conc.ten t).filter (·.valid)

/-- Rings of both kinds that a tenant holds. -/
def State.ringsOf (s : State) (t : Nat) : Nat :=
  (s.conc.cmd.filter (fun (_, r) => r.tenant == t)).length + (s.conc.cpl.filter (fun (_, r) => r.tenant == t)).length

/-- Contexts that a tenant holds. -/
def State.ctxOf (s : State) (t : Nat) : Nat := (s.conc.items.filter (fun i => i.tenant == t)).length

/-- Store an entry: the window shows it, and what is deferred waits for the next landing. -/
def State.setTen (s : State) (t : Nat) (e : TenEntry) (atOnce : Bool) : State :=
  s.modConc (fun c => { c with
    ten := mapSet c.ten t e
    tenEff := mapSet c.tenEff t (if atOnce then e else ((mapGet c.tenEff t).getD e).merge e) })

/-- TENANT_SET's checks of its payload. -/
def tenSetBad (t : Nat) (ws : List Word) : Option Ending :=
  let e : TenEntry := ⟨uw ws 2 0, uw ws 2 1, uw ws 2 2, uw ws 2 3⟩
  firstBad [
    rsvBad ws 8 23 23, rsvBad ws 10 31 24, rsvBad ws 11 15 14, rsvBad ws 11 31 31, nzBad (wordsBytes ws) 48 64,
    chk (e.share == 0) (badAt 35), chk (decide (e.rcWays > 8)) (badAt 39), chk (decide (e.ctxQuota > 1048576)) (badAt 40),
    chk (decide (e.msixLog > 11)) (badAt 47), chk (t == 0 && e.suspended) (badAt 34),
    chk (decide (e.msixBase + 2 ^ e.msixLog > 2048)) ⟨St.noResource, 8, 0⟩]

/-- TENANT_SET (R140). -/
def State.mgTenantSet (s : State) (p : MqPkt) : State :=
  let t := p.arg % 4096
  let ws := p.words
  match tenSetBad t ws with
  | some e => s.mgEnd p e
  | none =>
    let e : TenEntry := ⟨uw ws 2 0 ||| 0x00100000, uw ws 2 1, uw ws 2 2, uw ws 2 3⟩
    match s.tenOf t with
    | none => (s.setTen t e true).mgOk p 0
    | some o =>
      if (e.hallId ≠ o.hallId || e.bound != o.bound) && s.ringsOf t != 0 then s.mgBadState p
      else
        let s := match o.bound with
          | some pasid => if e.bound = some pasid then s else s.dropPasid pasid
          | none => s
        let s := s.setTen t e false
        let s := if o.suspended && !e.suspended then s.kickAll else s
        s.mgOk p 0

/-- TENANT_SET. -/
def execTenantSet (svcNs : Nat) (s : State) : Host.Outcome State Fault Refusal :=
  ran s (s.mgRun 0x8001 svcNs State.mgTenantSet)

/-- TENANT_DESTROY (R141, R364, R486). Tenant 0 is never destroyed. -/
def State.mgTenantDestroy (s : State) (p : MqPkt) : State :=
  let t := p.arg % 4096
  match s.tenOf t with
  | none => s.mgBadState p
  | some e =>
    if t = 0 || s.ringsOf t != 0 || s.ctxOf t != 0 || s.dir.tables.any (fun (_, x) => x.owner == e.hallId) then s.mgBadState p
    else
      let s := match e.bound with
        | some pasid => s.dropPasid pasid
        | none => s
      let s := { s with tiles := s.tiles.filter (fun (k, _) => k / 16 != t) }
      (s.modConc (fun c => { c with ten := mapDel c.ten t, tenEff := mapDel c.tenEff t })).mgOk p 0

/-- TENANT_DESTROY. -/
def execTenantDestroy (svcNs : Nat) (s : State) : Host.Outcome State Fault Refusal :=
  ran s (s.mgRun 0x8002 svcNs State.mgTenantDestroy)

/-- An entry with a PASID, or without one. -/
def TenEntry.withPasid (e : TenEntry) (pasid : Option Nat) : TenEntry :=
  { e with
    w0 := Word.ofNat (e.w0.bits 20 0 + b2n pasid.isSome * 2 ^ 21 + e.w0.bits 31 22 * 2 ^ 22)
    w1 := Word.ofNat (pasid.getD 0 + e.w1.bits 31 20 * 2 ^ 20) }

/-- PASID_BIND (R142). -/
def State.mgPasidBind (s : State) (p : MqPkt) : State :=
  let t := p.arg % 4096
  let ws := p.words
  let pasid := (uw ws 2 0).bits 19 0
  match firstBad [rsvBad ws 8 31 20, nzBad (wordsBytes ws) 36 64] with
  | some e => s.mgEnd p e
  | none =>
    if s.conc.ten.any (fun (n, e) => n != t && e.valid && e.bound == some pasid) then s.mgEnd p (badAt 32)
    else
      match s.tenOf t with
      | none => s.mgBadState p
      | some e => if e.pasidValid then s.mgBadState p else (s.setTen t (e.withPasid (some pasid)) false).mgOk p 0

/-- PASID_BIND. -/
def execPasidBind (svcNs : Nat) (s : State) : Host.Outcome State Fault Refusal :=
  ran s (s.mgRun 0x8004 svcNs State.mgPasidBind)

/-- PASID_UNBIND (R142, R486): refused while the tenant holds a host-memory ring or a context, or has no PASID. -/
def State.mgPasidUnbind (s : State) (p : MqPkt) : State :=
  let t := p.arg % 4096
  match s.tenOf t with
  | none => s.mgBadState p
  | some e =>
    let hostRing := s.conc.cmd.any (fun (_, r) => r.tenant == t && !r.engine) || s.conc.cpl.any (fun (_, r) => r.tenant == t && !r.engine)
    if !e.pasidValid || hostRing || s.ctxOf t != 0 then s.mgBadState p
    else ((s.dropPasid e.pasid).setTen t (e.withPasid none) false).mgOk p 0

/-- PASID_UNBIND. -/
def execPasidUnbind (svcNs : Nat) (s : State) : Host.Outcome State Fault Refusal :=
  ran s (s.mgRun 0x8005 svcNs State.mgPasidUnbind)

/-! ### Rings (R137 to R139) -/

/-- State code of a command ring (CONC_RING_STATE). -/
def CmdRing.code (r : CmdRing) : Nat :=
  if r.destroying then 5 else if r.halted then 4
  else match r.wait with
    | .no => 1
    | .cq _ => 2
    | .ctx => 3

/-- State code of a command ring by number; 0 FREE. -/
def State.ringCode (s : State) (n : Nat) : Nat := (s.ring n).elim 0 CmdRing.code

/-- The lowest ring number from 1 that is free in a list of numbers in use. -/
def freeRing (used : List Nat) : Option Nat := (upto 1 8191).find? (fun n => !used.contains n)

/-- RING_CREATE (R137, R636). -/
def State.mgRingCreate (s : State) (p : MqPkt) : State :=
  let ws := p.words
  let w0 := uw ws 2 0
  let w1 := uw ws 2 1
  let cpl := w0.bit 0
  let poll := w0.bit 2
  let lg := w0.bits 7 3
  let t := w0.bits 19 8
  let cq := w1.bits 12 0
  let vec := w1.bits 23 13
  let base := uw64 ws 2 2
  let rcb := uw64 ws 2 4
  let num := freeRing (if cpl then s.conc.cpl.map (·.1) else s.conc.cmd.map (·.1))
  let e := s.tenant t
  let bad := firstBad [
    rsvBad ws 8 31 20, nzBad (wordsBytes ws) 56 64, chk (decide (lg < 6) || decide (lg > 16)) (badAt 32),
    chk (!e.valid) (badAt 33), chk (cpl && poll) (badAt 32), chk (cpl && cq != 0) (badAt 36),
    chk (!cpl && w1.bits 31 13 != 0) (badAt 37),
    chk num.isNone ⟨St.noResource, 1, 0⟩, chk (decide (s.ringsOf t ≥ e.ringQuota)) ⟨St.noResource, 2, 0⟩,
    chk (poll && decide ((s.conc.cmd.filter (fun (_, r) => r.poll)).length ≥ 256)) ⟨St.noResource, 3, 0⟩,
    chk (cpl && decide (vec ≥ 2 ^ e.msixLog)) (badAt 37),
    chk (!cpl && !((mapGet s.conc.cpl cq).any (fun q => q.tenant == t))) (badAt 36),
    chk (misaligned base (max 4096 (32 * 2 ^ lg))) (badAt 40), chk (misaligned rcb 64) (badAt 48)]
  match bad with
  | some e => s.mgEnd p e
  | none =>
    let n := num.getD 0
    let s := s.modConc (fun c =>
      if cpl then { c with cpl := mapSet c.cpl n ⟨t, w0.bit 1, lg, vec, w1.bits 31 24, base, rcb, 0, 0, 0, 0, false, none⟩ }
      else { c with cmd := mapSet c.cmd n ⟨t, w0.bit 1, poll, lg, cq, base, rcb, 0, 0, false, false, .no, 0, none, [], false⟩ })
    s.mgOk p n

/-- RING_CREATE. -/
def execRingCreate (svcNs : Nat) (s : State) : Host.Outcome State Fault Refusal :=
  ran s (s.mgRun 0x8010 svcNs State.mgRingCreate)

/-- Accepted packets of a ring that are not yet admitted end with ST_CANCELLED (R138). -/
def State.cancelRing (s : State) (n except : Nat) : State :=
  let s := (s.conc.mq.filter (fun q => q.src == .ring n && q.seq != except)).foldl (fun (s : State) q =>
    (s.modConc (fun c => Conc.noteMq { c with mq := c.mq.filter (fun x => x.seq != q.seq) })).endMq q St.cancelled 0 0) s
  (s.conc.items.filter (fun i => i.src == .ring n && !i.admitted)).foldl (fun (s : State) i =>
    (s.letGo i.seq).endItem i.seq ⟨St.cancelled, 0, 0⟩) s

/-- RING_DESTROY (R138). A command ring is read no more at once; the record follows the last of its packets. -/
def State.mgRingDestroy (s : State) (p : MqPkt) : State :=
  let n := p.arg % 8192
  if p.arg / 8192 % 2 = 1 then
    match mapGet s.conc.cpl n with
    | none => s.endMq p St.badState 0 0
    | some _ =>
      if s.conc.cmd.any (fun (_, r) => r.cq == n) then s.endMq p St.badState 1 0
      else (s.modConc (fun c => { c with cpl := mapDel c.cpl n })).mgOk p 0
  else
    match s.ring n with
    | none => s.endMq p St.badState 0 0
    | some r =>
      if r.destroying then s.endMq p St.badState 5 0
      else
        let s := (s.modCmd n (fun r => { r with destroying := true })).readStops n
        let s := if p.arg / 16384 % 2 = 1 then s.cancelRing n p.seq else s
        s.putOp p (.ringDestroy n)

/-- RING_DESTROY. -/
def execRingDestroy (svcNs : Nat) (s : State) : Host.Outcome State Fault Refusal :=
  ran s (s.mgRun 0x8011 svcNs State.mgRingDestroy)

/-- A halted ring restarts at the TAIL in its RCB (R139). -/
def State.ringRestart (s : State) (n tail : Nat) : State :=
  ((s.modCmd n (fun r => { r with halted := false, wait := .no, head := tail, tail := tail, buf := [] })).writeWb n).kick n

/-- RING_RESET (R139). -/
def State.mgRingReset (s : State) (p : MqPkt) : State :=
  let n := p.arg % 8192
  match s.ring n with
  | none => s.endMq p St.badState 0 0
  | some r =>
    if !r.halted || r.destroying then s.endMq p St.badState r.code 0
    else if r.engine then
      let (s, rd) := s.engRead r.rcb 4 .good
      if rd.bad.isSome then s.endMq p St.badState 4 0
      else (s.ringRestart n (ofLe (rd.data.take 4))).mgOk p 0
    else ((s.putOp p (.ringReset n)).hostAcc reqConc r.tenant r.rcb 4 none (.tail n) false).1

/-- RING_RESET. -/
def execRingReset (svcNs : Nat) (s : State) : Host.Outcome State Fault Refusal :=
  ran s (s.mgRun 0x8012 svcNs State.mgRingReset)

/-- TAIL has come for a ring that waits for a reset, or has not: the ring then stays halted (R139). -/
def State.resetTail (s : State) (n : Nat) (tail : Option Nat) : State :=
  match s.conc.ops.find? (fun o => o.kind == .ringReset n) with
  | none => s
  | some o =>
    let s := s.dropOp o.pkt.seq
    match tail with
    | some t => (s.ringRestart n t).mgOk o.pkt 0
    | none => s.endMq o.pkt St.badState 4 0

end Sys2Proof.Machine
end

