-- ==== Sys2Proof/Machine/MgmtTable.lean ====
section
/-! DEFINITION. The control opcodes for tables: TABLE_DEFINE, TABLE_STATE, VERSION_SWITCH, SHARD_MAP_WRITE, EPOCH_BUMP,
MIGRATE, TABLE_GRANT and COUNTERS_READ, and the copy of the directory and the shard maps in stairwell memory (R155 to
R192, R202, R206 to R208, R294), with the schedule table (R57, R134). -/
namespace Sys2Proof.Machine

open Sys2Proof.Config

/-! ### The directory in memory (R157, R159, R187) -/

/-- The sixteen words of an entry as they stand. -/
def Table.live (t : Table) (id : Nat) : List Word :=
  let set := fun (i n : Nat) => t.word i ||| Word.ofNat n
  [set 0 (id + t.st.code * 2 ^ 16), t.word 1, t.word 2, t.word 3,
   set 4 (t.epoch * 2 ^ 8 + b2n t.bumpPend * 2 ^ 24), t.word 5,
   set 6 (t.cur * 2 ^ 16 + t.slot0.st.code * 2 ^ 18 + t.slot1.st.code * 2 ^ 21 + b2n t.nocache * 2 ^ 24), t.word 7]
    ++ (upto 8 8).map t.word

/-- Local offset of the directory region. -/
def State.dirBase (s : State) : Nat :=
  (s.rbits Reg.DIR_BASE_LO 31 22) * 2 ^ 22 + (s.rbits Reg.DIR_BASE_HI 5 0) * 2 ^ 32

/-- DIR_STAT.BASE_OK: the region is set and lies within stairwell memory. -/
def State.baseOk (s : State) : Bool := (s.reg Reg.DIR_BASE_HI).bit 31 && decide (s.dirBase + 2 ^ 22 ≤ memLimit)

/-- Local offset of the shard-map area. -/
def State.smapBase (s : State) : Nat :=
  (s.rbits Reg.DIR_SMAP_BASE_LO 31 21) * 2 ^ 21 + (s.rbits Reg.DIR_SMAP_BASE_HI 5 0) * 2 ^ 32

/-- The 32 bytes of a stored shard-map entry (R187). -/
def ShardEnt.bytes (e : ShardEnt) : List Byte :=
  leBytes 8 e.cur ++ leBytes 8 e.next ++ leBytes 8 e.prev ++ leBytes 8 (b2n e.pend)

/-- Store what the directory logic writes, where it lies in stairwell memory. -/
def State.dirStore (s : State) (off : Nat) (bs : List Byte) : State := if inStw off bs.length then s.memStore off bs else s

/-- Write one table's entry and the shard-map entries that differ from those before into stairwell memory. -/
def State.mirrorOne (old s : State) (id : Nat) : State :=
  match s.table id with
  | none => if (old.table id).isSome then s.dirStore (s.dirBase + 64 * id) (List.replicate 64 0) else s
  | some t =>
    let was := old.table id
    if was = some t then s
    else
      let s := s.dirStore (s.dirBase + 64 * id) (wordsBytes (t.live id))
      if t.replicated then s
      else t.shards.foldl (fun (s : State) (k, e) =>
        if was.bind (fun o => mapGet o.shards k) = some e then s
        else s.dirStore (s.smapBase + 32 * (t.smapIdx + k)) e.bytes) s

/-- Keep the directory region and the shard-map area in step with the directory; what the host writes there is never
read back (log 33). -/
def State.mirror (old s : State) : State :=
  ((old.dir.tables ++ s.dir.tables).map (·.1)).eraseDups.foldl (fun (s : State) id => State.mirrorOne old s id) s

/-- A management opcode that changes the directory. -/
def State.dirRun (s : State) (op svcNs : Nat) (f : State → MqPkt → State) : State := State.mirror s (s.mgRun op svcNs f)

/-- Run with the packet's table (log 40). -/
def State.onTable (s : State) (p : MqPkt) (f : State → Table → State) : State :=
  match s.table p.table with
  | none => s.endMq p St.badTable p.table 0
  | some t => f s t

/-! ### The schedule table (R57, R134, R167, R191) -/

/-- The checks on a packet that names a landing. -/
def State.landingBad (s : State) (p : MqPkt) : Option Ending :=
  let l := p.at_
  if l = 0 then none
  else if s.hall.sync == .freeLong then some ⟨St.unsynced, s.hall.landing, 0⟩
  else if l < s.hall.landing + 2 ∨ l > s.hall.landing + 16777216 then some ⟨St.badLanding, s.hall.landing, 0⟩
  else none

/-- Entries of the schedule table in use. -/
def State.schedUsed (s : State) : Nat := (s.conc.sched.filter (fun x => x.named && x.pkt.isSome)).length

/-- The action moves to the schedule table; without a landing it takes effect at the next one. -/
def State.schedule (s : State) (p : MqPkt) (act : SchedAct) : State :=
  if p.at_ ≠ 0 && s.schedUsed ≥ 1024 then s.endMq p St.noResource 4 0
  else s.modConc (fun c => { c with
    sched := c.sched ++ [⟨if p.at_ = 0 then s.hall.landing + 1 else p.at_, p.seq, p.at_ != 0, false, act, some p⟩] })

/-! ### TABLE_DEFINE (R156, R159 to R161, R182) -/

/-- The placement of a packet's 8-byte entry at a byte of it. -/
def plAt (ws : List Word) (byte : Nat) : Nat := Word.pair (ws.getD (byte / 4) 0) (ws.getD (byte / 4 + 1) 0)

/-- An invalid TIER or a set reserved bit in the placement at a byte. -/
def plBad (ws : List Word) (byte : Nat) : Option Ending :=
  let pl := plAt ws byte
  firstBad [chk (decide (plTier pl ≥ 2)) (badAt (byte + 2)), chk (decide (pl ≥ 2 ^ 36)) (badAt (byte + 4))]

/-- A newly defined table. -/
def Table.define (words : List Word) (landing : Nat) : Table where
  words := words
  st := .loading
  slot0 := ⟨.empty, 0, none⟩
  slot1 := ⟨.empty, 0, none⟩
  cur := 0
  epoch := 0
  bumpPend := false
  nocache := false
  nocacheClr := false
  shards := []
  load := []
  defined := landing

/-- The range of a slot reaches beyond the pinned capacity (R182). -/
def State.pinOver (s : State) (t : Table) (slot : Nat) : Bool :=
  decide (t.vbase slot + (t.rows - 1) * t.stride + t.rowSize > s.pinBytes)

/-- The checks of R161 and R182, in the order of the entry's words. -/
def State.defineBad (s : State) (ws : List Word) (t : Table) : Option Ending :=
  let n := (lenOf ws - 3) * 4
  let stride4 := t.stride / 4
  firstBad [
    rsvBad ws 2 31 16,
    rsvBad ws 8 18 0, chk (t.pin && !t.replicated) (badAt 34), rsvBad ws 8 23 21,
    chk (!fmtDefined t.format) (badAt 35), rsvBad ws 8 31 31, rsvBad ws 9 31 20,
    chk (decide (stride4 < 1) || decide (stride4 > 1024)) (badAt 41), rsvBad ws 10 31 22,
    chk (decide (t.rowSize > 4096)) (badAt 40), chk (decide (t.stride < t.rowSize)) (badAt 41),
    rsvBad ws 12 31 8, chk (!fp32PosNormal t.scale) (badAt 52),
    chk (!zpOk t.format t.zp) (badAt 56), rsvBad ws 14 31 16,
    chk (!t.replicated && decide (t.smapIdx + t.shardCount > s.rbits Reg.DIR_SMAP_SIZE 11 0 * 65536)) (badAt 60),
    rsvBad ws 15 31 28, rsvBad ws 16 31 22, rsvBad ws 17 31 22,
    chk (t.replicated && t.pin && s.pinOver t 0) (badAt 64), chk (t.replicated && t.pin && s.pinOver t 1) (badAt 68),
    chk (t.replicated && decide (lenOf ws > 3)) (badAt 2),
    (upto 0 n).findSome? (fun j => if j < t.shardCount then plBad ws (96 + 8 * j) else nzBad (wordsBytes ws) (96 + 8 * j) (104 + 8 * j)),
    chk (t.esc != 0 && !fmtEsc t.format) ⟨St.badFormat, 35, 0⟩]

/-- TABLE_DEFINE: the checks in the order of R156, R160, R161 (log 34). -/
def State.mgTableDefine (s : State) (p : MqPkt) : State :=
  let ws := p.words
  let words := (upto 0 16).map (fun i => if i < 8 then uw ws 2 i else uw ws 3 (i - 8))
  let t := Table.define words s.hall.landing
  if !s.baseOk then s.endMq p St.noResource 6 0
  else if (s.table p.table).isSome then s.endMq p St.badState (s.tstate p.table).code 0
  else
    match s.defineBad ws t with
    | some e => s.mgEnd p e
    | none =>
      let n := min ((lenOf ws - 3) * 4) t.shardCount
      let t := (upto 0 n).foldl (fun (t : Table) j => t.setShard j ⟨plAt ws (96 + 8 * j), 0, 0, false⟩) t
      { s with dir := { s.dir with tables := mapSet s.dir.tables p.table t } }.mgOk p 0

/-- TABLE_DEFINE. -/
def execTableDefine (svcNs : Nat) (s : State) : Host.Outcome State Fault Refusal :=
  ran s (s.dirRun 0x8020 svcNs State.mgTableDefine)

/-! ### TABLE_STATE (R166, R167) -/

/-- TABLE_STATE: only the target and the landing are checked now. -/
def State.mgTableState (s : State) (p : MqPkt) : State :=
  s.onTable p (fun s _ =>
    let target := p.arg % 8
    match firstBad [rsvBad p.words 2 31 19, chk (decide (target < 2) || decide (target > 4)) (badAt 10), s.landingBad p] with
    | some e => s.mgEnd p e
    | none => s.schedule p (.tableState p.table target))

/-- TABLE_STATE. -/
def execTableState (svcNs : Nat) (s : State) : Host.Outcome State Fault Refusal :=
  ran s (s.dirRun 0x8021 svcNs State.mgTableState)

/-! ### VERSION_SWITCH (R170 to R172) -/

/-- State in DETAIL of a refused VERSION_SWITCH (R171). -/
def Table.switchDetail (t : Table) (slot : Nat) : Nat := if t.st == .retiring then 4 + 256 else (t.slot slot).st.code

/-- A slot's opening has ended once no invalidation that the engine asked for on it remains (R172). -/
def State.openBusy (s : State) (table slot : Nat) : Bool :=
  (s.rc.running.toList ++ s.rc.queue ++ s.rc.overflow).any (fun m => m.engine && (match m.op with
    | .table t s0 s1 => t == table && (if slot = 0 then s0 else s1)
    | _ => false))

/-- OPEN completes for the slots whose invalidation has ended. -/
def State.opensDone (s : State) : State :=
  s.conc.ops.foldl (fun (s : State) o => match o.kind with
    | .openSlot t k => if s.openBusy t k then s else (s.dropOp o.pkt.seq).mgOk o.pkt 0
    | _ => s) s

/-- VERSION_SWITCH. -/
def State.mgSwitch (s : State) (p : MqPkt) : State :=
  s.onTable p (fun s t =>
    let slot := p.arg % 2
    let act := p.arg / 2 % 4
    match firstBad [rsvBad p.words 2 31 19, chk (act != 0 && p.at_ != 0) (badAt 16)] with
    | some e => s.mgEnd p e
    | none =>
      match act with
      | 0 =>
        if p.at_ = 0 then s.endMq p St.badLanding s.hall.landing 0
        else
          match s.landingBad p with
          | some e => s.mgEnd p e
          | none =>
            if t.st == .retiring || (t.slot slot).st != .ready then s.endMq p St.badState (t.switchDetail slot) 0
            else s.schedule p (.switch p.table slot)
      | 1 =>
        if t.st == .retiring || (t.slot slot).st != .empty then s.endMq p St.badState (t.switchDetail slot) 0
        else
          let s := s.modTable p.table (fun t => t.modSlot slot (fun v => { v with st := .filling }))
          let s := (s.mntQueue (.table p.table (slot == 0) (slot == 1)) true false).1
          s.putOp p (.openSlot p.table slot)
      | a =>
        let from_ := if a = 2 then [SState.filling] else [SState.filling, SState.ready]
        if t.st == .retiring || !from_.contains (t.slot slot).st then s.endMq p St.badState (t.switchDetail slot) 0
        else (s.modTable p.table (fun t => t.modSlot slot (fun v => { v with
          st := if a = 2 then SState.ready else SState.empty }))).mgOk p 0)

/-- VERSION_SWITCH. -/
def execVersionSwitch (svcNs : Nat) (s : State) : Host.Outcome State Fault Refusal :=
  ran s (s.dirRun 0x8022 svcNs State.mgSwitch)

/-! ### SHARD_MAP_WRITE (R188, R202) -/

/-- Byte of a SHARD_MAP_WRITE's placement j. -/
def smwByte (j : Nat) : Nat := 40 + 8 * j

/-- SHARD_MAP_WRITE. -/
def State.mgShardMap (s : State) (p : MqPkt) : State :=
  s.onTable p (fun s t =>
    let ws := p.words
    let first := (uw ws 2 0).bits 23 0
    let count := (uw ws 2 0).bits 31 24
    let held := (lenOf ws - 2) * 4 + 3
    let js := upto 0 count
    let balloon := fun (j : Nat) => plTier (plAt ws (smwByte j)) == 1
    if t.replicated then s.endMq p St.badState t.st.code 0
    else
      match firstBad [
          chk (decide (count < 1) || decide (count > 27) || decide (count > held) || decide (first + count > t.shardCount)) (badAt 35),
          rsvBad ws 9 31 0,
          js.findSome? (fun j => plBad ws (smwByte j)),
          js.findSome? (fun j => chk (t.st == .training && balloon j) (badAt (smwByte j + 2))),
          js.findSome? (fun j => chk (balloon j && decide (plHome (plAt ws (smwByte j)) = s.engineId) && s.noBalloon t)
            ⟨St.badState, t.st.code, 0⟩)] with
      | some e => s.mgEnd p e
      | none =>
        (s.modTable p.table (fun t => js.foldl (fun (t : Table) j =>
          let e := t.shard (first + j)
          let pl := plAt ws (smwByte j)
          t.setShard (first + j) (if t.st == .loading then { e with cur := pl, pend := false } else { e with next := pl, pend := true })) t)).mgOk p 0)

/-- SHARD_MAP_WRITE. -/
def execShardMapWrite (svcNs : Nat) (s : State) : Host.Outcome State Fault Refusal :=
  ran s (s.dirRun 0x8023 svcNs State.mgShardMap)

/-! ### EPOCH_BUMP (R180, R191) -/

/-- EPOCH_BUMP. -/
def State.mgEpochBump (s : State) (p : MqPkt) : State :=
  s.onTable p (fun s t =>
    match firstBad [
        chk t.replicated ⟨St.badState, t.st.code, 0⟩, s.landingBad p, chk t.bumpPend ⟨St.badState, t.st.code, 0⟩,
        chk (p.arg != (t.epoch + 1) % 65536) (badAt 10)] with
    | some e => s.mgEnd p e
    | none =>
      if p.at_ ≠ 0 && s.schedUsed ≥ 1024 then s.endMq p St.noResource 4 0
      else (s.modTable p.table (fun t => { t with bumpPend := true })).schedule p (.epochBump p.table))

/-- EPOCH_BUMP. -/
def execEpochBump (svcNs : Nat) (s : State) : Host.Outcome State Fault Refusal :=
  ran s (s.dirRun 0x8024 svcNs State.mgEpochBump)

/-! ### MIGRATE (R294) -/

/-- MIGRATE: scheduled, or started at once where it names no landing. -/
def State.mgMigrate (s : State) (p : MqPkt) : State :=
  s.onTable p (fun s _ =>
    let ws := p.words
    let shard := (uw ws 2 0).bits 23 0
    let target := (uw ws 2 1).bits 17 0
    match firstBad [nzBad (wordsBytes ws) 40 64, s.landingBad p] with
    | some e => s.mgEnd p e
    | none => if p.at_ = 0 then s.migBegin p p.table shard target else s.schedule p (.migrate p.table shard target))

/-- MIGRATE. -/
def execMigrate (svcNs : Nat) (s : State) : Host.Outcome State Fault Refusal :=
  ran s (s.dirRun 0x8025 svcNs State.mgMigrate)

/-! ### TABLE_GRANT (R164) -/

/-- TABLE_GRANT: in force from the next landing. -/
def State.mgGrant (s : State) (p : MqPkt) : State :=
  s.onTable p (fun s _ =>
    let w := uw p.words 2 0
    let hall := w.bits 19 0
    let rest := s.dir.grantsNext.filter (fun (t, h, _, _) => !(t == p.table && h == hall))
    match rsvBad p.words 8 31 22 with
    | some e => s.mgEnd p e
    | none =>
      if !w.bit 20 && !w.bit 21 then { s with dir := { s.dir with grantsNext := rest } }.mgOk p 0
      else if rest.length ≥ 16384 then s.endMq p St.noResource 5 0
      else { s with dir := { s.dir with grantsNext := rest ++ [(p.table, hall, w.bit 20, w.bit 21)] } }.mgOk p 0)

/-- TABLE_GRANT. -/
def execTableGrant (svcNs : Nat) (s : State) : Host.Outcome State Fault Refusal :=
  ran s (s.dirRun 0x8026 svcNs State.mgGrant)

/-! ### COUNTERS_READ (R206 to R208) -/

/-- This engine homes a shard in CUR; a replicated table's shards count as homed here. -/
def State.homes (s : State) (t : Table) (shard : Nat) : Bool := t.replicated || decide (t.curHome shard = s.engineId)

/-- The counters of a shard. -/
def Table.loadOf (t : Table) (shard : Nat) : LoadCnt := (mapGet t.load shard).getD ⟨0, 0, 0, 0, t.defined⟩

/-- A counter record (R207). -/
def State.loadRecord (s : State) (t : Table) (shard : Nat) : List Word :=
  if !s.homes t shard then [0, 0, 0, 0]
  else
    let c := t.loadOf shard
    let tier := if t.replicated then 0 else plTier (t.shard shard).cur
    [Word.ofNat c.reads, Word.ofNat c.updates, Word.ofNat (c.peak + 2 ^ 16 + tier * 2 ^ 17),
     Word.ofNat (sat32 (s.hall.landing - c.since))]

/-- COUNTERS_READ: the records are taken, and cleared, as it executes. -/
def State.mgCounters (s : State) (p : MqPkt) : State :=
  s.onTable p (fun s t =>
    let ws := p.words
    let first := (uw ws 2 0).bits 23 0
    let count := (uw ws 2 1).bits 16 0
    let dest := uw64 ws 2 2
    if (s.tenant p.tenant).hallId ≠ t.owner then s.endMq p St.denied 0 0
    else
      match firstBad [chk (decide (count < 1) || decide (count > 65536) || decide (first + count > t.shardCount)) (badAt 36),
          chk (misaligned dest 64) (badAt 40), nzBad (wordsBytes ws) 48 64] with
      | some e => s.mgEnd p e
      | none =>
        let shards := upto first count
        let bs := shards.flatMap (fun k => wordsBytes (s.loadRecord t k))
        let homed := (shards.filter (s.homes t)).length
        let s := if (uw ws 2 1).bit 31 then
            s.modTable p.table (fun t => { t with load := shards.foldl (fun m k => mapSet m k ⟨0, 0, 0, 0, s.hall.landing⟩) t.load })
          else s
        let s := s.putOp p (.counters homed)
        let (s, a) := s.hostAcc reqMgmt p.tenant dest (16 * count) (some bs) (.counters p.seq) false
        match a with
        | .committed => (s.dropOp p.seq).mgOk p homed
        | .fault perm at_ => (s.dropOp p.seq).endMq p (xlStatus perm) (at_ - dest) 0
        | .waiting => s)

/-- COUNTERS_READ. -/
def execCountersRead (svcNs : Nat) (s : State) : Host.Outcome State Fault Refusal :=
  ran s (s.dirRun 0x8030 svcNs State.mgCounters)

end Sys2Proof.Machine
end

