-- ==== Sys2Proof/Machine/Pins.lean ====
section
/-! DEFINITION. The handrail's pins and sensors: the multi-function pins (R555 to R559), the persistent registers as
software writes them (R573, R626 to R629), presence and the seal loop (R150 to R152, R561, R562), the thermal trip and
the logic sensors (R38, R39), and the persistent store's next write (R574, R575). -/
namespace Sys2Proof.Machine

open Sys2Proof.Config

/-! ### What a pin drives (R556) -/

/-- ALERT# is asserted (R588). -/
def State.alert (s : State) : Bool := s.rbits Reg.ERR_PEND 11 0 &&& s.rbits Reg.ERR_ALERT_EN 11 0 != 0

/-- Level of a PRES_LED pin. -/
def State.presLed (s : State) : Bool :=
  if s.labPresence then s.pres.blink
  else if s.buttonPresence then true
  else s.pres.sealOpen && s.pres.blink

/-- What function f drives on pin n; none where it lets the pull-up stand. -/
def State.pinDrive (s : State) (n f : Nat) : Option Bool :=
  let gpio := (s.reg Reg.HR_GPIO_OUT).bit n
  match f with
  | 1 => some gpio
  | 2 => if gpio then none else some false
  | 3 => if s.alert then some false else none
  | 4 => some ((s.pins.getD n (Pin.reset 0)).pulse.isSome)
  | 5 => if s.err.therm then some false else none
  | 6 => some s.presLed
  | _ => none

/-- Level of a pin: its keeper's while it holds, else what its function drives, else the pull-up's (no outside driver is
modelled; log 35). -/
def State.pinLevel (s : State) (n : Nat) : Bool :=
  let p := s.pins.getD n (Pin.reset 0)
  match p.keep with
  | some (_, l) => l
  | none => (s.pinDrive n p.func).getD true

/-- The pins take the functions of a word (R558): a pin whose function changes holds its level for four reference cycles,
but for one that changes to THERMTRIP#. -/
def State.mfpApply (s : State) (w : Word) : State :=
  { s with pins := ((upto 0 s.pins.length).zip s.pins).map (fun (n, p) =>
    let f := w.bits (8 * n + 2) (8 * n)
    if f = p.func then p
    else { p with func := f, keep := if f = 5 then none else some (s.now + 40, s.pinLevel n) }) }

/-- The pins enter the reset state of R559. -/
def State.pinsReset (s : State) : State := s.mfpApply 0x05000000

/-- Pin configuration (R555, R559): HR_GPIO_OUT is loaded from the INIT bits and the pins take HR_MFP_FUNC. -/
def State.pinConfig (s : State) : State :=
  let w := s.reg Reg.HR_MFP_FUNC
  let init := (upto 0 4).foldl (fun m n => m + b2n (w.bit (8 * n + 3)) * 2 ^ n) 0
  let s := (s.setReg Reg.HR_GPIO_OUT (Word.ofNat init)).mfpApply w
  { s with rst := { s.rst with pincfg := true } }

/-! ### Persistent registers -/

/-- The settings word of a persistent register. -/
def psWordOf (off : Nat) : Option Nat := (upto 0 6).find? (fun w => psRegOf w == some off)

/-- A persistent register takes a value: pin functions reach the pins once they are configured. -/
def State.rwpSet (s : State) (word : Nat) (v : Word) : State :=
  match psRegOf word with
  | none => s
  | some off =>
    let s := s.setReg off v
    if word = 5 && (s.rst.pincfg || s.rst.phase == .run) then s.mfpApply v else s

/-- A write of a persistent register by software: its own rules first, then those of the store (R573, R576, R629). -/
def State.rwpWrite (s : State) (word : Nat) (v : Word) : State :=
  match s.rwpValue word v with
  | none => s
  | some v =>
    let (s, took) := s.psRegister word v
    if took then s.rwpSet word v else s

/-- RWP_REGISTER_WRITE: a BAR write to a persistent register. -/
def execRwpRegisterWrite (off : Nat) (w : Word) (s : State) : Host.Outcome State Fault Refusal :=
  ran s (match psWordOf off with
    | some word => s.rwpWrite word w
    | none => s)

/-- HR_MFP_FUNC_WRITE. -/
def execHrMfpFuncWrite (w : Word) (s : State) : Host.Outcome State Fault Refusal := ran s (s.rwpWrite 5 w)

/-! ### Packets that write persistent words (R573, R575) -/

/-- There is room for one more write. -/
def Ps.room (p : Ps) : Bool := p.busy.isNone || decide (p.queue.length < 8)

/-- Put writes into the queue while there is room; those left over. -/
def psFill (s : State) (left : List (Nat × Word)) : State × List (Nat × Word) :=
  match left with
  | [] => (s, [])
  | (w, v) :: r => if s.ps.room then psFill (s.psPut w v false) r else (s, (w, v) :: r)

/-- Packets waiting for the store: their writes enter the queue in order of arrival, and a packet whose last write is
persisted ends ST_OK. -/
def State.psOps (s : State) : State :=
  s.conc.ops.foldl (fun (s : State) o => match o.kind with
    | .persist left last =>
      let (s, left) := psFill s left
      if left.isEmpty && !(s.ps.waiting.any (fun x => x.word == last && !x.engine)) then (s.dropOp o.pkt.seq).endMq o.pkt St.ok 0 0
      else s.modConc (fun c => { c with ops := c.ops.map (fun x => if x.pkt.seq = o.pkt.seq then ⟨x.pkt, .persist left last⟩ else x) })
    | _ => s) s

/-- PERSIST_DONE: within 200 µs the write in hand is persisted, and the next starts. -/
def execPersistDone (s : State) : Host.Outcome State Fault Refusal := ran s s.psDone.psOps.wake

/-! ### Presence and the seal loop -/

/-- Change presence. -/
def State.modPres (s : State) (f : Pres → Pres) : State := { s with pres := f s.pres }

/-- Change the backup domain. -/
def State.modBk (s : State) (f : Bk → Bk) : State := { s with bk := f s.bk }

/-- PRESENCE_PRESS: the button has been held for 50 ms; it counts only with the seal loop closed. -/
def execPresencePress (s : State) : Host.Outcome State Fault Refusal :=
  ran s (if s.pres.sealOpen || !s.rst.standby then s else s.modPres (fun p => { p with press := some s.now, lastPress := some s.now }))

/-- PRESENCE_EXPIRE: presence by button lapses 60 s after its press. -/
def execPresenceExpire (s : State) : Host.Outcome State Fault Refusal :=
  came s (match s.pres.press with
    | some t => (s.due (t + ms 60000)).modPres (fun p => { p with press := none })
    | none => s)

/-- SEAL_SAMPLE: the second open sample in a row is a break. -/
def execSealSample (closed : Bool) (s : State) : Host.Outcome State Fault Refusal :=
  ran s (
    if !s.rst.standby then s
    else
      let was := s.pres.openRun
      let s := s.modPres (fun p => { p with sealOpen := !closed, openRun := if closed then 0 else min 2 (was + 1) })
      if !closed && was = 1 then
        ((s.modPres (fun p => { p with broken := true, press := none })).modBk (fun b => { b with sealTrip := true })).raise { code := 0x80 }
      else s)

/-- BACKUP_SEAL_SAMPLE: with only YF_VBAK present, an open sample sets SEAL_TRIP. -/
def execBackupSealSample (closed : Bool) (s : State) : Host.Outcome State Fault Refusal :=
  ran s (if s.rst.standby || closed || s.bk.gone then s else s.modBk (fun b => { b with sealTrip := true }))

/-- PRES_LED_BLINK: the blink's level changes while one of its two causes stands. -/
def execPresLedBlink (s : State) : Host.Outcome State Fault Refusal :=
  ran s (if s.labPresence || (!s.buttonPresence && s.pres.sealOpen) then s.modPres (fun p => { p with blink := !p.blink }) else s)

/-! ### Keepers and pulses -/

/-- Change a pin. -/
def State.modPin (s : State) (n : Nat) (f : Pin → Pin) : State := { s with pins := updAt s.pins n f }

/-- PIN_KEEPER_RELEASE. -/
def execPinKeeperRelease (pin : Nat) (s : State) : Host.Outcome State Fault Refusal :=
  came s (match (s.pins.getD pin (Pin.reset 0)).keep with
    | some (t, _) => (s.due t).modPin pin (fun p => { p with keep := none })
    | none => s)

/-- LANDING_PULSE_END. -/
def execLandingPulseEnd (s : State) : Host.Outcome State Fault Refusal :=
  came s (match s.pins.findSome? (·.pulse) with
    | some t => { s.due t with pins := s.pins.map (fun p => { p with pulse := none }) }
    | none => s)

/-- A landing raises the LANDING pins' pulse (R556). -/
def State.landingPulse (s : State) : State :=
  let w := s.reg Reg.HR_LPULSE
  if s.hall.landing % 2 ^ w.bits 11 8 = 0 then
    { s with pins := s.pins.map (fun p => { p with pulse := some (s.now + 10 * w.bits 7 0) }) }
  else s

/-! ### Temperature of the logic -/

/-- The analogue sensor at or above 125 °C asserts THERMTRIP# (R39, R571). -/
def State.therm (s : State) (temp : Int) : State :=
  if temp < 125 || s.err.therm then s
  else (({ s with err := { s.err with therm := true } }).modBk (fun b => { b with therm := true })).raise { code := 0x63 }

/-- THERMTRIP. -/
def execThermtrip (temp : Int) (s : State) : Host.Outcome State Fault Refusal := ran s (s.therm temp)

/-- CORE_SUPPLY_RISE: THERMTRIP# is released, and asserts again at once if the sensor still calls for it. -/
def execCoreSupplyRise (temp : Int) (s : State) : Host.Outcome State Fault Refusal :=
  ran s (({ s with err := { s.err with therm := false, core := true } }).therm temp)

/-- HOT: above 105 °C budgets halve, and at 100 °C or below they are restored, from the next flight on (R38). -/
def execHot (temp : Int) (s : State) : Host.Outcome State Fault Refusal :=
  ran s (
    if temp > 105 ∧ !s.flt.hotNext then
      (s.modFlt (fun f => { f with hotNext := true })).raise { code := 0x60, d0 := temp.toNat }
    else if temp ≤ 100 then s.modFlt (fun f => { f with hotNext := false })
    else s)

end Sys2Proof.Machine
end

