-- ==== Sys2Proof/Machine/Stairwell.lean ====
section
/-! DEFINITION. The stairwells' own operations (R436 to R467): refresh and temperature, scrub, remapping and pending
repairs, partition buckets, the march test, and the host's accesses through the CXL.mem range (R468 to R470). -/
namespace Sys2Proof.Machine

open Sys2Proof.Config

/-- The column's base logic is held in reset or does not exist. -/
def State.colHeld (s : State) (k : Nat) : Bool := decide (k ≥ 4) || s.domHeld 2

/-! ### Repairs (R453, R454, R459) -/

/-- A remap-table entry is installed: counted and reported with its index in the form of R457. -/
def State.installRemap (s : State) (k packed : Nat) : State :=
  let e := repairRow k packed
  let s := s.modCol k (fun c => { c with remap := c.remap ++ [e], remapBusy := setDel c.remapBusy packed })
  (s.bump (stwReg k Reg.STW_REMAP_CNT) 1).raise { code := 0x40, kind := 3, unit := k, d0 := e.toNat }

/-- REMAP_DONE: the copy of the oldest live remap ends. -/
def execRemapDone (col : Nat) (s : State) : Host.Outcome State Fault Refusal :=
  ran s (if s.colHeld col then s else match (s.col col).remapBusy with
    | p :: _ => s.installRemap col p
    | [] => s)

/-- At the release of a warm or unit reset the column makes every pending repair (R454). -/
def State.colPending (s : State) (k : Nat) : State :=
  let rows := (s.col k).pendRep
  rows.foldl (fun (s : State) p =>
    let (s, ok) := s.takeSpare k p
    if ok then s.installRemap k p else s) (s.modCol k (fun c => { c with pendRep := [] }))

/-- The entry of the persistent repair map at an index. -/
def State.mapEntry (s : State) (i : Nat) : Word := s.psStored (64 + i)

/-- Apply one entry of the repair map (R459): a repeat, or one that finds no spare, is skipped and reported. -/
def State.applyEntry (s : State) (i : Nat) (done : List Word) : State :=
  let e := s.mapEntry i
  let k := e.bits 1 0
  let ch := e.bits 6 2
  if !e.bit 31 then s
  else
    let skip := s.raise { code := 0x42, kind := 3, unit := k, d0 := e.toNat }
    if done.contains e then skip
    else if e.bits 28 27 = 1 then
      if mapCnt (s.col k).lanes ch ≥ 4 then skip
      else s.modCol k (fun c => { c with lanes := mapPut c.lanes ch (mapCnt c.lanes ch + 1) })
    else
      let bank := ch + 32 * e.bits 12 7
      if mapCnt (s.col k).spareUsed bank ≥ 32 || decide ((s.col k).remap.length ≥ 4096) then skip
      else s.modCol k (fun c => { c with
        remap := c.remap ++ [e], spareUsed := mapPut c.spareUsed bank (mapCnt c.spareUsed bank + 1) })

/-- Apply the whole repair map in index order. -/
def State.applyMap (s : State) : State :=
  ((upto 0 512).foldl (fun (acc : State × List Word) i =>
    (acc.1.applyEntry i acc.2, if (acc.1.mapEntry i).bit 31 then acc.1.mapEntry i :: acc.2 else acc.2)) (s, [])).1

/-! ### Temperature (R35, R36, R443 to R446) -/

/-- The hottest reading. -/
def hottest (temps : List Int) : Int := temps.foldl max (temps.headD 0)

/-- The state that a hottest reading calls for from a state: up at once past every threshold crossed, down one threshold
at a time, 2 °C below it. -/
def TTemp.next (st : TTemp) (t : Int) : TTemp :=
  let up : TTemp := if t > 115 then .halt else if t > 105 then .throttle else if t > 95 then .x4 else if t > 85 then .x2 else .x1
  match st with
  | .halt => if t > 113 then .halt else if t > 103 then .throttle else if t > 93 then .x4 else if t > 83 then .x2 else .x1
  | .throttle => if t > 115 then .halt else if t > 103 then .throttle else if t > 93 then .x4 else if t > 83 then .x2 else .x1
  | .x4 => if t > 105 then up else if t > 93 then .x4 else if t > 83 then .x2 else .x1
  | .x2 => if t > 95 then up else if t > 83 then .x2 else .x1
  | .x1 => up

/-- A sample of a column's dies. -/
def State.sampleCol (s : State) (k : Nat) (temps : List Int) : State :=
  let temps := (upto 0 16).map (fun i => temps.getD i 0)
  let old := (s.col k).temp
  let t := hottest temps
  let new := old.next t
  let s := s.modCol k (fun c => { c with temps := temps, temp := new, sampled := true })
  let hot := (if t < 0 then t + 2 ^ 32 else t).toNat
  if new == .halt && old != .halt then s.raise { code := 0x62, kind := 3, unit := k, d0 := hot }
  else if new == .throttle && old != .throttle && old != .halt then s.raise { code := 0x61, kind := 3, unit := k, d0 := hot }
  else s

/-- TEMP_SAMPLE. -/
def execTempSample (col : Nat) (temps : List Int) (s : State) : Host.Outcome State Fault Refusal :=
  ran s (if s.colHeld col then s else (s.sampleCol col temps).wake)

/-- REFRESH: rows are refreshed in every temperature state, through resets and during a march test. -/
def execRefresh (col : Nat) (s : State) : Host.Outcome State Fault Refusal :=
  ran s (s.modCol col (fun c => { c with refreshes := c.refreshes + 1 }))

/-! ### Scrub (R448 to R451, R459) -/

/-- A symbol error of a channel decodes to a connection: reported when every one of more than 1,024 in a pass did. -/
def State.connError (s : State) (k ch conn : Nat) : State :=
  let key := ch * 288 + conn
  let n := mapCnt (s.col k).connCe key + 1
  let s := s.modCol k (fun c => { c with connCe := mapPut c.connCe key n })
  let alone := (s.col k).connCe.all (fun (a, _) => a / 288 != ch || a == key)
  if n = 1025 && alone then
    s.raise { code := 0x43, kind := 3, unit := k, d0 := k + ch * 2 ^ 2 + conn * 2 ^ 13 + 2 ^ 27 + 2 ^ 31 }
  else s

/-- SCRUB_READ: a line is read, corrected or poisoned. -/
def execScrubRead (off conn : Nat) (ecc : Ecc) (s : State) : Host.Outcome State Fault Refusal :=
  if off ≥ memLimit then .fault (.noMemory off)
  else
    let line := off / 64
    let d := dramOf (line * 64)
    let k := d.column
    let running := (s.reg (stwReg k Reg.STW_CTL)).bit 0 || (s.selftest.bind (·.cur)) == some (2, k)
    ran s (
      if !running || s.colHeld k || (s.col k).test.isSome || (s.col k).temp == .halt then s
      else
        let s := s.countActs (line * 64) 64
        if s.stw.poison.contains line then s.lineUe line
        else match ecc with
          | .good => s
          | .corrected => (s.lineCe line).connError k d.channel conn
          | .uncorrectable _ => s.lineUe line)

/-- SCRUB_PASS_END. -/
def execScrubPassEnd (col : Nat) (s : State) : Host.Outcome State Fault Refusal :=
  ran s (if s.colHeld col then s else
    (s.bump (stwReg col Reg.STW_SCRUB_PASS) 1).modCol col (fun c => { c with rowCe := [], connCe := [] }))

/-! ### Partition buckets (R441, R442) -/

/-- STW_REG_CFG_WRITE: the selected partition's bucket is filled to BURST. -/
def State.stwRegCfg (s : State) (col : Nat) (w : Word) : State :=
    if s.colHeld col then s
    else
      let p := s.rbits (stwReg col Reg.STW_REG_SEL) 5 0
      ((s.setReg (selKey (stwReg col Reg.STW_REG_CFG) p) w).modCol col (fun c => { c with tokens := mapPut c.tokens p (w.bits 30 16) })).wake

/-- STW_REG_CFG_WRITE. -/
def execStwRegCfgWrite (col : Nat) (w : Word) (s : State) : Host.Outcome State Fault Refusal := ran s (s.stwRegCfg col w)

/-- PARTITION_TOKEN_GAIN. -/
def execPartitionTokenGain (col part : Nat) (s : State) : Host.Outcome State Fault Refusal :=
  let w := s.reg (selKey (stwReg col Reg.STW_REG_CFG) part)
  ran s (
    if s.colHeld col || !w.bit 31 then s
    else (s.modCol col (fun c => { c with
      tokens := mapPut c.tokens part (min (w.bits 30 16) (mapCnt c.tokens part + w.bits 15 0)), waiting := mapDel c.waiting part })).wake)

/-! ### March test (R460 to R462, R465) -/

/-- Every delta waiting for a column's lines is applied first. -/
def State.flushCol (s : State) (k : Nat) : State :=
  (s.kite.comb.filter (fun c => columnOf (c.line * 64) == k)).foldl (fun (s : State) c => s.flushLine c.line) s

/-- MARCH_TEST_START. What the test leaves in the column's lines is undefined, zeros under algorithm ZERO; they read as
lines that nothing has written (log 8). -/
def State.marchStart (s : State) (col : Nat) (w : Word) : State :=
    if s.colHeld col || !w.bit 31 then s
    else
      let stat := stwReg col Reg.STW_TEST_STAT
      if (s.reg Reg.CONC_CTL).bit 0 || !s.dir.tables.isEmpty || (s.col col).test.isSome || decide (w.bits 1 0 = 3) then
        s.setReg stat (s.reg stat ||| 4)
      else
        let s := s.flushCol col
        let s := s.setReg (stwReg col Reg.STW_TEST_CTL) (Word.ofNat (w.bits 3 0))
        let s := (s.setReg (stwReg col Reg.STW_TEST_FAIL_CNT) 0).setReg (stwReg col Reg.STW_TEST_FIRST) 0
        let s := s.modCol col (fun c => { c with test := some w })
        { s with stw := { s.stw with
          mem := s.stw.mem.filter (fun (a, _) => columnOf a != col)
          poison := s.stw.poison.filter (fun l => columnOf (l * 64) != col) } }

/-- MARCH_TEST_START. -/
def execMarchTestStart (col : Nat) (w : Word) (s : State) : Host.Outcome State Fault Refusal := ran s (s.marchStart col w)

/-- A failing row becomes a pending repair. -/
def State.propose (s : State) (k packed : Nat) : State :=
  s.modCol k (fun c => if c.pendRep.contains packed || c.pendRep.length ≥ 4096 then c else { c with pendRep := c.pendRep ++ [packed] })

/-- MARCH_TEST_DONE. -/
def execMarchTestDone (col : Nat) (fails : List Nat) (s : State) : Host.Outcome State Fault Refusal :=
  ran s (
    if s.colHeld col then s
    else
      match (s.col col).test with
      | none => s
      | some w =>
        let stat := stwReg col Reg.STW_TEST_STAT
        let s := s.setReg stat (s.reg stat ||| 2)
        let s := s.setReg (stwReg col Reg.STW_TEST_FAIL_CNT) (Word.ofNat (sat32 fails.length))
        let s := s.setReg (stwReg col Reg.STW_TEST_FIRST) (Word.ofNat (fails.headD 0 % 2 ^ 30))
        let s := if w.bit 3 then (fails.map (fun f => f % 2 ^ 25)).eraseDups.foldl (fun (s : State) p => s.propose col p) s else s
        ((s.modCol col (fun c => { c with test := none })).mntQueue .all true false).1.wake)

/-! ### The CXL.mem range (R468 to R470) -/

/-- Partition of the host's accesses at a line's column. -/
def State.hostPart (s : State) (off : Nat) : Nat := s.rbits (stwReg (columnOf off) Reg.STW_CTL) 14 9

/-- HOST_MEM_WRITE: the write reaches stairwell memory through the row cache, and its completion returns. While a column
it touches makes no access it waits: it has no effect until it is made again (log 36). -/
def execHostMemWrite (off : Nat) (data : List Byte) (s : State) : Host.Outcome State Fault Refusal :=
  if off + data.length > memLimit then .fault (.noMemory off)
  else ran s (
    if s.domHeld 2 || s.rangeBlocked off data.length then s
    else
      let (s, ok) := s.takeTokens off data.length (s.hostPart off)
      if !ok then s else (((s.stwWrite off data).emit .cxlWriteDone).wake))

/-- HOST_MEM_READ: a poisoned line comes back marked poisoned. -/
def execHostMemRead (off len : Nat) (ecc : Ecc) (s : State) : Host.Outcome State Fault Refusal :=
  if off + len > memLimit then .fault (.noMemory off)
  else ran s (
    if s.domHeld 2 || s.rangeBlocked off len then s
    else
      let (s, ok) := s.takeTokens off len (s.hostPart off)
      if !ok then s
      else
        let (s, rd) := s.stwRead off len ecc
        ((s.emit (.cxlRead rd.data rd.bad.isSome))).wake)

end Sys2Proof.Machine
end

