-- ==== Sys2Proof/Machine/CacheOps.lean ====
section
/-! DEFINITION. The row cache's own commands and events (R403 to R435): fills, maintenance requests and their ends,
enabling, pinning, and the arrival of rows (R230, R233); delivery credits (R254), statistics of tables (R343, R400). -/
namespace Sys2Proof.Machine

open Sys2Proof.Config

/-! ### Fills and arrivals -/

/-- Partition of a miss: its first reader's tenant. -/
def State.missPart (s : State) (m : RcMiss) : Nat :=
  match m.waiters with
  | (key, _) :: _ => (s.item (key / 2)).elim 0 (fun i => (s.tenant i.tenant).part)
  | [] => 0

/-- A reader of a line gets it. -/
def State.lineGiven (s : State) (key : Nat) (data : List Byte) (w : Nat × Nat) : State :=
  if w.1 % 2 = 0 then (s.linePart (w.1 / 2) w.2 key data).advance (w.1 / 2) else s

/-- A reader of a line learns that it is uncorrectable. -/
def State.lineDenied (s : State) (line : Nat) (w : Nat × Nat) : State :=
  if w.1 % 2 = 0 then s.failItem (w.1 / 2) ⟨St.memUnc, s.hallAddr line, 0⟩
  else s.refuseServed (w.1 / 2) 5 (s.hallAddr line)

/-- A fill returns: the line goes to every reader merged on it, and is then allocated (R408, R410). -/
def State.rcFill (s : State) (m : RcMiss) (ecc : Ecc) : State :=
  let off := m.tag.key * 64 % 2 ^ 38
  let e := match ecc with
    | .uncorrectable _ => Ecc.uncorrectable (off / 64)
    | x => x
  if m.held || m.tag.kind != 0 || s.rangeBlocked off 64 then s
  else
    let (s, go) := s.takeTokens off 64 (s.missPart m)
    if !go then s
    else
      let (s, rd) := s.stwRead off 64 e
      match rd.bad with
      | some l => m.waiters.foldl (fun (s : State) w => s.lineDenied l w) (s.missDone m.id)
      | none =>
        let s := m.waiters.foldl (fun (s : State) w => s.lineGiven m.tag.key rd.data w) s
        match s.rc.misses.find? (fun x => x.id == m.id) with
        | some x => (s.fillLine x rd.data).missDone m.id
        | none => s

/-- RC_FILL. -/
def execRcFill (miss : Nat) (ecc : Ecc) (s : State) : Host.Outcome State Fault Refusal :=
  ran s (match s.rc.misses.find? (fun m => m.id == miss) with
    | some m => if s.inReset then s else (s.rcFill m ecc).wake
    | none => s)

/-- A row of a served kite arrives; a parity error of its set is met by invalidating the set (R425). -/
def State.servedArrive (s : State) (id pos : Nat) (r : RowRead) : State :=
  match r with
  | .stored e => s.serveTry id e
  | .tagParity =>
    match s.servedOf id with
    | none => s
    | some v =>
      (match s.table v.frame.table, v.rows.find? (fun x => x.1 == pos) with
        | some t, some (_, row, _) =>
          let p := s.servedPlace t v.frame.table v.frame.vslot row
          (match (s.rowTags t v.frame.table v.frame.vslot row p).1 with
            | tg :: _ => (s.rcTagParity s.kiteClass tg).serveTry id .good
            | [] => s.serveTry id .good)
        | _, _ => s)
  | .balloon d =>
    match s.xlt.accs.find? (fun a => a.issued && a.purpose == .coldRow (servedKey id) pos) with
    | none => s
    | some a => (s.dropAcc a.id).servedCold id pos d

/-- ROW_ARRIVAL. -/
def execRowArrival (key pos : Nat) (r : RowRead) (s : State) : Host.Outcome State Fault Refusal :=
  ran s (
    if s.inReset then s
    else if key % 2 = 0 then ((s.rowArrive (key / 2) pos r).advance (key / 2)).wake
    else (s.servedArrive (key / 2) pos r).wake)

/-! ### Maintenance -/

/-- The request that a finished walk belonged to takes its last effect, and the next starts (R406, R420, R427, R428,
R430, R432). -/
def State.walkDone (s : State) : State :=
  match s.rc.running with
  | none => s
  | some m =>
    let more := s.rc.queue ++ s.rc.overflow
    let noInit := !more.any (fun x => match x.op with | .init _ => true | _ => false)
    let noPin := !more.any (fun x => match x.op with | .pin _ _ => true | _ => false)
    let ways := s.rbits Reg.RC_PIN 3 0
    let s := s.modRc (fun r => { r with
      running := none
      stale := r.stale && (match m.op with | .init c => !c | .all => false | _ => true)
      init := r.init && (match m.op with | .init _ => !noInit | _ => true)
      pinGen := (match m.op with | .pin _ _ => r.pinGen + 1 | _ => r.pinGen)
      pinCap := (match m.op with | .pin _ _ => if noPin then ways else r.pinCap | _ => r.pinCap) })
    let s := match s.rc.queue with
      | x :: r => (s.modRc (fun c => { c with
          queue := r ++ c.overflow.take (16 - r.length), overflow := c.overflow.drop (16 - r.length) })).mntStart x
      | [] => s
    s.opensDone

/-- MNT_WALK_DONE. -/
def execMntWalkDone (s : State) : Host.Outcome State Fault Refusal := ran s (if s.domHeld 3 then s else s.walkDone.wake)

/-- A software request, while the cache's domain is out of reset. -/
def State.mntReq (s : State) (op : MntOp) : State := if s.domHeld 3 then s else s.mntSoft op

/-- INV_RANGE: the range of RC_MNT_ADDR and RC_MNT_LEN is copied into the request (R435). -/
def execInvRange (s : State) : Host.Outcome State Fault Refusal :=
  let lo := s.reg64 Reg.RC_MNT_ADDR_LO
  ran s (s.mntReq (.range lo (lo + 64 * (s.reg Reg.RC_MNT_LEN).toNat)))

/-- INV_TABLE. -/
def execInvTable (table slots : Nat) (s : State) : Host.Outcome State Fault Refusal :=
  ran s (s.mntReq (.table (table % 65536) (slots.testBit 0) (slots.testBit 1)))

/-- INV_ALL. -/
def execInvAll (s : State) : Host.Outcome State Fault Refusal := ran s (s.mntReq .all)

/-- NOP: walks and invalidates nothing. -/
def execMntNop (s : State) : Host.Outcome State Fault Refusal := ran s (s.mntReq .nop)

/-! ### Enabling and pinning -/

/-- EN is set (R406, R426 to R428): from 0 to 1, every unpinned line is invalidated first, unless KEEP holds it. -/
def State.rcEnable (s : State) (w : Word) : State :=
  if s.domHeld 3 then s
  else
    let was := (s.reg Reg.RC_CTL).bit 0
    let s := s.setReg Reg.RC_CTL (Word.ofNat (w.bits 4 1 * 2 + 1))
    if was then s
    else
      let keep := w.bit 1 && !s.rc.saltDirty
      let s := s.modRc (fun r => { r with saltDirty := false })
      if keep then s.modRc (fun r => { r with stale := true })
      else ((s.modRc (fun r => { r with init := true })).mntQueue (.init true) true true).1

/-- RC_ENABLE: a write of RC_CTL with EN set. -/
def execRcEnable (w : Word) (s : State) : Host.Outcome State Fault Refusal := ran s (s.rcEnable w)

/-- EN is cleared: lookups and allocation stop; lines stay (R426). -/
def State.rcDisable (s : State) (w : Word) : State :=
  if s.domHeld 3 then s else s.setReg Reg.RC_CTL (Word.ofNat (w.bits 4 1 * 2))

/-- RC_DISABLE: a write of RC_CTL with EN clear. -/
def execRcDisable (w : Word) (s : State) : Host.Outcome State Fault Refusal := ran s (s.rcDisable w)

/-- RC_PIN is written (R420): more ways are invalidated first; fewer return to the cache invalid. -/
def State.rcPin (s : State) (w : Word) : State :=
    let new := w.bits 3 0
    let old := s.rbits Reg.RC_PIN 3 0
    if s.domHeld 3 || decide (new > 8) || s.dir.tables.any (fun (_, t) => t.pin) then s
    else
      let s := s.setReg Reg.RC_PIN (Word.ofNat new)
      if new > old then (s.mntQueue (.pin old new) true false).1
      else
        let cap := min s.rc.pinCap new
        s.modRc (fun r => { r with
          pinCap := cap
          pinned := r.pinned.filter (fun x => decide (x.1 < cap * 8 * 2 ^ 20))
          pinErr := r.pinErr.filter (fun x => decide (8 * x < cap * 8 * 2 ^ 20)) })

/-- RC_PIN_WRITE. -/
def execRcPinWrite (w : Word) (s : State) : Host.Outcome State Fault Refusal := ran s (s.rcPin w)

/-! ### Delivery credits (R254) -/

/-- Deliveries that wait for credits leave while there are some. -/
def denseGo (s : State) (fuel : Nat) : State :=
  match fuel with
  | 0 => s
  | k + 1 =>
    match s.xlt.denseWait with
    | [] => s
    | (seq, handle, bs) :: r =>
      if s.xlt.denseCredits = 0 then s
      else
        let s := (s.modXlt (fun x => { x with denseWait := r, denseCredits := x.denseCredits - 1 })).emit (.dense handle bs)
        denseGo (s.resultWritten seq 0) k

/-- DENSE_CREDIT. -/
def execDenseCredit (n : Nat) (s : State) : Host.Outcome State Fault Refusal :=
  ran s (
    if s.inReset then s
    else
      let s := s.modXlt (fun x => { x with denseCredits := x.denseCredits + n })
      (denseGo s s.xlt.denseWait.length).wake)

/-! ### Statistics (R343, R400) -/

/-- Merge a gallery's pending figures of every table into the area. -/
def State.statFlush (s : State) (g : Nat) : State :=
  let s := (s.gal g).pend.foldl (fun (s : State) (t, f) => s.statWrite t f) s
  s.modGal g (fun x => { x with pend := [] })

/-- STAT_FLUSH. -/
def execStatFlush (gal : Nat) (s : State) : Host.Outcome State Fault Refusal :=
  ran s (if s.domHeld 5 then s else s.statFlush gal)

/-- GAL_STAT_SNAP: every gallery's pending figures of the table are merged, shown and zeroed in one step. -/
def State.galStatSnap (s : State) (w : Word) : State :=
  let t := w.bits 15 0
    if s.domHeld 5 then s
    else
      let s := s.setReg Reg.GAL_STAT_SEL (Word.ofNat t)
      let figs := s.gals.filterMap (fun g => mapGet g.pend t)
      let s := { s with gals := s.gals.map (fun (g : Gal) => { g with pend := mapDel g.pend t }) }
      let hi := s.reg Reg.GAL_STAT_BASE_HI
      let a := (s.reg Reg.GAL_STAT_BASE_LO).toNat + hi.bits 5 0 * 2 ^ 32 + 16 * t
      let old := s.memBytes a 12
      let f := fun i => ofLe ((old.drop (4 * i)).take 4)
      let fig := figs.foldl statMerge (if hi.bit 31 then (f 0, f 1, f 2) else (0, 0, 0))
      let s := if hi.bit 31 then s.stwWrite a (List.replicate 12 0) else s
      ((s.setReg Reg.GAL_STAT_MAXABS (Word.ofNat fig.1)).setReg Reg.GAL_STAT_SATBAGS (Word.ofNat fig.2.1)).setReg
        Reg.GAL_STAT_BAGS (Word.ofNat fig.2.2)

/-- GAL_STAT_SNAP. -/
def execGalStatSnap (w : Word) (s : State) : Host.Outcome State Fault Refusal := ran s (s.galStatSnap w)

/-- KITE_UPD_SEL is written with SNAP set (R343). -/
def State.kiteUpdSnap (s : State) (w : Word) : State :=
  if s.domHeld 6 then s else (s.setReg Reg.KITE_UPD_SEL (Word.ofNat (w.bits 15 0))).updSnap (w.bits 15 0)

/-- KITE_UPD_SNAP. -/
def execKiteUpdSnap (w : Word) (s : State) : Host.Outcome State Fault Refusal := ran s (s.kiteUpdSnap w)

end Sys2Proof.Machine
end

