-- ==== Sys2Proof/Machine/Landing.lean ====
section
/-! DEFINITION. The landing (R70): closing the old flight (R100), numbering and stepping (R59 to R61), a change of
FLT_ROOT (R632), the flight-length change (R69), the scheduled actions (R54 to R56, R134, R167 to R171, R189), what a
landing does to slots, tables and galleries (R168, R176, R179, R590, R591, R595), the new flight's budgets (R71 to R75)
and its opening; and the rows that name one of these. -/
namespace Sys2Proof.Machine

open Sys2Proof.Config

/-! ### The instant of a landing -/

/-- Change hall time. -/
def State.modHall (s : State) (f : Hall → Hall) : State := { s with hall := f s.hall }

/-- Time of the next landing: the flight in force, lengthened or shortened by a slew (R59). -/
def State.nextLanding (s : State) : Nat := ((s.hall.landingAt : Int) + s.lenNs + s.hall.slewed).toNat

/-- A landing number moved by a step. -/
def shiftBy (d : Int) (n : Nat) : Nat := ((n : Int) + d).toNat

/-- A grid point carried on to the flight that holds it, through a change of flight length named on the way (R69): landing,
ns into it, and flight length in reference cycles. -/
def project (landing pos len : Nat) (pend : Option (Nat × Nat)) : Nat × Nat × Nat :=
  let n := max 1 (10 * len)
  match pend with
  | some (l, at_) =>
    if landing < at_ ∧ at_ ≤ landing + pos / n then
      let rest := pos - (at_ - landing) * n
      (at_ + rest / max 1 (10 * l), rest % max 1 (10 * l), l)
    else (landing + pos / n, pos % n, len)
  | none => (landing + pos / n, pos % n, len)

/-! ### Step 1: the old flight closes -/

/-- The FLT_FIRST_* counter of a resource. -/
def Res.first : Res → Nat
  | .act => Reg.FLT_FIRST_ACT | .fab => Reg.FLT_FIRST_ACT + 4 | .arr => Reg.FLT_FIRST_ACT + 8
  | .vec => Reg.FLT_FIRST_ACT + 12 | .cpy => Reg.FLT_FIRST_ACT + 16 | .nrg => Reg.FLT_FIRST_ACT + 20

/-- Work or an action is still due at a landing. -/
def State.stillDue (s : State) (l : Nat) : Bool :=
  s.conc.items.any (fun i => i.due == l) || s.conc.mq.any (fun p => p.due == l) || s.conc.ops.any (fun o => o.pkt.due == l)
    || s.conc.sched.any (fun x => x.landing == l || x.pkt.any (fun p => p.due == l))

/-- The flight closes: its first refusal is counted (R100), each column in THROTTLE or HALT counts a landing (R446), and
the time of its landing is kept while work due at it remains (R90). -/
def State.closeFlight (s : State) : State :=
  let s := match s.flt.refused with
    | some r => s.bump r.first 1
    | none => if s.flt.inboxHeld then s.bump Reg.FLT_FIRST_ACT 1 else s
  let s := (upto 0 4).foldl (fun (s : State) k =>
    if (s.col k).temp == .throttle || (s.col k).temp == .halt then s.bump (stwReg k Reg.STW_THROT_CNT) 1 else s) s
  let l := s.hall.landing
  if s.stillDue l then s.modFlt (fun f => { f with dueTimes := mapSet f.dueTimes l s.hall.landingAt }) else s

/-! ### The number of the landing -/

/-- A step by d landings moves the due landing of everything pending with it, and every count of landings that runs (R60);
scheduled actions keep the landings they name (R61). -/
def State.shiftDue (s : State) (d : Int) : State :=
  let m := shiftBy d
  let pk := fun (p : MqPkt) => { p with due := m p.due }
  let it := fun (i : Item) => { i with
    due := m i.due
    accLanding := m i.accLanding
    admitAt := m i.admitAt
    chunks := i.chunks.map (fun (k : Chunk) => { k with flight := m k.flight }) }
  let s := s.modConc (fun c => { c with
    items := c.items.map it
    mq := c.mq.map pk
    ops := c.ops.map (fun (o : MgmtOp) => { o with pkt := pk o.pkt })
    sched := c.sched.map (fun (x : Sched) => { x with pkt := x.pkt.map pk })
    cmd := c.cmd.map (fun (n, r) => (n, { r with
      wbLanding := r.wbLanding.map m
      wait := match r.wait with
        | .cq l => .cq (m l)
        | w => w }))
    cpl := c.cpl.map (fun (n, r) => (n, { r with headRead := r.headRead.map m })) })
  let s := s.modFlt (fun f => { f with dueTimes := f.dueTimes.map (fun (l, t) => (m l, t)) })
  let sl := fun (v : VSlot) => { v with switched := m v.switched, zeroAt := v.zeroAt.map m }
  let tb := fun (t : Table) => { t with
    slot0 := sl t.slot0
    slot1 := sl t.slot1
    defined := m t.defined
    load := t.load.map (fun (k, c) => (k, { c with since := m c.since })) }
  let s := { s with dir := { s.dir with tables := s.dir.tables.map (fun (n, t) => (n, tb t)) } }
  s.modKite (fun k => { k with
    backoff := k.backoff.map (fun (h, l) => (h, m l))
    migSrc := k.migSrc.map (fun (x : Mig) => { x with pkt := x.pkt.map pk }) })

/-- The landing takes its number: the next one, or under a step the beacon's, with its phase and flight length (R59). -/
def State.takeNumber (s : State) (at_ : Nat) : State :=
  let next := s.hall.landing + 1
  match s.hall.stepPend with
  | none => s.modHall (fun h => { h with landing := next, landingAt := at_ })
  | some (b, ph, len, arr) =>
    let (new, pos, len) := project b (ph + (at_ - arr)) len s.hall.lenPend
    let s := s.shiftDue ((new : Int) - next)
    s.modHall (fun h => { h with
      landing := new, landingAt := at_ - pos, len := len, stepCnt := min 0xFFFF (h.stepCnt + 1), stepPend := none, slewNs := 0 })

/-! ### FLT_ROOT (R44, R45, R632) -/

/-- This engine is the root that a word of FLT_ROOT designates. -/
def State.isRoot (s : State) (w : Word) : Bool := w.bit 18 && w.bits 17 0 == s.engineId

/-- The synchronisation state that a write of FLT_ROOT leads to. -/
def State.roleOf (s : State) (w : Word) : SyncState :=
  if !w.bit 18 then .standalone
  else if s.isRoot w then .root
  else
    match s.hall.sync with
    | .standalone => .freeLong
    | .root => .synced
    | x => x

/-- A write of FLT_ROOT comes into force. -/
def State.takeRole (s : State) : State :=
  let w := s.hall.root
  if w = s.hall.rootInForce then s
  else
    let new := s.roleOf w
    let from_ := s.hall.sync
    let s := s.modHall (fun h => { h with
      rootInForce := w, sync := new, upActive := h.upActive && w.bit 28
      lastBeacon := if from_ == .standalone && new == .freeLong then none else h.lastBeacon })
    if new == .standalone || new == .root then
      s.modHall (fun h => { h with depth := 0, stepPend := none, slewNs := 0, goodRun := 0, resync := false })
    else s

/-! ### Step 2: the flight length (R67, R69, R55, R56) -/

/-- Record of a held action that runs (R56). -/
def State.heldRun (s : State) (landing : Nat) : State :=
  s.raise { code := 0x52, d0 := landing % 2 ^ 32, d1 := landing / 2 ^ 32 }

/-- The armed or announced length is taken up at its landing; in FREE_LONG it is held, and a held one waits until the
first landing after that state has been left. -/
def State.takeLength (s : State) (release : Bool) : State :=
  match s.hall.lenPend with
  | some (l, at_) =>
    if at_ > s.hall.landing then s
    else if s.hall.sync == .freeLong then s.modHall (fun h => { h with lenHeld := true })
    else if s.hall.lenHeld && !release then s
    else
      let s := if s.hall.lenHeld then s.heldRun at_ else s
      s.modHall (fun h => { h with len := l, lenPend := none, lenHeld := false })
  | none => s

/-! ### Step 3: the scheduled actions -/

/-- A shard in CUR or in the NEXT that waits lies in the balloon (R167). -/
def Table.anyBalloon (t : Table) : Bool :=
  t.shards.any (fun (_, e) => plTier e.cur == 1 || (e.pend && plTier e.next == 1))

/-- The table states from which TABLE_STATE reaches a target (R167). -/
def Table.mayEnter (t : Table) (target : Nat) : Bool :=
  match target with
  | 2 => t.st == .training
  | 3 => t.st == .serving && !t.replicated && !t.anyBalloon
  | _ => t.st == .loading || t.st == .serving || t.st == .training

/-- The change of state takes effect (R168, R179). -/
def Table.enter (t : Table) (target landing : Nat) : Table :=
  let left := t.st == .training
  match target with
  | 2 => { t with st := .serving, nocacheClr := true }
  | 3 => { t with st := .training, nocache := true, nocacheClr := false }
  | _ =>
    let sl := fun (v : VSlot) => match v.st with
      | .current => ⟨.old, landing, none⟩
      | .ready => { v with st := .empty }
      | .filling => { v with st := .empty }
      | _ => v
    { t with st := .retiring, slot0 := sl t.slot0, slot1 := sl t.slot1, nocacheClr := t.nocacheClr || left }

/-- A SWITCH takes effect (R170). -/
def Table.switchTo (t : Table) (slot landing : Nat) : Table :=
  let t := t.modSlot (1 - slot) (fun v => if v.st = .current then ⟨.old, landing, none⟩ else v)
  let t := t.modSlot slot (fun v => { v with st := .current })
  { t with cur := slot, st := if t.st = .loading then .serving else t.st }

/-- An EPOCH_BUMP takes effect on the directory entry (R189). -/
def Table.bump (t : Table) : Table :=
  { t with
    shards := t.shards.map (fun (k, e) => (k, { cur := if e.pend then e.next else e.cur, next := e.next, prev := e.cur, pend := false }))
    epoch := (t.epoch + 1) % 65536
    bumpPend := false }

/-- Shards whose homing here a bump changes start their counters again (R209). -/
def State.bumpLoads (s : State) (old new : Table) : Table :=
  { new with load := new.shards.foldl (fun (m : SMap LoadCnt) (k, _) =>
      if s.homes old k = s.homes new k then m else mapSet m k ⟨0, 0, 0, 0, s.hall.landing⟩) new.load }

/-- One action runs at this landing, and its record is written (R135). -/
def State.runAct (s : State) (x : Sched) : State :=
  let s := if x.held then s.heldRun x.landing else s
  let fin := fun (s : State) (st dt : Nat) => match x.pkt with
    | some p => s.endSched p x.named x.landing st dt
    | none => s
  let l := s.hall.landing
  match x.act with
  | .tableState id target =>
    match s.table id with
    | none => fin s St.badState 0
    | some t =>
      if !t.mayEnter target then fin s St.badState t.st.code
      else
        let s := s.modTable id (fun t => t.enter target l)
        let s := if target = 3 then (s.mntQueue (.table id (t.cur == 0) (t.cur == 1)) true false).1 else s
        fin s St.ok 0
  | .switch id slot =>
    match s.table id with
    | none => fin s St.badState 0
    | some t =>
      if t.st == .retiring || (t.slot slot).st != .ready then fin s St.badState (t.switchDetail slot)
      else fin (s.modTable id (fun t => t.switchTo slot l)) St.ok 0
  | .epochBump id =>
    match s.table id with
    | none => fin s St.badState 0
    | some _ => fin ((s.modTable id (fun t => s.bumpLoads t t.bump)).migBump id) St.ok 0
  | .migrate id shard target =>
    match x.pkt with
    | some p => s.migBegin p id shard target
    | none => s
  | .graceEnd id shard => s.graceDone id shard

/-- The actions that run at this landing, in order: held ones once FREE_LONG has been left, and those named for this
landing or for one that a step has passed (R55, R56, R61). -/
def State.actsNow (s : State) (release : Bool) : List Sched :=
  let now := s.conc.sched.filter (fun x =>
    if !x.named then true
    else if x.held then release && s.hall.sync != .freeLong
    else decide (x.landing ≤ s.hall.landing) && s.hall.sync != .freeLong)
  sortBy (fun x => if x.named then x.landing else s.hall.landing) (sortBy (·.seq) now)

/-- The scheduled actions of this landing. -/
def State.runActs (s : State) (release : Bool) : State :=
  let acts := s.actsNow release
  let s := s.modConc (fun c => { c with sched := (c.sched.filter (fun x => !acts.contains x)).map (fun x =>
    if x.named && !x.held && decide (x.landing ≤ s.hall.landing) then { x with held := true } else x) })
  acts.foldl (fun (s : State) x => s.runAct x) s

/-! ### What every landing does to tables (R164, R168, R176, R179, R207) -/

/-- An update item is bound to a table. -/
def State.updBound (s : State) (table : Nat) : Bool :=
  s.conc.items.any (fun i => match i.work with
    | .upd b _ _ _ _ _ _ _ _ _ => b.any (fun x => x.table == table)
    | _ => false)

/-- An OLD slot without references grows towards EMPTY, and becomes it at the second landing (R176). -/
def State.slotStep (s : State) (table slot : Nat) : State :=
  let l := s.hall.landing
  let refs := s.refs table slot
  s.modTable table (fun t => t.modSlot slot (fun v =>
    if v.st ≠ .old then v
    else if refs ≠ 0 then { v with zeroAt := none }
    else
      let z := v.zeroAt.getD l
      if l ≥ max v.switched z + 2 then ⟨.empty, v.switched, none⟩ else { v with zeroAt := some z }))

/-- The tables at a landing. -/
def State.tableStep (s : State) : State :=
  let ids := s.dir.tables.map (·.1)
  let s := ids.foldl (fun (s : State) id => (s.slotStep id 0).slotStep id 1) s
  let s := ids.foldl (fun (s : State) id =>
    let clr := !s.updBound id
    s.modTable id (fun t =>
      let t := { t with load := t.load.map (fun (k, c) => (k, { c with inFlight := 0 })) }
      if t.nocacheClr && clr then { t with nocache := false, nocacheClr := false } else t)) s
  let gone := fun (t : Table) => t.st == .retiring && t.slot0.st == .empty && t.slot1.st == .empty
  { s with dir := { s.dir with
    tables := s.dir.tables.filter (fun (_, t) => !gone t)
    grants := s.dir.grantsNext } }

/-! ### Galleries (R590, R591, R595) -/

/-- Fenced galleries leave ERR_GAL_EN, a spare that has passed its test enters it, and a count below FLOOR is acted on
once. -/
def State.galStep (s : State) : State :=
  let s := { s with gals := s.gals.map (fun (g : Gal) => if g.fenced then { g with enabled := false } else g) }
  let s := match s.err.spareReady with
    | some g =>
      ((s.modGal g (fun x => { x with enabled := true, on := true })).modErr (fun e => { e with spareReady := none })).raise
        { code := 0x32, kind := 1, unit := g }
    | none => s
  let s := s.takeSpareGal.noteCap
  let floor := s.rbits Reg.ENG_PROFILE 12 8
  if s.enabledCount ≥ floor then s.modErr (fun e => { e with belowFloor := false })
  else if s.err.belowFloor then s
  else
    let n := s.enabledCount
    ((s.modErr (fun e => { e with belowFloor := true })).requestDrain 5).setReplace.raise { code := 0x45, d0 := n, d1 := floor }

/-- A resident tile that can be spilled leaves a gallery that has been withdrawn (R546, R602). -/
def State.spillGal (s : State) (g : Nat) : State :=
  let busy := fun (k : Nat) => s.conc.items.any (fun i => i.admitted && i.tile == some k)
  let going := fun (s : State) => s.xlt.accs.any (fun a => match a.purpose with
    | .spill _ => true
    | _ => false)
  let cand := s.tiles.filter (fun (k, t) => t.home.any (fun h => h.1 == g) && !t.noSpill && !busy k
    && (s.spillBase t.tenant).isSome && (s.reg Reg.GAL_SPILL_CTL).bit 0)
  cand.foldl (fun (s : State) (k, t) =>
    if going s then s
    else
      let base := (s.spillBase t.tenant).getD 0 + t.num * 0x20000
      let (s, a) := s.chargeTileSpill.hostAcc reqBalloon t.tenant base 0x20000 (some (tileImage t)) (.spill k) false
      match a with
      | .committed => s.tileSpilled k
      | .waiting => s
      | .fault _ _ => s.spillFault k) s

/-- Tiles of withdrawn galleries go on leaving. -/
def State.spillWithdrawn (s : State) : State :=
  (galsWhere s.gals (fun g => g.enabled && (g.quiesced || g.testing))).foldl (fun (s : State) g => s.spillGal g) s

/-! ### Step 4: budgets (R71 to R75) -/

/-- Capacities of a flight (R71). -/
def State.capNow (s : State) : Bud :=
  let len := s.lenNs
  let p := s.prof
  let n := (s.gals.filter (fun g => g.enabled && !g.testing)).length
  { act := p.actPerUs * len / 1000
    fab := 50 * len
    arr := n * p.arrMhz * len / 1000
    vec := n * p.engMhz * len / 1000
    cpy := 8 * p.engMhz * len / 1000
    nrg := if s.active = 2 then 150 * len else 0 }

/-- The new flight: lag and trim, effective budgets and column shares (R75, R91, R93, R38), less what earlier flights took
(R79, R633). -/
def State.openFlight (s : State) : State :=
  let len := s.lenNs
  let cap := s.capNow
  let f := s.flt
  let lag := if f.lagClr then 0 else f.lag
  let trim := if 4 * lag ≤ len then lag else rne len 4
  let left := len - trim
  let h := if f.hotNext then 1 else 2
  let base := fun (off cap : Nat) => min (s.reg off).toNat cap * h
  let corr := if s.now ≥ f.nrg.corrEnd then 0 else f.nrg.corr
  let plain := fun (off cap : Nat) => rne (base off cap * left) (2 * len)
  let shares := (upto 0 4).map (fun k => rne (base Reg.FLT_BUDGET_ACT cap.act * (s.col k).temp.pct * left) (800 * len))
  let eff : Bud :=
    { act := sumNat shares
      fab := plain (Reg.FLT_BUDGET_ACT + 4) cap.fab
      arr := plain (Reg.FLT_BUDGET_ACT + 8) cap.arr
      vec := plain (Reg.FLT_BUDGET_ACT + 12) cap.vec
      cpy := plain (Reg.FLT_BUDGET_ACT + 16) cap.cpy
      nrg := rne ((base (Reg.FLT_BUDGET_ACT + 20) cap.nrg - 2 * (f.nrg.staticNj + corr)) * left) (2 * len) }
  let s := { s with stw := { s.stw with cols := s.stw.cols.map (fun (c : Col) => { c with frac := c.temp }) } }
  s.modFlt (fun f => { f with
    cap := cap
    eff := eff
    effAct := shares
    usedAct := [0, 0, 0, 0]
    usedPool := 0
    used := .zero
    origAct := false
    promo := .zero
    rsvAct := [0, 0, 0, 0]
    rsvFab := 0
    rsvNrg := 0
    lost := { Bud.zero with fab := f.debtFab, cpy := f.debtCpy, nrg := f.debtNrg }
    lostAct := f.debtAct
    debtAct := [0, 0, 0, 0]
    debtFab := 0
    debtCpy := 0
    debtNrg := 0
    refused := none
    inboxHeld := !s.kite.inbox.isEmpty
    lag := lag - trim
    trim := trim
    lagClr := false
    hot := f.hotNext
    nrg := { f.nrg with corr := corr } })

/-! ### The whole landing -/

/-- The slew of the flight now opening: at most an eighth of its length, until the offset is 10 ns or less (R59). -/
def State.takeSlew (s : State) : State :=
  let lim : Int := s.lenNs / 8
  let o := s.hall.slewNs
  let d : Int := if -10 ≤ o ∧ o ≤ 10 then 0 else max (-lim) (min lim o)
  s.modHall (fun h => { h with slewed := d, slewNs := o - d })

/-- Rings at a landing: polled ones are read (R111), moved heads are written back (R108), and HEAD of the completion rings
that are waited for is read (R126). -/
def State.ringStep (s : State) : State :=
  let s := s.conc.cmd.foldl (fun (s : State) (n, r) => (if r.poll then s.kick n else s).writeWb n) s
  let waits := (s.conc.cmd.filterMap (fun (_, r) => match r.wait with
    | .cq _ => some r.cq
    | _ => none)).eraseDups
  waits.foldl (fun (s : State) q => s.readHead q) s

/-- What a landing does beside the grid while the core runs (R70 steps 3 to 5). -/
def State.coreLanding (s : State) (release : Bool) : State :=
  let old := s
  let s := (s.runActs release).migLanding.migRecords.tableStep
  let s := State.mirror old s
  let s := s.modConc (fun c => { c with tenEff := c.ten })
  let s := s.galStep.openFlight
  let s := (s.conc.items.map (·.seq)).foldl (fun (s : State) q => (s.promoteAge q).promoteMargin q) s
  s.spillWithdrawn.ringStep.wake

/-- The next landing comes about (R70). While the handrail is in reset there is none; while the core is, the grid and the
galleries' power alone go on (R64). -/
def State.landing (s : State) : State :=
  if s.domHeld 1 then s
  else
    let at_ := s.nextLanding
    let s := s.due at_
    let core := !s.inReset
    let s := if core then s.closeFlight else s
    let s := s.modHall (fun h => { h with refLost := h.refLost && !h.refReturn, refReturn := false })
    let release := s.hall.sync != .freeLong
    let s := ((s.takeNumber at_).takeRole).takeLength release
    let s := (s.takeSlew).landingPulse
    if core then s.coreLanding release else s.galStep

/-- LANDING. -/
def execLanding (s : State) : Host.Outcome State Fault Refusal := came s s.landing

/-! ### Rows that name one effect of a landing

Each brings about the next landing when that landing brings about its effect, and does nothing otherwise (log 37). -/

/-- The next landing, when it has an effect. -/
def State.landingIf (s : State) (p : State → Bool) : State := let t := s.landing; if p t then t else s

/-- The next landing executes an action of the schedule table of some kind. -/
def State.actDone (s t : State) (kind : Sched → Bool) : Bool :=
  s.conc.sched.any (fun x => kind x && !t.conc.sched.any (fun y => y.seq == x.seq))

/-- FLIGHT_LENGTH_CHANGE (R69). -/
def execFlightLengthChange (s : State) : Host.Outcome State Fault Refusal :=
  came s (s.landingIf (fun t => s.hall.lenPend.isSome && t.hall.lenPend.isNone))

/-- SWITCH_TAKES_EFFECT (R170). -/
def execSwitchTakesEffect (s : State) : Host.Outcome State Fault Refusal :=
  came s (s.landingIf (fun t => s.actDone t (fun x => match x.act with
    | .switch _ _ => true
    | _ => false)))

/-- STATE_CHANGE_TAKES_EFFECT (R169). -/
def execStateChangeTakesEffect (s : State) : Host.Outcome State Fault Refusal :=
  came s (s.landingIf (fun t => s.actDone t (fun x => match x.act with
    | .tableState _ _ => true
    | _ => false)))

/-- EPOCH_BUMP_TAKES_EFFECT (R189). -/
def execEpochBumpTakesEffect (s : State) : Host.Outcome State Fault Refusal :=
  came s (s.landingIf (fun t => s.actDone t (fun x => match x.act with
    | .epochBump _ => true
    | _ => false)))

/-- MIGRATE_START (R294). -/
def execMigrateStart (s : State) : Host.Outcome State Fault Refusal :=
  came s (s.landingIf (fun t => s.actDone t (fun x => match x.act with
    | .migrate _ _ _ => true
    | _ => false)))

/-- GRACE_END (R300). -/
def execGraceEnd (s : State) : Host.Outcome State Fault Refusal :=
  came s (s.landingIf (fun t => s.actDone t (fun x => match x.act with
    | .graceEnd _ _ => true
    | _ => false)))

/-- A slot of a table is OLD. -/
def State.slotOld (s : State) (table slot : Nat) : Bool := (s.table table).any (fun t => (t.slot slot).st == .old)

/-- SLOT_EMPTY (R176). -/
def execSlotEmpty (table slot : Nat) (s : State) : Host.Outcome State Fault Refusal :=
  came s (s.landingIf (fun t => s.slotOld table slot && !t.slotOld table slot))

/-- HELD_RUN (R56). -/
def execHeldRun (s : State) : Host.Outcome State Fault Refusal :=
  came s (s.landingIf (fun t => s.actDone t (·.held) || (s.hall.lenHeld && !t.hall.lenHeld)))

/-- RESYNC_STEP (R59). -/
def execResyncStep (s : State) : Host.Outcome State Fault Refusal :=
  came s (s.landingIf (fun t => s.hall.stepPend.isSome && t.hall.stepPend.isNone))

/-- SPARE_ENABLED (R591). -/
def execSpareEnabled (s : State) : Host.Outcome State Fault Refusal :=
  came s (s.landingIf (fun t => s.err.spareReady.isSome && t.err.spareReady.isNone))

/-- FLOOR_BREACH (R595). -/
def execFloorBreach (s : State) : Host.Outcome State Fault Refusal :=
  came s (s.landingIf (fun t => !s.err.belowFloor && t.err.belowFloor))

end Sys2Proof.Machine
end

