-- ==== Sys2Proof/Machine/Sync.lean ====
section
/-! DEFINITION. Hall time beside the landing: beacons (R44 to R48, R53, R59), the loss of them (R51, R52), the reference
clock (R20), writes of FLT_ROOT and FLT_CTL (R632, R63, R93), and the energy window (R33, R76). -/
namespace Sys2Proof.Machine

open Sys2Proof.Config

/-! ### Sending -/

/-- Ports that carry beacons: lit, with their link up. -/
def State.beaconPorts (s : State) : List Nat :=
  ((upto 0 s.zp.ports.length).zip s.zp.ports).filterMap (fun (n, p) => if p.lit && p.up then some n else none)

/-- BEACON_SEND (R44): the root sends one beacon per microsecond on every enabled port. -/
def execBeaconSend (s : State) : Host.Outcome State Fault Refusal :=
  came s (
    if s.hall.sync != .root || s.domHeld 1 then s
    else
      let s := match s.hall.lastSent with
        | some t => s.due (t + 1000)
        | none => s
      let h := s.hall
      let s := s.beaconPorts.foldl (fun (s : State) p =>
        s.emit (.beacon p h.landing s.phaseNs h.len h.lenPend s.engineId 0)) s
      s.modHall (fun h => { h with lastSent := some s.now }))

/-! ### Receiving -/

/-- The engine takes beacons: a root is designated and is another engine, and YF_REFCLK is present (R45, R20). -/
def State.takesBeacons (s : State) : Bool :=
  s.hall.sync != .standalone && s.hall.sync != .root && !s.hall.refLost && !s.domHeld 1

/-- A beacon is one to accept (R46). -/
def State.beaconOk (s : State) (port : Nat) (b : Beacon) : Bool :=
  let w := s.hall.root
  (port == w.bits 23 20 || (w.bit 28 && port == w.bits 27 24)) && b.rootId == w.bits 17 0 && decide (b.depth ≤ 48) && b.good

/-- ns from a grid point to landing n, through a change of flight length named on the way. -/
def untilLanding (n landing pos len : Nat) (pend : Option (Nat × Nat)) : Int :=
  match pend with
  | some (l, at_) =>
    if landing < at_ ∧ at_ < n then ((at_ : Int) - landing) * (10 * len) - pos + ((n : Int) - at_) * (10 * l)
    else ((n : Int) - landing) * (10 * len) - pos
  | none => ((n : Int) - landing) * (10 * len) - pos

/-- Time of the last valid beacon on the port in use, and on the other one. -/
def Hall.lastActive (h : Hall) : Option Nat := if h.upActive then h.lastAlt else h.lastUp

/-- The port in use has been silent for 2 µs (R47). -/
def State.silent (s : State) : Bool :=
  match s.hall.lastActive with
  | some t => decide (s.now ≥ t + 2000)
  | none => true

/-- SYNCED is reached (R53). -/
def State.enterSynced (s : State) : State := s.modHall (fun h => { h with sync := .synced })

/-- A beacon's grid point is compared with this engine's grid (R53, R59, R63): an engine in SYNCED follows it; otherwise a
close one counts towards SYNCED, and any other makes the engine slew or step. -/
def State.compareGrid (s : State) (landing pos len : Nat) (pend : Option (Nat × Nat)) : State :=
  let target : Int := s.now + untilLanding (s.hall.landing + 1) landing pos len pend
  let off : Int := target - s.nextLanding
  let s := s.modHall (fun h => { h with phaseErr := off })
  let near := fun (d : Int) => decide (-(10 * len : Int) ≤ 2 * d ∧ 2 * d ≤ 10 * len)
  if s.hall.sync == .synced && !s.hall.resync && near off then
    s.modHall (fun h =>
      let l := if landing = h.landing then len else h.len
      { h with len := l, slewed := target - h.landingAt - 10 * l, slewNs := 0 })
  else
    let s := s.modHall (fun h => { h with resync := false })
    if -10 ≤ off ∧ off ≤ 10 then
      let s := s.modHall (fun h => { h with slewNs := 0, goodRun := h.goodRun + 1 })
      if s.hall.goodRun ≥ 4 then s.enterSynced else s
    else
      let s := s.modHall (fun h => { h with goodRun := 0 })
      if s.hall.stepPend.isNone && landing == s.hall.landing && near ((s.phaseNs : Int) - pos) then
        s.modHall (fun h => { h with slewNs := off })
      else s.modHall (fun h => { h with slewNs := 0, stepPend := some (landing, pos, len, s.now) })

/-- An accepted beacon: noted against its port; used, unless it comes over the port not in use while the other is heard
(R47); sent on (R44, R64); and compared. -/
def State.takeBeacon (s : State) (port : Nat) (b : Beacon) : State :=
  let up := port == s.hall.root.bits 23 20
  let silent := s.silent
  let s := s.modHall (fun h => if up then { h with lastUp := some s.now } else { h with lastAlt := some s.now })
  if up == s.hall.upActive && !silent then s
  else
    let (landing, pos, len) := project b.landing b.phaseNs b.len b.pendLen
    let s := s.modHall (fun h => { h with
      upActive := !up
      lastBeacon := some s.now
      lastLanding := landing
      depth := b.depth + 1
      lenPend := (match b.pendLen with
        | some (l, at_) => if at_ > h.landing then some (l, at_) else h.lenPend
        | none => h.lenPend) })
    let s := (s.beaconPorts.filter (· != port)).foldl (fun (s : State) p =>
      s.emit (.beacon p landing pos len b.pendLen b.rootId (b.depth + 1))) s
    s.compareGrid landing pos len b.pendLen

/-- BEACON (R46): a beacon arrives. -/
def execBeacon (port : Nat) (b : Beacon) (s : State) : Host.Outcome State Fault Refusal :=
  ran s (
    if !s.takesBeacons then s
    else if s.beaconOk port b then s.takeBeacon port b
    else s.modHall (fun h => { h with beaconDrop := h.beaconDrop + 1 }))

/-- UPSTREAM_SWITCH (R47): the port in use has been silent for 2 µs while valid beacons arrive on the other. -/
def execUpstreamSwitch (s : State) : Host.Outcome State Fault Refusal :=
  came s (
    let h := s.hall
    let other := if h.upActive then h.lastUp else h.lastAlt
    if !s.takesBeacons || !h.root.bit 28 then s
    else
      match h.lastActive, other with
      | some a, some b =>
        if b ≤ a ∨ max s.now (a + 2000) > b + 2000 then s
        else (s.due (a + 2000)).modHall (fun h => { h with upActive := !h.upActive })
      | none, some b => if s.now > b + 2000 then s else s.modHall (fun h => { h with upActive := !h.upActive })
      | _, none => s)

/-! ### Loss and return -/

/-- The engine enters FREE (R51, R20). -/
def State.enterFree (s : State) : State :=
  (s.modHall (fun h => { h with sync := .free, goodRun := 0 })).raise { code := 0x50, d0 := s.hall.lastLanding % 2 ^ 32 }

/-- SYNC_FREE (R51): 8 µs without a valid beacon. -/
def execSyncFree (s : State) : Host.Outcome State Fault Refusal :=
  came s (match s.hall.lastBeacon with
    | some t => if s.hall.sync == .synced && !s.domHeld 1 then (s.due (t + 8000)).enterFree else s
    | none => s)

/-- SYNC_FREE_LONG (R52): the free time exceeds 1,008 µs. -/
def execSyncFreeLong (s : State) : Host.Outcome State Fault Refusal :=
  came s (match s.hall.lastBeacon with
    | some t =>
      if s.hall.sync == .free && !s.domHeld 1 then
        ((s.due (t + us 1009)).modHall (fun h => { h with sync := .freeLong })).raise { code := 0x51 }
      else s
    | none => s)

/-- REFCLK_LOSS (R20): an engine in SYNCED enters FREE at once. Before the power-on source has released, the source waits
for the clock instead (R538); a loss while the handrail is held in reset makes no record (log 64). -/
def execRefclkLoss (s : State) : Host.Outcome State Fault Refusal :=
  ran s (
    let gone := s.modHall (fun h => { h with refLost := true, refReturn := false })
    if s.porHeld then { gone with rst := { s.rst with porUntil := none } }
    else if s.domHeld 1 then gone
    else if s.hall.refLost then s
    else
      let s := (s.modHall (fun h => { h with refLost := true, refReturn := false })).raise { code := 0x54 }
      if s.hall.sync == .synced then s.enterFree else s)

/-- REFCLK_RETURN (R20): the handrail returns to YF_REFCLK at the next landing. With the standby rail up, a power-on
source that waited for the clock releases 1,024 cycles later (R538). -/
def execRefclkReturn (s : State) : Host.Outcome State Fault Refusal :=
  ran s (
    let back := s.modHall (fun h => { h with refLost := false, refReturn := false })
    if s.porHeld then
      if s.rst.standby && s.rst.porUntil.isNone then { back with rst := { s.rst with porUntil := some (s.now + 10240) } } else back
    else if s.domHeld 1 then back
    else if s.hall.refLost then s.modHall (fun h => { h with refReturn := true })
    else s)

/-! ### Writes -/

/-- A write of FLT_ROOT (R632): it changes the synchronisation state at the next landing; the time of R51 counts from the
write for a root that is made to follow another. -/
def State.writeRoot (s : State) (w : Word) : State :=
  let w := w &&& 0x1FF7FFFF
  let s := s.modHall (fun h => { h with root := w })
  if s.hall.sync == .root && s.roleOf w == .synced then s.modHall (fun h => { h with lastBeacon := some s.now }) else s

/-- FLT_ROOT_WRITE: through the BAR or over the lane. -/
def execFltRootWrite (_path : Path) (w : Word) (s : State) : Host.Outcome State Fault Refusal :=
  ran s (if s.domHeld 1 then s else s.writeRoot w)

/-- FLT_CTL.RESYNC. -/
def State.askResync (s : State) : State := s.modHall (fun h => { h with resync := true })

/-- FLT_CTL.LAG_CLR. -/
def State.askLagClr (s : State) : State := s.modFlt (fun f => { f with lagClr := true })

/-- RESYNC (R63). -/
def execResync (s : State) : Host.Outcome State Fault Refusal := ran s (if s.inReset then s else s.askResync)

/-- LAG_CLR (R93). -/
def execLagClr (s : State) : Host.Outcome State Fault Refusal := ran s (if s.inReset then s else s.askLagClr)

/-! ### Energy (R33, R76) -/

/-- NRG_WINDOW: the measured static charge per flight, and the excess of the window's measured energy over what its
flights charged, spread over the flights of the next 1 ms. -/
def execNrgWindow (staticNj measuredNj : Nat) (s : State) : Host.Outcome State Fault Refusal :=
  ran s (
    if s.inReset then s
    else if s.active ≠ 2 then s.modFlt (fun f => { f with nrg := ⟨0, 0, 0, 0⟩ })
    else
      let len := max 1 s.lenNs
      let charged := s.flt.nrg.chargedPj + rne (1000 * (s.flt.nrg.staticNj * ms 1)) len
      let excess := 1000 * measuredNj - charged
      s.modFlt (fun f => { f with nrg :=
        { chargedPj := 0, corr := rne (excess * len) (1000 * ms 1), corrEnd := s.now + ms 1, staticNj := staticNj } }))

end Sys2Proof.Machine
end

