-- ==== Sys2Proof/Machine/Reset.lean ====
section
/-! DEFINITION. Resets (R535 to R560): the sources, the abort phase of a warm reset, what each reset clears, the release
sequence, the backup domain's counts (R568 to R571), boot (R564, R565) and the firmware watchdog (R612, R613). -/
namespace Sys2Proof.Machine

open Sys2Proof.Config

/-- Change the reset controller. -/
def State.modRst (s : State) (f : Rst → Rst) : State := { s with rst := f s.rst }

/-- Change boot. -/
def State.modBoot (s : State) (f : Boot → Boot) : State := { s with boot := f s.boot }

/-! ### The backup domain (R569) -/

/-- A cause asserts: its counter rises, and every cause but UNIT is noted with its landing. -/
def State.bkCount (s : State) (cause : Nat) : State :=
  s.modBk (fun b =>
    let b := { b with cnt := updAt b.cnt (cause - 1) (fun n => (n + 1) % 2 ^ 32) }
    if cause = 8 then b
    else { b with cause := cause, landing := if cause = 1 then 2 ^ 64 - 1 else s.hall.landing })

/-! ### The abort phase (R549) -/

/-- Every accepted packet that has no record ends with ST_ABORTED_RESET and the cause. -/
def State.abortRecords (s : State) (cause : Nat) : State :=
  let e : Ending := ⟨St.abortedReset, cause, 0⟩
  let s := (s.conc.items.map (·.seq)).foldl (fun (s : State) q => (s.letGo q).endItem q e) s
  let mqs := s.conc.mq ++ s.conc.ops.map (·.pkt) ++ s.conc.sched.filterMap (·.pkt) ++ s.kite.migSrc.filterMap (·.pkt)
    ++ (s.selftest.map (·.pkt)).toList
  mqs.foldl (fun (s : State) p => s.endMq p e.status e.detail e.aux) s

/-! ### What a reset clears (R550, R619, Reset values by domain) -/

/-- A register keeps its value through a warm reset (R617 for the debug registers). -/
def keptWarm (key : Nat) : Bool :=
  if regNorm key == Reg.ERR_INJECT then false
  else match regDom key with
    | .handrail | .persistent | .backup | .fused | .none => true
    | _ => false

/-- A register keeps its value through a power-on or cold reset. -/
def keptWide (key : Nat) : Bool :=
  match regDom key with
  | .persistent | .backup | .fused => true
  | _ => false

/-- A column through a warm reset: what R443 and R456 keep; spare rows of live remaps that were still being copied return
to their banks. -/
def Col.warm (c : Col) : Col :=
  { Col.reset with
    temp := c.temp
    frac := c.frac
    temps := c.temps
    sampled := c.sampled
    remap := c.remap
    pendRep := c.pendRep
    spareUsed := c.remapBusy.foldl (fun m p => mapPut m (p % 2048) (mapCnt m (p % 2048) - 1)) c.spareUsed
    lanes := c.lanes
    retired := c.retired
    spareExh := c.spareExh
    tableFull := c.tableFull
    refreshes := c.refreshes }

/-- A gallery through a warm reset. -/
def Gal.warm (g : Gal) : Gal :=
  { Gal.reset g.enabled with fenced := g.fenced, on := g.enabled && !g.fenced, ceHour := g.ceHour }

/-- A port through a warm reset: frames that its link layer does not yet hold are discarded when they are this engine's
own (R551). -/
def Port.warm (p : Port) : Port :=
  { p with held := p.held.take 1024 ++ (p.held.drop 1024).filter (·.transit) }

/-- The translation unit after a reset (R505, R500): ATTACHED when the link is up; a link that is down finds nothing to
reattach to when it comes up. -/
def Xlt.afterReset (x : Xlt) : Xlt :=
  { Xlt.reset with
    nextId := x.nextId
    atsAvail := x.atsAvail
    priAvail := x.priAvail
    link := x.link
    host := if x.link then .attached else .detached
    fresh := !x.link
    denseCredits := x.denseCredits }

/-- What a reset of the core domains clears and keeps beside registers. -/
def State.coreClear (s : State) : State :=
  { s with
    latch := s.latch.filter (fun x => keptWarm x.1)
    heldLo := s.heldLo.filter (fun x => keptWarm x.1)
    regs := s.regs.filter (fun x => keptWarm x.1)
    flt := { Flight.reset with hot := s.flt.hot, hotNext := s.flt.hotNext }
    conc := { Conc.reset with nextSeq := s.conc.nextSeq }
    dir := ⟨[], [], []⟩
    gals := s.gals.map Gal.warm
    tiles := []
    rc := { RCache.reset with off := s.rc.off, ueHour := s.rc.ueHour, pinGen := s.rc.pinGen + 1 }
    stw := { s.stw with cols := s.stw.cols.map Col.warm }
    kite := { Kites.reset with gens := s.kite.gens, nextServed := s.kite.nextServed, quarWait := true, nackWait := true }
    zp := ⟨s.zp.ports.map Port.warm⟩
    xlt := s.xlt.afterReset
    cpy := List.replicate 40 Chan.reset
    boot := { Boot.reset with fromLane := s.boot.fromLane }
    selftest := none
    err := { s.err with dbgScope := 0, injFlip := [], spareTest := none } }

/-- A warm reset of the core domains: the mirror of the directory is left with FREE entries (R158), and everything else
is cleared as R550 says. -/
def State.warmClear (s : State) : State := (State.mirror s { s with dir := ⟨[], [], []⟩ }).coreClear

/-- A power-on or cold reset of every domain it reaches: the core, DRAM contents and the handrail (R550, R579, R617, R23).
The error log, the store, the backup domain, the seal loop's state and the thermal trip stay. -/
def State.wideClear (s : State) : State :=
  let s := s.coreClear
  let s := { s with
    latch := []
    heldLo := []
    regs := s.regs.filter (fun x => keptWide x.1)
    flt := Flight.reset
    hall := { Hall.reset with landingAt := s.now, refLost := s.hall.refLost && !s.hall.refReturn }
    rc := { s.rc with off := [], ueHour := [] }
    stw := ⟨[], [], List.replicate 4 Col.reset⟩
    kite := { Kites.reset with nextServed := s.kite.nextServed }
    zp := ⟨List.replicate 16 Port.reset⟩
    gals := s.gals.map (fun (g : Gal) => { g with on := false, ceHour := 0 })
    boot := Boot.reset
    err := { Err.reset with log := s.err.log, seq := s.err.seq, sent := s.err.sent, therm := s.err.therm, core := s.err.core }
    pres := ⟨none, none, s.pres.sealOpen, s.pres.openRun, false, false⟩
    ps := { s.ps with unlocked := [], presRef := false, wearRef := false, drop := false, torn := false }
    laneReqs := [] }
  let s := s.pinsReset
  s.modRst (fun r => { r with refused := false })

/-! ### Sources (R537 to R545) -/

/-- A warm source asserts, with its cause: the abort phase begins in RUN; during a release the domains it reaches enter
reset again (R541, R544). -/
def State.warmStart (s : State) (cause : Nat) : State :=
  let hold := s.now + us 64
  let s := s.bkCount cause
  match s.rst.phase with
  | .run =>
    let low := !s.rst.large && (s.reg Reg.HR_RST_CTL).bit 1
    ((s.abortRecords cause).warmClear).modRst (fun r => { r with
      phase := .abort
      ready := 1
      warm := some hold
      abortEnd := some (s.now + us 50)
      assertAt := s.now
      gapFrom := none
      wide := false
      outLow := if low then some hold else none })
  | .abort => s
  | _ =>
    if s.domHeld 1 then s.modRst (fun r => { r with warm := some (if r.large then s.now + 160 else hold) })
    else
      let wide := s.rst.wide && decide (s.rst.ready < 2)
      (s.warmClear).modRst (fun r => { r with
        phase := .held
        step := 1
        ready := 1
        warm := some (if r.large then s.now + 160 else hold)
        gapFrom := if wide then r.gapFrom else none
        wide := wide })

/-- A power-on or cold source asserts: every domain enters reset at once. -/
def State.wideStart (s : State) : State :=
  let first := s.rst.phase == .run
  let at_ := if first then s.now else s.rst.assertAt
  (s.wideClear).modRst (fun r => { r with
    phase := .held
    step := 0
    ready := 0
    abortEnd := none
    warm := if r.abortEnd.isSome && r.large then some (s.now + 160) else r.warm
    assertAt := at_
    gapFrom := none
    wide := true
    pincfg := false
    outLow := some (at_ + us 64) })

/-- YF_RSTIN_ASSERT: the pin has been low for 1 µs (R539). -/
def execYfRstinAssert (s : State) : Host.Outcome State Fault Refusal :=
  ran s (
    if s.rst.coldPin then s
    else if !s.rst.standby then s.modRst (fun r => { r with coldPin := true })
    else ((s.bkCount 2).wideStart).modRst (fun r => { r with coldPin := true }))

/-- YF_RSTIN_RELEASE: the pin has been high for 1 µs (R539). -/
def execYfRstinRelease (s : State) : Host.Outcome State Fault Refusal :=
  ran s (s.modRst (fun r => { r with coldPin := false }))

/-- The terms of R540 for a write over the lane. -/
def State.laneTerms (s : State) : Bool := (s.reg Reg.HR_RST_CTL).bit 0 || s.presence

/-- What R540 makes of a write to HR_RST_CMD: none where the write is ignored; otherwise whether it is taken. -/
def State.rstCmdOk (s : State) (path : Path) (w : Word) : Option Bool :=
  let kind := w.bits 1 0
  if kind = 0 ∨ kind = 3 then none
  else if w.bits 31 16 ≠ 0xA5C3 then some false
  else match path with
    | .bar => some (kind == 1)
    | .lane => some s.laneTerms

/-- A write to HR_RST_CMD (R540, R541). -/
def State.rstCmd (s : State) (path : Path) (w : Word) : State :=
  if s.domHeld 1 then s
  else
    match s.rstCmdOk path w with
    | none => s
    | some false =>
      (s.modRst (fun r => { r with refused := true })).raise
        { code := 0x81, d0 := w.bits 1 0, d1 := (match path with | .bar => 0 | .lane => 1) }
    | some true =>
      if w.bits 1 0 = 1 then s.warmStart 4
      else
        let hold := if s.rst.large then 160 else us 64
        ((s.bkCount 3).wideStart).modRst (fun r => { r with coldCmd := some (s.now + hold) })

/-- WARM: a write of HR_RST_CMD with KIND 1. -/
def execWarm (path : Path) (w : Word) (s : State) : Host.Outcome State Fault Refusal :=
  ran s (if w.bits 1 0 = 1 then s.rstCmd path w else s)

/-- COLD: a write of HR_RST_CMD with KIND 2. -/
def execCold (path : Path) (w : Word) (s : State) : Host.Outcome State Fault Refusal :=
  ran s (if w.bits 1 0 = 2 then s.rstCmd path w else s)

/-! ### Supplies (R538, R562, R23, R574, R585) -/

/-- The standby rail falls: all state but the store's persisted words and the backup domain is lost, and a write being
persisted may be torn. -/
def State.railFall (s : State) : State :=
  let torn := match s.ps.busy with
    | some (x, _) => some (x.word, x.value)
    | none => s.ps.tornWord
  let s := s.wideClear
  { s with
    regs := []
    err := { s.err with log := [], seq := 0, sent := 0 }
    pres := ⟨none, none, s.pres.sealOpen, 0, false, false⟩
    ps := { s.ps with busy := none, queue := [], tornWord := torn }
    rst := { Rst.reset with
      phase := .held
      step := 0
      ready := 0
      por := true
      coldPin := s.rst.coldPin
      large := s.rst.large
      strap := 0
      standby := false
      wide := true
      outLow := some (s.now + us 64) } }

/-- STANDBY_RAIL_FALL. -/
def execStandbyRailFall (s : State) : Host.Outcome State Fault Refusal :=
  ran s (if s.rst.standby then s.railFall else s)

/-- POWER_ON: the standby rail rises; with YF_REFCLK good the power-on source releases after 1,024 cycles. A rail that was
up has dipped. The assertion is counted at once where the backup domain's contents stand, and in step 1 where they were
lost (R570). -/
def execPowerOn (s : State) : Host.Outcome State Fault Refusal :=
  let clock := !s.hall.refLost || s.hall.refReturn
  let s1 := if s.rst.standby then s.railFall else s
  let s1 := if s1.bk.gone then s1 else s1.bkCount 1
  let s1 := if s1.rst.coldPin then s1.bkCount 2 else s1
  ran s (s1.modRst (fun r => { r with
    standby := true
    porUntil := if clock then some (s.now + 10240) else none
    assertAt := s.now
    outLow := some (s.now + us 64) }))

/-- VBAK_LOSS: with the standby rail off, the backup domain's contents are lost. -/
def execVbakLoss (s : State) : Host.Outcome State Fault Refusal :=
  ran s (if s.rst.standby then s else s.modBk (fun b => { b with gone := true, valid := false }))

/-! ### The end of the abort phase and of a hold (R541) -/

/-- ABORT_PHASE_END: at most 50 µs after the source asserted, the domains are held in reset. -/
def execAbortPhaseEnd (s : State) : Host.Outcome State Fault Refusal :=
  ran s (
    if s.rst.phase != .abort then s
    else s.modRst (fun r => { r with
      phase := .held
      step := 1
      abortEnd := none
      warm := if r.large then some (s.now + 160) else r.warm }))

/-- RESET_HOLD_END: the self-timed source that ends its hold first releases. -/
def execResetHoldEnd (s : State) : Host.Outcome State Fault Refusal :=
  came s (
    if s.rst.phase == .abort then s
    else match s.rst.coldCmd, s.rst.warm with
      | some c, some w =>
        if c ≤ w then (s.due c).modRst (fun r => { r with coldCmd := none })
        else (s.due w).modRst (fun r => { r with warm := none })
      | some c, none => (s.due c).modRst (fun r => { r with coldCmd := none })
      | none, some w => (s.due w).modRst (fun r => { r with warm := none })
      | none, none => s)

/-! ### The release sequence (R543, R552 to R555) -/

/-- A source that still reaches step n's domain keeps it in reset; power-on is taken as released once its time has come. -/
def State.stepHeld (s : State) (n : Nat) : Bool :=
  (s.rst.por && s.rst.porUntil.isNone) || s.rst.coldPin || s.rst.coldCmd.isSome || (s.rst.warm.isSome && decide (n ≥ 2))

/-- The earliest time of the next step: in small style, 64 µs after the first assertion; in large style the gap after the
previous domain became ready (R552, R553). Step 1 is the one that measures the strap, so its style is applied when the
handrail is ready (`State.step1At`, log 64). -/
def State.stepDue (s : State) : Nat :=
  let por := s.rst.porUntil.getD 0
  let style :=
    if s.rst.step = 0 then 0
    else if s.rst.large then (s.rst.gapFrom.elim 0 (fun t => t + 10 * s.rbits Reg.HR_RST_GAP 15 0))
    else s.rst.assertAt + us 64
  max por style

/-- When step 1 was taken, by the style of the strap it measures: in small style not before 64 µs after the assertion
(log 64). -/
def State.step1At (s : State) (strap : Nat) : Nat :=
  if (strapBits (strap % 256)).testBit 0 then s.rst.stepAt else max s.rst.stepAt (s.rst.assertAt + us 64)

/-- RELEASE_STEP: the next step of the release sequence is taken. The release of the Zhoni datapath after a warm reset
starts the quarantine of R282 and the refusals of R335. -/
def execReleaseStep (s : State) : Host.Outcome State Fault Refusal :=
  came s (
    let n := s.rst.step + 1
    if (s.rst.phase != .held && s.rst.phase != .releasing) || s.rst.step != s.rst.ready || decide (n > 6) || s.stepHeld n then s
    else
      let s := s.due s.stepDue
      let s := s.modRst (fun r => { r with phase := .releasing, step := n, stepAt := s.now, por := false, porUntil := none })
      if n = 6 && s.kite.quarWait then
        s.modKite (fun k => { k with
          quarWait := false, nackWait := false
          quarAll := some (s.now + 2 * s.lifeNs), nackUntil := some (s.now + 2 * s.lifeNs) })
      else s)

/-! ### Readiness (R554) -/

/-- Galleries at a power-on or cold reset: those fenced in FENCE, and the sixteen lowest others enabled (R594). -/
def State.galsAtStart (s : State) : State :=
  let fence := fun (g : Nat) => (s.reg Reg.ENG_PROFILE).bit (13 + g)
  let en := (galsWhere s.gals (fun _ => true)).filter (fun g => !fence g) |>.take 16
  { s with gals := ((upto 0 s.gals.length).zip s.gals).map (fun (n, (g : Gal)) =>
    { g with enabled := en.contains n, fenced := fence n, on := false }) }

/-- A write cut short by a loss of power is resolved to one of its two values (R574). -/
def State.resolveTorn (s : State) : State :=
  match s.ps.tornWord with
  | none => s
  | some (w, v) =>
    let new := freeBool s.freeSeq
    let s := s.draw.modPs (fun p => { p with
      tornWord := none
      torn := true
      words := if new then mapSet p.words w v else p.words
      counts := if new then mapPut p.counts w (min psLimit (mapCnt p.counts w + 1)) else p.counts })
    s.raise { code := 0x83, d0 := w }

/-- Step 1's work: the strap, the copies of the persistent registers, the profile, the backup check, the drain state and
the galleries (R554, R570, R578, R594, R598, R24). -/
def State.step1Ready (s : State) (strap : Nat) : State :=
  let c := strap % 256
  let s := s.modRst (fun r => { r with strap := c, large := (strapBits c).testBit 0 })
  let s := { s with hall := { Hall.reset with landingAt := s.now, refLost := s.hall.refLost } }
  let s := s.resolveTorn
  let s := (upto 0 6).foldl (fun (s : State) w => match psRegOf w with
    | some off => s.setReg off (s.psValue w)
    | none => s) s
  let s := { s with active := s.rbits Reg.ENG_PROFILE 1 0 }
  let s := if s.bk.gone then
      ((s.modBk (fun _ => ⟨true, true, false, s.err.therm, 0, 0, List.replicate 8 0, false⟩)).bkCount 1).raise { code := 0x82 }
    else s
  let s := s.modErr (fun e => { e with
    drain := if s.replace then .requested else .none
    drainCause := if s.replace then 7 else 0
    hourStart := s.now })
  let s := s.modBoot (fun b => { b with fromLane := (strapBits c).testBit 3 })
  s.galsAtStart.noteCap

/-- Step 2's work: after a power-on or cold reset each die is read and the repair map applied; after a warm one the
pending repairs are made. -/
def State.step2Ready (s : State) (temps : List Int) : State :=
  if s.rst.wide then
    let s := (upto 0 4).foldl (fun (s : State) k => s.sampleCol k ((temps.drop (16 * k)).take 16)) s
    s.applyMap.modRst (fun r => { r with wide := false })
  else (upto 0 4).foldl (fun (s : State) k => s.colPending k) s

/-- Step 5's work: enabled galleries power up, and a spare whose test the reset cut short is tested anew. -/
def State.step5Ready (s : State) : State :=
  ({ s with gals := s.gals.map (fun (g : Gal) => { g with on := g.enabled && !g.fenced }) }).takeSpareGal

/-- Step 6's work: RUN; pin configuration after a power-on or cold reset (R555); YF_RSTOUT# rises (R559, R560); an engine
that was DRAINING is DRAINED (R598); the flight now open has its budgets. -/
def State.step6Ready (s : State) : State :=
  let s := if s.rst.pincfg then s else s.pinConfig
  let s := s.modRst (fun r => { r with
    phase := .run, outLow := r.outLow.filter (fun t => decide (s.now < t)) })
  let s := if s.err.drain == .draining then
      (s.modErr (fun e => { e with drain := .drained })).raise { code := 0x00, d0 := s.err.drainCause }
    else s
  s.openFlight.wake

/-- How long after its step a domain is ready; none for the stairwells' bring-up, whose time within 110 µs varies. -/
def State.readyNs (s : State) (n : Nat) : Nat :=
  match n with
  | 1 => 5000
  | 2 => if s.rst.wide then 0 else 1000
  | 3 => ceilDiv 8192000 s.prof.engMhz
  | _ => 1000

/-- DOMAIN_READY: the domain of the step taken last is ready. -/
def execDomainReady (strap : Nat) (temps : List Int) (s : State) : Host.Outcome State Fault Refusal :=
  came s (
    let n := s.rst.step
    if s.rst.phase != .releasing || n != s.rst.ready + 1 then s
    else
      let s := if n = 1 then s.modRst (fun r => { r with stepAt := s.step1At strap }) else s
      let s := s.due (s.rst.stepAt + s.readyNs n)
      let s := s.modRst (fun r => { r with ready := n, gapFrom := some s.now })
      match n with
      | 1 => s.step1Ready strap
      | 2 => s.step2Ready temps
      | 3 => s.walkDone
      | 5 => s.step5Ready
      | 6 => s.step6Ready
      | _ => s)

/-- Level of YF_RSTOUT# (R559, R560). -/
def State.rstOut (s : State) : Bool :=
  match s.rst.outLow with
  | none => true
  | some t => s.rst.phase == .run && decide (s.now ≥ t)

/-! ### Boot (R564, R565) -/

/-- First word of an image slot. -/
def slotBase (slot : Nat) : Nat := if slot = 0 then 4096 else 10240

/-- Largest image, in words. -/
abbrev imageWords : Nat := 6144

/-- The words of boot control that describe a slot: size in words, CRC, version (log 6). -/
def slotCtl (slot : Nat) : Nat := 577 + 3 * slot

/-- The image in a slot. -/
def State.slotImage (s : State) (slot : Nat) : List Byte :=
  wordsBytes ((upto (slotBase slot) (min imageWords (s.psStored (slotCtl slot)).toNat)).map s.psStored)

/-- A slot's CRC-32C and signature hold. -/
def State.slotOk (s : State) (slot : Nat) : Bool :=
  let b := s.slotImage slot
  decide (crc32c 0 b = (s.psStored (slotCtl slot + 1)).toNat) && imageOk b

/-- The management core starts (R613): the watchdog's control returns to its reset value and its count starts. -/
def State.fwStart (s : State) (slot : Nat) (ver : Word) : State :=
  s.modBoot (fun b => { b with
    state := 3
    slot := slot
    fwVer := ver
    wdogCtl := 0x000101F4
    wdogWritten := false
    wdogStart := s.now
    running := true })

/-- The boot ROM tries the active slot and then the other. -/
def State.bootStore (s : State) : State :=
  let a := (s.psStored 576).toNat % 2
  if s.slotOk a then s.fwStart a (s.psStored (slotCtl a + 2))
  else if s.slotOk (1 - a) then s.fwStart (1 - a) (s.psStored (slotCtl (1 - a) + 2))
  else (s.modBoot (fun b => { b with state := 4 })).raise { code := 0x92, d0 := 1 - a }

/-- BOOT: after step 4, the management core boots from the source that the strap names. -/
def execBoot (s : State) : Host.Outcome State Fault Refusal :=
  ran s (
    if s.boot.state != 0 || s.domHeld 4 then s
    else if s.boot.fromLane then s.modBoot (fun b => { b with state := 2, image := [], lastReq := none })
    else s.bootStore)

/-- BOOT_REQUEST: once per second the boot ROM asks for an image. -/
def execBootRequest (s : State) : Host.Outcome State Fault Refusal :=
  came s (
    if s.boot.state != 2 || s.domHeld 4 then s
    else
      let s := match s.boot.lastReq with
        | some t => s.due (t + ms 1000)
        | none => s
      (s.emit (.lane 7 0 0 [])).modBoot (fun b => { b with lastReq := some s.now }))

/-- The bytes of an image received so far, when they run from byte 0 without a gap. -/
def Boot.received (b : Boot) : Option (List Byte) :=
  if b.image.map (·.1) = upto 0 b.image.length then some (b.image.map (·.2)) else none

/-- BOOT_IMAGE: part of an image arrives over the lane; the image starts once it is whole and its checks hold (log 6). -/
def execBootImage (off : Nat) (data : List Byte) (s : State) : Host.Outcome State Fault Refusal :=
  ran s (
    if s.boot.state != 2 || s.domHeld 4 || decide (off + data.length > 24576) then s
    else
      let s := s.modBoot (fun b => { b with
        image := (((upto off data.length).zip data).foldl (fun m (a, x) => mapSet m a x) b.image) })
      match s.boot.received with
      | some img => if imageOk img then s.fwStart s.boot.slot (imageVersion img) else s
      | none => s)

/-! ### The firmware watchdog (R612, R613) -/

/-- The first stage: the management core restarts, and the packets it had taken from the queue end. -/
def State.fwRestart (s : State) : State :=
  let s := s.bump Reg.ERR_FW_RESTART_CNT 1
  let n := (s.reg Reg.ERR_FW_RESTART_CNT).toNat
  let pkts := s.conc.ops.map (·.pkt) ++ (s.selftest.map (·.pkt)).toList
  let s := s.modConc (fun c => { c with ops := [] })
  let s := { s with selftest := none, gals := s.gals.map (fun (g : Gal) => { g with testing := false }) }
  let s := pkts.foldl (fun (s : State) p => s.endMq p St.fwRestart n 0) s
  let s := s.modXlt (fun x => { x with accs := x.accs.filter (fun a => match a.purpose with
    | .fwImage _ => false
    | .counters _ => false
    | _ => true) })
  let s := s.modBoot (fun b => { b with
    state := 0, staged := none, wdogStage := 1, wdogStart := s.now, wdogCtl := 0x000101F4, wdogWritten := false })
  (s.raise { code := 0x90, d0 := n }).wake

/-- WDOG_EXPIRY. -/
def execWdogExpiry (s : State) : Host.Outcome State Fault Refusal :=
  came s (
    if !s.boot.running || !s.boot.wdogCtl.bit 16 || s.inReset then s
    else
      let s := s.due (s.boot.wdogStart + ms (s.boot.wdogCtl.bits 15 0))
      if s.boot.wdogStage = 0 then s.fwRestart
      else (s.raise { code := 0x91 }).warmStart 5)

/-- ERR_WDOG_KICK: firmware restarts the count and clears STAGE. -/
def execErrWdogKick (s : State) : Host.Outcome State Fault Refusal :=
  ran s (
    if !s.fwRuns || !s.boot.wdogCtl.bit 16 then s
    else s.modBoot (fun b => { b with wdogStage := 0, wdogStart := s.now }))

/-- ERR_WDOG_CTL_WRITE: firmware's one write after a start, while STAGE is 0. -/
def execErrWdogCtlWrite (w : Word) (s : State) : Host.Outcome State Fault Refusal :=
  ran s (
    if !s.fwRuns || s.boot.wdogWritten || s.boot.wdogStage != 0 || decide (w.bits 15 0 < 10) then s
    else s.modBoot (fun b => { b with wdogCtl := Word.ofNat (w.bits 16 0), wdogWritten := true, wdogStart := s.now }))

end Sys2Proof.Machine
end

