-- ==== Sys2Proof/Machine/MgmtSys.lean ====
section
/-! DEFINITION. The system control opcodes: SELFTEST (R602 to R604), FENCE (R593), UNIT_RESET (R545 to R548), DRAIN
(R600), PERSIST_WRITE, REPAIR_MAP_WRITE and WEAR_OVERRIDE (R458, R572 to R577), FW_LOAD and FW_ACCEPT (R566, R567),
DEBUG_ENABLE (R614), REMOTE_RESET (R136), HOST_LOSS_MODE (R497) and REATTACH (R504). -/
namespace Sys2Proof.Machine

open Sys2Proof.Config

/-! ### Galleries and self-test -/

/-- A gallery is idle (R546): no admitted chunk, no working tile, no resident held tile. -/
def State.galIdle (s : State) (g : Nat) : Bool :=
  (s.gal g).working.isNone
    && !s.conc.items.any (fun i => !i.chunks.isEmpty && (i.gallery == some g || !(i.work.bagsOn g).isEmpty))
    && !s.tiles.any (fun (_, t) => t.home.any (fun h => h.1 == g))

/-- Change the self-test in progress. -/
def State.modSelf (s : State) (f : SelfTest → SelfTest) : State := { s with selftest := s.selftest.map f }

/-- Every line of a slice is invalidated; pinned ways are not lines. -/
def State.dropSlice (s : State) (slice : Nat) : State :=
  (s.rcWithhold (fun t => rcSlice t.key == slice)).modRc (fun r => { r with
    lines := r.lines.filter (fun x => x.1 / 16 / 8192 != slice) })

/-- The next unit of the self-test is taken, or the packet ends (R602, R604). A gallery that cannot be taken is not
tested. -/
def selfNext (s : State) (fuel : Nat) : State :=
  match fuel, s.selftest with
  | 0, _ => s
  | _, none => s
  | f + 1, some t =>
    match t.gals, t.slices, t.cols with
    | g :: r, _, _ =>
      let x := s.gal g
      if x.fenced || (s.err.spareTest.any (fun y => y.1 == g)) || s.err.spareReady == some g then
        selfNext (s.modSelf (fun t => { t with gals := r, skipG := t.skipG ||| 2 ^ g })) f
      else
        let s := s.modSelf (fun t => { t with
          gals := r, cur := some (0, g), since := s.now, retest := none, started := if x.enabled then none else some s.now })
        if x.enabled then (s.modGal g (fun y => { y with testing := true })).spillGal g
        else (s.clearGalRegs g).modGal g (fun y => { y with on := true })
    | [], k :: r, _ =>
      (s.dropSlice k).modSelf (fun t => { t with
        slices := r, cur := some (1, k), since := s.now, retest := none, started := some s.now })
    | [], [], k :: r =>
      s.modSelf (fun t => { t with cols := r, cur := some (2, k), since := s.now, retest := none, started := some s.now })
    | [], [], [] =>
      ({ s with selftest := none }).endMq t.pkt St.ok
        (t.failG + t.failS * 2 ^ 18 + t.failC * 2 ^ 34 + t.skipG * 2 ^ 38) t.code

/-- The unit under test is returned, and the next one is taken. -/
def State.selfReturn (s : State) : State :=
  match s.selftest.bind (·.cur) with
  | none => s
  | some (kind, u) =>
    let s := s.modSelf (fun t => { t with cur := none })
    let s := if kind = 0 then s.modGal u (fun y => { y with testing := false, on := y.enabled && !y.fenced })
      else if kind = 1 then s.dropSlice u
      else s
    selfNext s 64

/-- The units a SELFTEST names: galleries, slices, columns; or the ending of a packet that names them wrongly. -/
def selfUnits (ws : List Word) : Except Ending (List Nat × List Nat × List Nat) :=
  let bitsOf := fun (w : Word) (n : Nat) => (upto 0 n).filter w.bit
  if lenOf ws = 1 then
    let unit := (ws.getD 2 0).bits 21 16
    let kind := (ws.getD 2 0).bits 23 22
    if kind = 3 ∨ (kind = 0 ∧ unit > 17) ∨ (kind = 1 ∧ unit > 15) ∨ (kind = 2 ∧ unit > 3) then .error (badAt 10)
    else .ok (if kind = 0 then [unit] else [], if kind = 1 then [unit] else [], if kind = 2 then [unit] else [])
  else
    match firstBad [rsvBad ws 2 31 16, rsvBad ws 8 31 18, rsvBad ws 9 31 16, rsvBad ws 10 31 4, nzBad (wordsBytes ws) 44 64] with
    | some e => .error e
    | none =>
      let gs := bitsOf (uw ws 2 0) 18
      let ss := bitsOf (uw ws 2 1) 16
      let cs := bitsOf (uw ws 2 2) 4
      if gs.isEmpty && ss.isEmpty && cs.isEmpty then .error (badAt 32) else .ok (gs, ss, cs)

/-- SELFTEST: the units are tested one after another. -/
def State.mgSelftest (s : State) (p : MqPkt) : State :=
  match selfUnits p.words with
  | .error e => s.mgEnd p e
  | .ok (gs, ss, cs) =>
    match gs.find? (fun g => (s.gal g).fenced) with
    | some g => s.endMq p St.fenced g 0
    | none =>
      let t : SelfTest :=
        { pkt := p, gals := gs, slices := ss, cols := cs, cur := none, started := none, since := s.now, retest := none,
          failG := 0, failS := 0, failC := 0, skipG := 0, code := 0 }
      selfNext { s with selftest := some t } 64

/-- SELFTEST: one at a time; a second waits in the queue. -/
def execSelftest (svcNs : Nat) (s : State) : Host.Outcome State Fault Refusal :=
  ran s (if s.selftest.isSome then s else s.mgRun 0x8040 svcNs State.mgSelftest)

/-- How long a unit's test takes (R602). -/
def State.selfNs (s : State) (kind : Nat) : Nat :=
  match kind with
  | 0 => us 200
  | 1 => ms 1
  | _ => if s.active = 2 then ms 403 else ms 252

/-- A slice leaves service after its self-test (R596). -/
def State.sliceFails (s : State) (slice : Nat) : State :=
  if s.rc.off.contains slice then s
  else (s.modRc (fun r => { r with off := setIns r.off slice })).raise { code := 0x33, kind := 2, unit := slice, d0 := 2 }

/-- The result of a unit's test (R603): a gallery or slice that fails is tested again at once. -/
def State.selfResult (s : State) (kind u code : Nat) (retest : Option Nat) : State :=
  let note := fun (s : State) (c : Nat) => s.modSelf (fun t => { t with
    code := if t.code = 0 then c else t.code
    failG := if kind = 0 then t.failG ||| 2 ^ u else t.failG
    failS := if kind = 1 then t.failS ||| 2 ^ u else t.failS
    failC := if kind = 2 then t.failC ||| 2 ^ u else t.failC })
  let fail := fun (s : State) (c again : Nat) => s.raise { code := 0x35, kind := kind + 1, unit := u, d0 := c, d1 := again }
  match retest with
  | none =>
    if code = 0 then s.selfReturn
    else if kind = 2 then (fail (note s code) code 0).selfReturn
    else (note s code).modSelf (fun t => { t with retest := some code, started := some s.now })
  | some c =>
    if code = 0 then
      ((fail s c 0).raise { code := 0xA0, kind := if kind = 0 then 1 else 0, unit := if kind = 0 then u else 0 }).selfReturn
    else
      let s := fail s code 1
      (if kind = 0 then s.fenceGal u 2 false else s.sliceFails u).selfReturn

/-- SELFTEST_UNIT_DONE: the test of the unit in hand ends. A gallery's starts once it is idle. -/
def execSelftestUnitDone (code : Nat) (s : State) : Host.Outcome State Fault Refusal :=
  came s (
    match s.selftest with
    | none => s
    | some t =>
      match t.cur with
      | none => s
      | some (kind, u) =>
        if s.inReset || (kind == 0 && t.started.isNone && !s.galIdle u) then s
        else if kind == 0 && (s.gal u).fenced then
          (s.modSelf (fun t => { t with skipG := t.skipG ||| 2 ^ u })).selfReturn.wake
        else ((s.due (t.started.getD s.now + s.selfNs kind)).selfResult kind u (code % 8) t.retest).wake)

/-- SELFTEST_IDLE_TIMEOUT: a gallery that is not idle 10 ms after it left assignment is returned untested. -/
def execSelftestIdleTimeout (s : State) : Host.Outcome State Fault Refusal :=
  came s (
    match s.selftest with
    | none => s
    | some t =>
      match t.cur with
      | some (0, g) =>
        if s.inReset || t.started.isSome || s.galIdle g then s
        else (((s.due (t.since + ms 10)).modSelf (fun t => { t with skipG := t.skipG ||| 2 ^ g })).selfReturn).wake
      | _ => s)

/-! ### FENCE -/

/-- Galleries that would serve after a fence. -/
def State.servingWithout (s : State) (g : Nat) : Nat :=
  s.servingCount - b2n ((s.gal g).enabled && !(s.gal g).fenced)

/-- FENCE. -/
def State.mgFence (s : State) (p : MqPkt) : State :=
  let g := p.arg % 32
  match firstBad [rsvBad p.words 2 31 21, chk (decide (g > 17)) (badAt 10)] with
  | some e => s.mgEnd p e
  | none =>
    if (s.gal g).fenced then s.endMq p St.fenced g 0
    else if s.servingWithout g < 8 then s.endMq p St.badState s.servingCount 0
    else (s.fenceGal g 4 false).mgOk p 0

/-- FENCE. -/
def execFence (svcNs : Nat) (s : State) : Host.Outcome State Fault Refusal := ran s (s.mgRun 0x8041 svcNs State.mgFence)

/-! ### UNIT_RESET -/

/-- A unit is quiesced. -/
def State.unitQuiesced (s : State) (kind u : Nat) : Bool :=
  match kind with
  | 0 => (s.gal u).quiesced
  | 1 => (s.chan u).quiesced
  | 2 => s.rc.quiesced.contains u
  | _ => (s.col u).quiesced

/-- A unit is idle (R546). -/
def State.unitIdle (s : State) (kind u : Nat) : Bool :=
  match kind with
  | 0 => s.galIdle u
  | 1 => !((s.cpyItems u true) ++ (s.cpyItems u false)).any Item.cpyStarted
  | 2 => !s.rc.misses.any (fun m => m.slice == u) && s.rc.running.isNone
  | _ => !s.kite.comb.any (fun c => columnOf (c.line * 64) == u)

/-- Quiesce or resume a unit; a copy channel's STOP goes with it (R546, R548). -/
def State.setQuiesced (s : State) (kind u : Nat) (q : Bool) : State :=
  match kind with
  | 0 => s.modGal u (fun g => { g with quiesced := q })
  | 1 =>
    let k := selKey Reg.CPY_CH_CTL u
    let w := (s.reg k).toNat / 2 * 2 + b2n q
    (s.setReg k (Word.ofNat w)).modChan u (fun c => { c with quiesced := q })
  | 2 => s.modRc (fun r => { r with quiesced := if q then setIns r.quiesced u else setDel r.quiesced u })
  | _ => s.modCol u (fun c => { c with quiesced := q })

/-- The registers of a block, at their reset values. -/
def State.clearRegs (s : State) (p : Nat → Bool) : State := { s with regs := s.regs.filter (fun x => !p x.1) }

/-- A register belongs to a copy channel. -/
def chanReg (u key : Nat) : Bool :=
  key / 0x1000000 == u && decide (Reg.CPY_CH_CTL ≤ key % 0x1000000) && decide (key % 0x1000000 ≤ Reg.CPY_CH_FILL)

/-- A register belongs to a column's block. -/
def colReg (u key : Nat) : Bool :=
  decide (0x170000 + 0x10000 * u ≤ key % 0x1000000) && decide (key % 0x1000000 < 0x180000 + 0x10000 * u)

/-- RESET's effect on a unit (R547). -/
def State.resetUnit (s : State) (kind u : Nat) : State :=
  match kind with
  | 0 => s.clearGalRegs u
  | 1 =>
    let s := s.clearRegs (chanReg u)
    (s.setReg (selKey Reg.CPY_CH_CTL u) (regReset Reg.CPY_CH_CTL ||| 1)).modChan u (fun c => { c with
      halt := false, stopRead := false, stopReadB := false })
  | 2 => s.dropSlice u
  | _ => (s.clearRegs (colReg u)).modCol u (fun c => { c.warm with quiesced := true })

/-- When a unit that is reset now is ready (R547, R554). -/
def State.unitReady (s : State) (kind : Nat) : Nat :=
  match kind with
  | 2 => s.now + ceilDiv 8192000 s.prof.engMhz
  | 3 => s.now + 1000
  | _ => s.now

/-- UNIT_RESET. -/
def State.mgUnitReset (s : State) (p : MqPkt) : State :=
  let u := p.arg % 64
  let kind := p.arg / 64 % 4
  let act := p.arg / 256 % 4
  let size := match kind with | 0 => 18 | 1 => 40 | 2 => 16 | _ => 4
  match firstBad [chk (decide (u ≥ size)) (badAt 10), chk (act == 3) (badAt 11), rsvBad p.words 2 31 26] with
  | some e => s.mgEnd p e
  | none =>
    match act with
    | 0 =>
      let s := s.setQuiesced kind u true
      (if kind = 0 then s.spillGal u else s).mgOk p 0
    | 1 =>
      let no := fun (n : Nat) => s.endMq p St.badState n 0
      if kind = 0 ∧ (s.gal u).fenced then s.endMq p St.fenced u 0
      else if !s.unitQuiesced kind u then no 0
      else if !s.unitIdle kind u then no 1
      else if kind = 2 ∧ s.rbits Reg.RC_PIN 3 0 ≠ 0 then no 2
      else if kind = 0 ∧ !(s.gal u).enabled then no 3
      else ((s.bkCount 8).resetUnit kind u).putOp p (.unitReset kind u (s.unitReady kind))
    | _ => (s.setQuiesced kind u false).mgOk p 0

/-- UNIT_RESET. -/
def execUnitReset (svcNs : Nat) (s : State) : Host.Outcome State Fault Refusal :=
  ran s (s.mgRun 0x8042 svcNs State.mgUnitReset)

/-- UNIT_RESET_DONE: the unit that was reset first is ready; a column makes its pending repairs (R454). -/
def execUnitResetDone (s : State) : Host.Outcome State Fault Refusal :=
  came s (match s.conc.ops.findSome? (fun o => match o.kind with
      | .unitReset k u t => some (o.pkt, k, u, t)
      | _ => none) with
    | some (p, k, u, t) =>
      let s := s.due t
      let s := if k = 3 then s.colPending u else s
      ((s.dropOp p.seq).mgOk p 0).wake
    | none => s)

/-! ### DRAIN -/

/-- DRAIN: its record follows the entry into DRAINED. -/
def State.mgDrain (s : State) (p : MqPkt) : State :=
  if s.err.drain == .drained then s.mgOk p 0 else (s.enterDraining 1).putOp p .drain

/-- DRAIN. -/
def execDrain (svcNs : Nat) (s : State) : Host.Outcome State Fault Refusal := ran s (s.mgRun 0x8043 svcNs State.mgDrain)

/-- DRAINED: no context is held, no copy runs, and no control packet other than DRAIN is executing (R598). -/
def execDrained (s : State) : Host.Outcome State Fault Refusal :=
  let busy := s.conc.ops.any (fun o => o.kind != .drain) || s.selftest.isSome
  ran s (
    if s.inReset || s.err.drain != .draining || !s.conc.items.isEmpty || busy then s
    else
      let s := (s.modErr (fun e => { e with drain := .drained })).raise { code := 0x00, d0 := s.err.drainCause }
      (s.conc.ops.foldl (fun (s : State) o => (s.dropOp o.pkt.seq).mgOk o.pkt 0) s).wake)

/-! ### Persistent writes -/

/-- The first of a packet's writes that the store refuses, by word (R576). -/
def State.psRefused (s : State) (l : List (Nat × Word)) : Option Ending :=
  l.findSome? (fun (w, v) =>
    if s.psValue w = v then none
    else match s.psWear w with
      | .presence => some ⟨St.presence, s.presDetail (some w), 0⟩
      | .wear => some ⟨St.wearLimit, w, 0⟩
      | _ => none)

/-- A packet's writes are put to the store; words that hold the value already are not written (R573). -/
def State.psPacket (s : State) (p : MqPkt) (l : List (Nat × Word)) : State :=
  match s.psRefused l with
  | some e => s.mgEnd p e
  | none =>
    let l := l.filter (fun x => s.psValue x.1 != x.2)
    let s := l.foldl (fun (s : State) x => s.rwpSet x.1 x.2) s
    match l.getLast? with
    | none => s.mgOk p 0
    | some (w, _) => (s.putOp p (.persist l w)).psOps

/-- PERSIST_WRITE (R572). -/
def State.mgPersist (s : State) (p : MqPkt) : State :=
  let w := (uw p.words 2 0).bits 13 0
  let v := uw p.words 2 1
  if (640 ≤ w ∧ w < 4096) then s.psPacket p [(w, v)]
  else if w < 6 then
    match s.rwpValue w v with
    | some v => s.psPacket p [(w, v)]
    | none => s.mgEnd p (badAt 36)
  else s.mgEnd p (badAt 32)

/-- PERSIST_WRITE. -/
def execPersistWrite (svcNs : Nat) (s : State) : Host.Outcome State Fault Refusal :=
  ran s (s.mgRun 0x8050 svcNs State.mgPersist)

/-- A gated packet runs with presence, or ends without it (R152, R153). -/
def State.gated (s : State) (p : MqPkt) (f : State → State) : State :=
  if s.presence then f s else s.endMq p St.presence (s.presDetail none) 0

/-- What is wrong with a repair entry at a word of a packet (R457, R458). -/
def repairBad (ws : List Word) (word : Nat) : Option Ending :=
  let e := ws.getD word 0
  let lane := e.bits 28 27 == 1
  firstBad [
    chk (e.bit 31 && lane && decide (e.bits 21 13 > 287)) (badAt (4 * word + 1)),
    chk (e.bit 31 && e.bits 28 27 == 0 && decide (e.bits 26 13 > 12287)) (badAt (4 * word + 1)),
    chk (e.bit 31 && lane && e.bits 26 22 != 0) (badAt (4 * word + 2)),
    chk (e.bit 31 && decide (e.bits 28 27 > 1)) (badAt (4 * word + 3)),
    chk (e.bit 29 || e.bit 30) (badAt (4 * word + 3))]

/-- REPAIR_MAP_WRITE (R458). -/
def State.mgRepair (s : State) (p : MqPkt) : State :=
  let ws := p.words
  let first := (uw ws 2 0).bits 8 0
  let count := (uw ws 2 0).bits 15 10
  let need := 2 + ceilDiv (count - 7) 8
  match firstBad [
      rsvBad ws 8 9 9, rsvBad ws 8 31 16, chk (decide (count < 1) || decide (count > 55)) (badAt 33),
      chk (lenOf ws != need) (badLen need), chk (decide (first + count > 512)) (badAt 32),
      (upto 0 count).findSome? (fun j => repairBad ws (9 + j))] with
  | some e => s.mgEnd p e
  | none => s.gated p (fun s => s.psPacket p ((upto 0 count).map (fun j => (64 + first + j, ws.getD (9 + j) 0))))

/-- REPAIR_MAP_WRITE. -/
def execRepairMapWrite (svcNs : Nat) (s : State) : Host.Outcome State Fault Refusal :=
  ran s (s.mgRun 0x8051 svcNs State.mgRepair)

/-- WEAR_OVERRIDE (R577). -/
def State.mgOverride (s : State) (p : MqPkt) : State :=
  if p.arg ≥ psWords then s.mgEnd p (badAt 10)
  else s.gated p (fun s => (s.modPs (fun x => { x with unlocked := setIns x.unlocked p.arg })).mgOk p 0)

/-- WEAR_OVERRIDE. -/
def execWearOverride (svcNs : Nat) (s : State) : Host.Outcome State Fault Refusal :=
  ran s (s.mgRun 0x8063 svcNs State.mgOverride)

/-! ### Firmware images -/

/-- The read of a firmware image from host memory (R566). -/
def State.fwAsk (s : State) (p : MqPkt) (addr size : Nat) : State :=
  let r := (s.putOp p (.fwLoad size)).hostAcc reqMgmt p.tenant addr (4 * size) none (.fwImage p.seq) false
  match r.2 with
  | .fault perm at_ => (r.1.dropOp p.seq).endMq p (xlStatus perm) (at_ - addr) 0
  | _ => r.1

/-- A control packet whose fields are bad ends so; any other one has its effect. -/
def State.mgUnless (s : State) (p : MqPkt) (bad : Option Ending) (good : State) : State :=
  match bad with
  | some e => s.mgEnd p e
  | none => good

/-- The checks of an FW_LOAD's fields. -/
def fwLoadBad (ws : List Word) : Option Ending :=
  let size := (uw ws 2 2).bits 12 0
  firstBad [chk (misaligned (uw64 ws 2 0) 64) (badAt 32), chk (decide (size < 1) || decide (size > imageWords)) (badAt 40)]

/-- FW_LOAD (R566): the image is read into staging. -/
def State.mgFwLoad (s : State) (p : MqPkt) : State :=
  s.mgUnless p (fwLoadBad p.words) (s.fwAsk p (uw64 p.words 2 0) ((uw p.words 2 2).bits 12 0))

/-- FW_LOAD. -/
def execFwLoad (svcNs : Nat) (s : State) : Host.Outcome State Fault Refusal := ran s (s.mgRun 0x8060 svcNs State.mgFwLoad)

/-- The image has come: it is checked, and staged when its checks hold. -/
def State.fwGot (s : State) (seq : Nat) (data : List Byte) (poison : Bool) : State :=
  match s.conc.ops.find? (fun o => o.pkt.seq == seq) with
  | none => s
  | some o =>
    let s := s.dropOp seq
    if imageOk data && !poison then (s.modBoot (fun b => { b with staged := some data })).mgOk o.pkt 0
    else s.endMq o.pkt St.crcMismatch (crc32c 0 data) 0

/-- The words that FW_ACCEPT writes: the image into the inactive slot, what boot control says of it, and the active slot
last (R567; log 6). -/
def State.fwWords (s : State) (img : List Byte) : List (Nat × Word) :=
  let slot := 1 - (s.psValue 576).toNat % 2
  let n := img.length / 4
  (upto 0 n).map (fun k => (slotBase slot + k, Word.ofNat (ofLe ((img.drop (4 * k)).take 4))))
    ++ [(slotCtl slot, Word.ofNat n), (slotCtl slot + 1, Word.ofNat (crc32c 0 img)), (slotCtl slot + 2, imageVersion img),
        (576, Word.ofNat slot)]

/-- FW_ACCEPT. -/
def State.mgFwAccept (s : State) (p : MqPkt) : State :=
  s.gated p (fun s => match s.boot.staged with
    | none => s.mgBadState p
    | some img => s.psPacket p (s.fwWords img))

/-- FW_ACCEPT. -/
def execFwAccept (svcNs : Nat) (s : State) : Host.Outcome State Fault Refusal := ran s (s.mgRun 0x8061 svcNs State.mgFwAccept)

/-! ### DEBUG_ENABLE and REMOTE_RESET -/

/-- DEBUG_ENABLE (R614). -/
def State.mgDebug (s : State) (p : MqPkt) : State :=
  match rsvBad p.words 2 31 18 with
  | some e => s.mgEnd p e
  | none =>
    let scope := p.arg % 4
    s.gated p (fun s => ((s.modErr (fun e => { e with dbgScope := scope })).raise { code := 0x02, d0 := scope }).mgOk p 0)

/-- DEBUG_ENABLE. -/
def execDebugEnable (svcNs : Nat) (s : State) : Host.Outcome State Fault Refusal := ran s (s.mgRun 0x8062 svcNs State.mgDebug)

/-- REMOTE_RESET: a warm reset with cause REMOTE_RESET; a successful one has no record (R136). -/
def State.mgRemote (s : State) (p : MqPkt) : State := s.gated p (fun s => s.warmStart 6)

/-- REMOTE_RESET. -/
def execRemoteReset (svcNs : Nat) (s : State) : Host.Outcome State Fault Refusal := ran s (s.mgRun 0x8064 svcNs State.mgRemote)

/-! ### The host's loss -/

/-- HOST_LOSS_MODE (R497). -/
def State.mgHostLoss (s : State) (p : MqPkt) : State := s.psPacket p [(2, Word.ofNat (p.arg % 4))]

/-- HOST_LOSS_MODE. -/
def execHostLossMode (svcNs : Nat) (s : State) : Host.Outcome State Fault Refusal := ran s (s.mgRun 0x8070 svcNs State.mgHostLoss)

/-- Code of XLT_HOST.STATE (R498). -/
def HostSt.code : HostSt → Nat
  | .attached => 0 | .detached => 1 | .attaching => 2

/-- An entry with SUSPENDED set. -/
def TenEntry.suspend (e : TenEntry) : TenEntry := { e with w0 := e.w0 ||| 0x00400000 }

/-- The engine is ATTACHED again (R504). -/
def State.attach (s : State) (resume : Bool) : State :=
  let sus := fun (l : SMap TenEntry) => l.map (fun (k, (e : TenEntry)) => (k, if k = 0 || resume then e else e.suspend))
  (s.modConc (fun c => { c with ten := sus c.ten, tenEff := sus c.tenEff })).modXlt (fun x => { x with
    host := .attached, logHead := 0, logTail := 0 })

/-- The oldest entries of the detach log go to a buffer at a bus address. -/
def State.logCopy (s : State) (buf n : Nat) : State :=
  let lg := s.rbits Reg.XLT_DETACH_SIZE 4 0
  let s := (upto 0 n).foldl (fun (s : State) k =>
    let off := s.reg64 Reg.XLT_DETACH_BASE_LO + 64 * ((s.xlt.logHead + k) % 2 ^ lg)
    let r := s.stwRead off 64 .good
    r.1.emit (.hostWrite none (buf + 64 * k) r.2.data)) s
  s.modXlt (fun x => { x with logHead := x.logHead + n })

/-- The end of a REATTACH that has copied n entries: with none left in the log the engine is attached again (R504). -/
def State.reattached (s : State) (p : MqPkt) (n left : Nat) (clr : Bool) : State :=
  let s := if left = 0 then s.attach clr else s
  let s := s.endMq p St.ok (n + left * 2 ^ 32) 0
  if left = 0 then s.kickAll else s

/-- The checks of a REATTACH's fields. -/
def reattachBad (ws : List Word) : Option Ending :=
  let lg := (uw ws 2 2).bits 4 0
  firstBad [chk (misaligned (uw64 ws 2 0) 64) (badAt 32), chk (decide (lg < 12) || decide (lg > 30)) (badAt 40),
    rsvBad ws 10 7 5, rsvBad ws 10 31 9, nzBad (wordsBytes ws) 44 64]

/-- The entries that a REATTACH copies: as many as the log holds and the buffer takes. -/
def State.reattachN (s : State) (p : MqPkt) : Nat := min (2 ^ (uw p.words 2 2).bits 4 0 / 64) s.logUsed

/-- REATTACH (R504). -/
def State.mgReattach (s : State) (p : MqPkt) : State :=
  s.mgUnless p (reattachBad p.words)
    (if s.xlt.host != .attaching then s.endMq p St.badState s.xlt.host.code 0
    else
      (s.logCopy (uw64 p.words 2 0) (s.reattachN p)).reattached p (s.reattachN p)
        (s.logCopy (uw64 p.words 2 0) (s.reattachN p)).logUsed ((uw p.words 2 2).bit 8))

/-- REATTACH. -/
def execReattach (svcNs : Nat) (s : State) : Host.Outcome State Fault Refusal := ran s (s.mgRun 0x8071 svcNs State.mgReattach)

end Sys2Proof.Machine
end

