-- ==== Sys2Proof/Machine/HostLink.lean ====
section
/-! DEFINITION. The host's side: what a finished host access does (R115, R126, R491), the answers to translation and page
requests (R478 to R486), hot pages (R494 to R496), and the loss and return of the host link (R475, R497 to R503). -/
namespace Sys2Proof.Machine

open Sys2Proof.Config

/-! ### Finished accesses -/

/-- A migration's read of the balloon has finished (R295). -/
def State.migReadDone (s : State) (a : HAcc) (table shard first n : Nat) (r : HRes) : State :=
  match migFind s.kite.migSrc table shard, s.table table with
  | some m, some t =>
    (match r with
      | .data d => s.migSend m t first n d
      | _ => match r.fail a with
        | some (perm, at_) => s.endMig m (xlStatus perm) (at_ - t.balloon (m.slots.getD (first / t.shardLines) 0)) 0
        | none => s)
  | _, _ => s

/-- A write of COUNTERS_READ has finished (R206). -/
def State.countersDone (s : State) (a : HAcc) (seq : Nat) (r : HRes) : State :=
  match s.conc.ops.find? (fun o => o.pkt.seq == seq) with
  | none => s
  | some o =>
    let homed := match o.kind with
      | .counters n => n
      | _ => 0
    (match r.fail a with
      | some (perm, at_) => (s.dropOp seq).endMq o.pkt (xlStatus perm) (at_ - uw64 o.pkt.words 2 2) 0
      | none => (s.dropOp seq).mgOk o.pkt homed)

/-- A read of FW_LOAD's image has finished (R566). -/
def State.fwDone (s : State) (a : HAcc) (seq : Nat) (r : HRes) : State :=
  match s.conc.ops.find? (fun o => o.pkt.seq == seq) with
  | none => s
  | some o =>
    (match r with
      | .data d => s.fwGot seq d false
      | .poison _ => s.fwGot seq [] true
      | _ => match r.fail a with
        | some (perm, at_) => (s.dropOp seq).endMq o.pkt (xlStatus perm) (at_ - uw64 o.pkt.words 2 0) 0
        | none => s)

/-- TAIL of a ring has been read, for a reset (R139) or for its packets (R115); a read that fails leaves the ring as it
is. -/
def State.tailDone (s : State) (n : Nat) (r : HRes) : State :=
  let reset := s.conc.ops.any (fun o => o.kind == .ringReset n)
  match r with
  | .data d => if reset then s.resetTail n (some (ofLe (d.take 4))) else s.gotTail n (ofLe (d.take 4))
  | _ => if reset then s.resetTail n none else s

/-- Packets of a ring have been read (R109, R112). -/
def State.packetsDone (s : State) (n : Nat) (r : HRes) : State :=
  match r with
  | .data d =>
    let s := s.modCmd n (fun r => { r with buf := r.buf ++ d })
    takeUnits s n (((s.ring n).elim 0 (fun r => sub32 r.tail r.head)) + 2)
  | _ => s.readEnds n

/-- A finished host access takes its effect. -/
def State.hostDone (s : State) (a : HAcc) (r : HRes) : State :=
  match a.purpose with
  | .coldRow _ _ => s.itemAccess a r
  | p =>
    let s := s.dropAcc a.id
    match p with
    | .tail n => s.tailDone n r
    | .packets n _ => s.packetsDone n r
    | .cqHead q => (match r with
        | .data d => s.gotHead q (ofLe (d.take 4))
        | _ => s)
    | .wbHead _ => s
    | .record n _ irq => (match r with
        | .wrote => if irq then (match mapGet s.conc.cpl n with
            | some c => s.sendMsix (s.cplVector n c)
            | none => s) else s
        | _ => s)
    | .fwImage seq => s.fwDone a seq r
    | .counters seq => s.countersDone a seq r
    | .migRead t k first n => s.migReadDone a t k first n r
    | .migWrite t k first n => (match r with
        | .wrote => s.migWritten t k first n
        | _ => match r.fail a with
          | some (perm, at_) => s.migWriteFault t k first perm at_
          | none => s)
    | _ => s.itemAccess a r

/-- Try again every access that waits for a translation. -/
def State.retryAccs (s : State) : State :=
  let ids := (s.xlt.accs.filter (fun a => !a.issued)).map (·.id)
  ids.foldl (fun (s : State) id =>
    match s.xlt.accs.find? (fun a => a.id == id && !a.issued) with
    | none => s
    | some a =>
      let (s, r) := s.accTry a
      match r with
      | .committed => s.hostDone a .wrote
      | .fault perm at_ => s.hostDone a (.fault perm at_)
      | .waiting => s) s

/-- A read that has been sent. -/
def State.issuedRead (s : State) (id : Nat) : Option HAcc :=
  s.xlt.accs.find? (fun a => a.id == id && a.issued && a.write.isNone)

/-- HOST_READ_COMPLETION: a read that the engine has sent returns all its bytes, or returns poisoned. -/
def execHostReadCompletion (id : Nat) (data : List Byte) (poison : Option Nat) (s : State) : Host.Outcome State Fault Refusal :=
  ran s (match s.issuedRead id with
    | some a => if let some first := poison then (s.hostDone a (.poison first)).wake
        else if data.length = a.len then (s.hostDone a (.data data)).wake else s
    | none => s)

/-- COPY_READ_ERROR: an error completion of a read; a copy's source is read again while its channel's retries last
(R524), and any other read ends its work (R491). -/
def execCopyReadError (id first : Nat) (s : State) : Host.Outcome State Fault Refusal :=
  ran s (match s.issuedRead id with
    | some a => (match a.purpose with
        | .cpyRead seq n => (s.cpyReadErr a seq n first).wake
        | _ => (s.hostDone a (.err first)).wake)
    | none => s)

/-! ### Translation (R478 to R483) -/

/-- A page that is missing or lacks a permission, found by a translation: accesses that may not ask for it fail at once,
and for the others it is asked for where page requests can be made (R481, R482). -/
def State.pageMissing (s : State) (pasid page : Nat) (write : Bool) : State :=
  if s.priAllowed then
    let s := s.modXlt (fun x => { x with accs := x.accs.map (fun a =>
      if a.onPage pasid page && (a.noPri || a.prefetch) && !a.fails.any (fun f => f.1 == page)
      then { a with fails := a.fails ++ [(page, false)] } else a) })
    if s.xlt.accs.any (fun a => a.onPage pasid page && !(a.noPri || a.prefetch)) then s.priAsk pasid page write else s
  else s.pageFails pasid page write false

/-- ATS_COMPLETION: the host answers a translation request. -/
def execAtsCompletion (id : Nat) (r : AtsReply) (s : State) : Host.Outcome State Fault Refusal :=
  ran s (match s.xlt.ats.find? (fun a => a.id == id && a.sent) with
    | none => s
    | some a =>
      let s := s.modXlt (fun x => { x with ats := x.ats.filter (fun b => b.id != id) })
      let size := heldSize r.size
      let s := if r.present then s.tlbInsert ⟨a.pasid, a.page / size * size, size, r.r, r.w, s.now, []⟩ else s
      let ok := r.present && (if a.write then r.w else r.r)
      let s := if ok then s
        else if a.prefetch then s.bump Reg.XLT_PF_DROP_CNT 1
        else if a.afterPri then s.pageFails a.pasid a.page a.write r.present
        else s.pageMissing a.pasid a.page a.write
      (atsPump s.retryAccs (s.xlt.ats.length + 1)).wake)

/-- A page request is over without its page. -/
def State.priFails (s : State) (p : Pri) : State :=
  let s := s.modXlt (fun x => { x with pri := x.pri.filter (fun q => q.id != p.id) })
  s.pageFails p.pasid p.page p.write false

/-- What follows an answer to a page request: waiting requests are sent, and waiting accesses tried. -/
def State.priNext (s : State) : State := (priPump s (s.xlt.pri.length + 1)).retryAccs.wake

/-- PAGE_REQUEST_RESPONSE: the host answers a page request (R483). -/
def execPageRequestResponse (id : Nat) (r : PriReply) (s : State) : Host.Outcome State Fault Refusal :=
  ran s (match s.xlt.pri.find? (fun p => p.id == id && p.sent) with
    | none => s
    | some p =>
      match r with
      | .success =>
        let s := s.modXlt (fun x => { x with pri := x.pri.filter (fun q => q.id != id) })
        (s.atsAsk p.pasid p.page p.write false true 0).priNext
      | .invalid => (s.priFails p).priNext
      | .failure =>
        let s := (s.priFails p).modXlt (fun x => { x with priStop := true })
        ((s.xlt.pri.filter (fun q => !q.sent)).foldl (fun (s : State) q => s.priFails q) s).retryAccs.wake)

/-- PAGE_REQUEST_TIMEOUT: a page request has had no answer for TIMEOUT_MS. -/
def execPageRequestTimeout (id : Nat) (s : State) : Host.Outcome State Fault Refusal :=
  came s (match s.xlt.pri.find? (fun p => p.id == id && p.sent) with
    | none => s
    | some p =>
      let s := s.due (p.at_ + ms (s.rbits Reg.XLT_PRI_CFG 15 0))
      ((s.bump Reg.XLT_PRI_TIMEOUT_CNT 1).priFails p).priNext)

/-- ATS_INVALIDATION (R485): matching entries are removed, accesses that used them have been issued, and the completion is
sent. -/
def execAtsInvalidation (pasid addr size : Nat) (s : State) : Host.Outcome State Fault Refusal :=
  ran s (
    if s.inReset then s.emit (.invalDone pasid addr)
    else
      let s := s.modXlt (fun x => { x with tlb := x.tlb.filter (fun e =>
        !(e.pasid == pasid && decide (e.page < addr + size) && decide (addr < e.page + e.size))) })
      ((s.bump Reg.XLT_INVAL_CNT 1).emit (.invalDone pasid addr)).retryAccs.wake)

/-- PRI_ENABLE_CHANGE: the host's enables; PRI cleared and set again clears PRI_STOP (R480, R483). -/
def execPriEnableChange (ats pri : Bool) (s : State) : Host.Outcome State Fault Refusal :=
  ran s ((s.modXlt (fun x => { x with
    atsAvail := ats, priAvail := pri, priStop := x.priStop && !(pri && !x.priAvail) })).retryAccs.wake)

/-! ### Hot pages (R495, R496) -/

/-- A notification record, PHASE aside. -/
def State.hotWords (s : State) (h : HotCnt) : List Word :=
  [Word.ofNat (h.pasid % 2 ^ 20 + h.tenant * 2 ^ 20), Word.ofNat (h.table % 65536), Word.ofNat h.page, Word.ofNat (h.page / 2 ^ 32),
   Word.ofNat h.count, Word.ofNat ((match h.shard with
     | some k => k % 2 ^ 24 + 2 ^ 24
     | none => 0)), Word.ofNat (s.hall.landing + 1), 0]

/-- Write one notification record: to its ring, or to the detach log while the engine is not ATTACHED (R499). -/
def State.hotRecord (s : State) (h : HotCnt) : State × Bool :=
  let ws := s.hotWords h
  let lg := s.rbits Reg.XLT_HOT_CFG 5 1
  let tail := (s.reg Reg.XLT_HOT_TAIL).toNat
  let head := (s.reg Reg.XLT_HOT_HEAD).toNat
  if s.xlt.host != .attached then (s.detachLog ws 0 1, false)
  else if sub32 tail head ≥ 2 ^ lg then (s.bump Reg.XLT_HOT_DROP_CNT 1, false)
  else
    let bytes := wordsBytes (withPhase ws (tail / 2 ^ lg % 2 == 0))
    ((s.emit (.hostWrite none (s.reg64 Reg.XLT_HOT_BASE_LO + 32 * (tail % 2 ^ lg)) bytes)).bump Reg.XLT_HOT_TAIL 1, true)

/-- HOT_WINDOW_END: the window of XLT_HOT_CFG.WINDOW_MS ends. -/
def execHotWindowEnd (s : State) : Host.Outcome State Fault Refusal :=
  let cfg := s.reg Reg.XLT_HOT_CFG
  ran s (
    if !cfg.bit 0 || s.inReset then s
    else
      let (s, any) := (s.xlt.hot.filter (fun h => decide (h.count ≥ cfg.bits 31 16))).foldl (fun (acc : State × Bool) h =>
        let (s, w) := acc.1.hotRecord h
        (s, acc.2 || w)) (s, false)
      let s := s.modXlt (fun x => { x with hot := [] })
      if any then s.sendMsix (s.rbits Reg.XLT_HOT_VEC 10 0) else s)

/-! ### The host link (R475, R486, R497 to R503) -/

/-- The host-loss mode a link-down would fix: true for CONTINUE (R497). -/
def State.lossMode (s : State) : Bool :=
  let w := s.reg Reg.XLT_HLOSS
  if w.bit 1 then w.bit 0 else s.strap.testBit 1

/-- The engine is cut off: no translation is held, and every read outstanding and access waiting ends as a failed
translation. -/
def State.cutOff (s : State) : State :=
  let s := s.modXlt (fun x => { x with host := .detached, link := false, downSince := s.now, tlb := [], ats := [], pri := [] })
  let ids := s.xlt.accs.map (·.id)
  ids.foldl (fun (s : State) id =>
    match s.xlt.accs.find? (fun a => a.id == id) with
    | none => s
    | some a => (s.dropAcc id).hostDone a (.fault false a.addr)) s

/-- HOST_LINK_DOWN. -/
def execHostLinkDown (s : State) : Host.Outcome State Fault Refusal :=
  ran s (
    if s.inReset then s.modXlt (fun x => { x with link := false, host := .detached, fresh := true })
    else
      match s.xlt.host with
      | .detached => s
      | .attached =>
        let mode := s.lossMode
        let s := (s.modXlt (fun x => { x with mode := mode, logHead := 0, logTail := 0 })).cutOff
        ((s.bump Reg.XLT_LINKDOWN_CNT 1).raise { code := 0x70, d0 := b2n mode }).wake
      | .attaching =>
        let s := s.cutOff.raise { code := 0x70, d0 := b2n s.xlt.mode }
        let late := s.conc.mq.filter (fun p => p.op == 0x8071)
        (late.foldl (fun (s : State) p =>
          (s.modConc (fun c => Conc.noteMq { c with mq := c.mq.filter (fun q => q.seq != p.seq) })).endMq p St.badState 1 0) s).wake)

/-- HOST_LINK_UP: a DETACHED engine enters ATTACHING; one that a reset left without a link is ATTACHED (R500). -/
def execHostLinkUp (s : State) : Host.Outcome State Fault Refusal :=
  ran s (
    let s := s.modXlt (fun x => { x with link := true })
    match s.xlt.host with
    | .detached =>
      if s.xlt.fresh then (s.modXlt (fun x => { x with host := .attached, fresh := false })).kickAll.wake
      else (s.modXlt (fun x => { x with host := .attaching })).kickAll.wake
    | _ => s)

/-- HOST_LOSS_RESET: in SELF_RESET, 100 ms without a link. -/
def execHostLossReset (s : State) : Host.Outcome State Fault Refusal :=
  came s (
    if s.inReset || s.xlt.host != .detached || s.xlt.fresh || s.xlt.mode then s
    else (s.due (s.xlt.downSince + ms 100)).warmStart 7)

end Sys2Proof.Machine
end

