-- ==== Sys2Proof/Machine/Frames.lean ====
section
/-! DEFINITION. What frames and the fabric's timers bring about: arriving kites and answers (R283 to R301, R337, R527), the
router and the link layers (R264 to R292, R305, R306), tether slots (R276, R277, R282), the home's timers (R280, R325, R329
to R335), and the copy channel's two register commands (R521, R524). -/
namespace Sys2Proof.Machine

open Sys2Proof.Config

/-! ### Arriving frames -/

/-- A frame for this engine arrives at the kite terminal: one that is too old is discarded (R279), any other is taken up.
Nothing arrives while the handrail, which holds the router, is held in reset. -/
def State.arrival (s : State) (f : Frame) (act : State → State) : State :=
  if s.domHeld 1 then s
  else
    let (s, ok) := s.arrives f
    if ok then (act s).wake else s

/-- An answer for this engine arrives; while the Zhoni datapath is held in reset no tether is BUSY and its counters stay
at reset. -/
def State.answerArrival (s : State) (f : Frame) (act : State → State) : State :=
  s.arrival f (fun s => if s.domHeld 6 then s else act s)

/-- GATHER. -/
def execGather (f : Frame) (ecc : Ecc) (s : State) : Host.Outcome State Fault Refusal :=
  let f := { f with kind := kGather }
  ran s (s.arrival f (fun s => s.gatherArrive f ecc))

/-- A REPLY arrives, and the item its rows belong to goes on. -/
def State.replyTake (s : State) (f : Frame) : State :=
  match s.tetherOf f with
  | some t => (match t.owner with
    | .gather item _ _ _ => (s.replyArrive f).advance item
    | _ => s.replyArrive f)
  | none => s.replyArrive f

/-- REPLY. -/
def execReply (f : Frame) (s : State) : Host.Outcome State Fault Refusal :=
  let f := { f with kind := kReply }
  ran s (s.answerArrival f (fun s => s.replyTake f))

/-- A NACK answers its tether, and what the kite was for ends (R274, R275, R284). -/
def State.nackArrive (s : State) (f : Frame) : State :=
  match s.tetherOf f with
  | none => s.bump Reg.KITE_STALE_CNT 1
  | some t =>
    ((s.holdSlot f.slot).bump Reg.KITE_NACK_CNT 1).kiteEnds t.owner (some (f.arg0.bits 7 0)) (ofLe (f.payload.take 8)) t.dst

/-- NACK. -/
def execNack (f : Frame) (s : State) : Host.Outcome State Fault Refusal :=
  let f := { f with kind := kNack }
  ran s (s.answerArrival f (fun s => s.nackArrive f))

/-- UPDATE. -/
def execUpdate (f : Frame) (s : State) : Host.Outcome State Fault Refusal :=
  let f := { f with kind := kUpdate }
  ran s (s.arrival f (fun s => s.updCheck f))

/-- UPDATE_ACK. -/
def execUpdateAck (f : Frame) (s : State) : Host.Outcome State Fault Refusal :=
  let f := { f with kind := kUpdateAck }
  ran s (s.answerArrival f (fun s => s.updAckArrive f))

/-- MIG_START. -/
def execMigStart (f : Frame) (s : State) : Host.Outcome State Fault Refusal :=
  let f := { f with kind := kMigStart }
  ran s (s.arrival f (fun s => s.migStartArrive f))

/-- MIG_DATA. -/
def execMigData (f : Frame) (s : State) : Host.Outcome State Fault Refusal :=
  let f := { f with kind := kMigData }
  ran s (s.arrival f (fun s => s.migDataArrive f))

/-- MIG_ACK. -/
def execMigAck (f : Frame) (s : State) : Host.Outcome State Fault Refusal :=
  let f := { f with kind := kMigAck }
  ran s (s.answerArrival f (fun s => s.migAckArrive f))

/-- MIG_DONE. -/
def execMigDone (f : Frame) (s : State) : Host.Outcome State Fault Refusal :=
  let f := { f with kind := kMigDone }
  ran s (s.answerArrival f (fun s => s.migDoneArrive f))

/-- HALL_READ. -/
def execHallRead (f : Frame) (ecc : Ecc) (s : State) : Host.Outcome State Fault Refusal :=
  let f := { f with kind := kHallRead }
  ran s (s.arrival f (fun s => s.hallArrive f ecc))

/-- HALL_WRITE. -/
def execHallWrite (f : Frame) (s : State) : Host.Outcome State Fault Refusal :=
  let f := { f with kind := kHallWrite }
  ran s (s.arrival f (fun s => s.hallArrive f .good))

/-- HALL_ACK. -/
def execHallAck (f : Frame) (s : State) : Host.Outcome State Fault Refusal :=
  let f := { f with kind := kHallAck }
  ran s (s.answerArrival f (fun s => s.hallAckArrive f))

/-! ### The router and the link layers -/

/-- The time a frame has spent somewhere is added to its AGE, which saturates (R268). -/
def agedBy (f : Frame) (ns : Nat) : Frame := { f with age := min 0xFFFF (f.age + ns) }

/-- A frame for another engine passes the router (R266, R279, R287, R291): waitNs is the time it has spent in this router
and on the link before it. -/
def State.transit (s : State) (f : Frame) (waitNs : Nat) : State :=
  let f := agedBy f waitNs
  if f.dst = s.engineId then s
  else
    let (s, ok) := s.arrives f
    if !ok then s
    else if f.hops ≥ maxHops then s.bump Reg.ZP_HOPDROP_CNT 1
    else
      let (s, ok) := s.send f true
      if ok then s.bump Reg.ZP_TRANSIT_CNT 1 else s.unroutable f

/-- TRANSIT_FRAME. A frame whose DST is this engine goes to the kite terminal, under the command of its kind (R290). A frame
that came in at port `badCrc` with a CRC that fails is counted and discarded by the port, whoever it was for (R285, log 58). -/
def execTransitFrame (f : Frame) (waitNs : Nat) (badCrc : Option Nat) (s : State) : Host.Outcome State Fault Refusal :=
  ran s (if s.domHeld 1 then s else match badCrc with
    | some p => s.bump (selKey Reg.ZP_CRC_CNT p) 1
    | none => s.transit f waitNs)

/-- Send frames of a port that have come into its window. -/
def State.sendHeld (s : State) (port : Nat) (l : List HeldFrame) : State :=
  l.foldl (fun (s : State) h => s.emit (.frame port h.frame)) s

/-- LINK_ACK: the oldest count frames of a port are acknowledged, and queued ones take their places (R285). -/
def execLinkAck (port count : Nat) (s : State) : Host.Outcome State Fault Refusal :=
  let pt := s.port port
  let n := min count (min pt.held.length portWindow)
  let held := pt.held.drop n
  let go := ((held.drop (portWindow - n)).take n).map (fun (h : HeldFrame) =>
    { h with frame := agedBy h.frame (s.now - h.sent), sent := s.now })
  let held := held.take (portWindow - n) ++ go ++ held.drop portWindow
  ran s (if s.domHeld 1 || !pt.up then s else (s.modPort port (fun p => { p with held := held })).sendHeld port go)

/-- A port declares its link down: every frame it holds goes out on its other route, and one with none is handled as an
unroutable frame (R286, R287). -/
def State.linkDown (s : State) (port cause : Nat) : State :=
  let pt := s.port port
  if !pt.up then s
  else
    let s := s.modPort port (fun p => { p with up := false, settled := false, retryDown := cause == 1, held := [] })
    let s := s.raise { code := 0x53, kind := 5, unit := port, d0 := cause }
    pt.held.foldl (fun (s : State) h =>
      let f := agedBy h.frame (s.now - h.sent)
      match s.outPort f.dst with
      | some q => (s.putPort q f h.transit).bump Reg.ZP_FAILOVER_CNT 1
      | none => s.unroutable f) s

/-- The frame of a port's window whose last sending is the longest ago, by its place. -/
def oldestHeld (l : List HeldFrame) (at_ : Nat) (best : Option (Nat × HeldFrame)) : Option (Nat × HeldFrame) :=
  match l with
  | [] => best
  | h :: r => oldestHeld r (at_ + 1) (match best with
    | some (n, b) => if h.sent < b.sent then some (at_, h) else some (n, b)
    | none => some (at_, h))

/-- LINK_RETRANSMIT: 500 ns have passed since the sending of a frame that is not acknowledged (R285); after 8 failed
retransmissions the link is down (R286). -/
def execLinkRetransmit (port : Nat) (s : State) : Host.Outcome State Fault Refusal :=
  let pt := s.port port
  came s (
    match oldestHeld (pt.held.take portWindow) 0 none with
    | none => s
    | some (n, h) =>
      if s.domHeld 1 || !pt.up then s
      else
        let s := s.due (h.sent + 500)
        if h.tries ≥ 8 then (s.linkDown port 1).wake
        else
          let g : HeldFrame := { h with frame := agedBy h.frame (s.now - h.sent), sent := s.now, tries := h.tries + 1 }
          ((s.modPort port (fun p => { p with held := updAt p.held n (fun _ => g) })).bump (selKey Reg.ZP_RETX_CNT port) 1).emit
            (.frame port g.frame))

/-- LOSS_OF_LIGHT (R286). -/
def execLossOfLight (port : Nat) (s : State) : Host.Outcome State Fault Refusal :=
  ran s (if s.domHeld 1 then s else ((s.linkDown port 0).modPort port (fun p => { p with light := false })).wake)

/-- LINK_UP: the link of a port whose lasers are lit has trained (R16, R288). -/
def execLinkUp (port : Nat) (s : State) : Host.Outcome State Fault Refusal :=
  let pt := s.port port
  ran s (if s.domHeld 1 || !pt.lit || pt.up then s
    else (s.modPort port (fun p => { p with up := true, upSince := s.now, light := true })).wake)

/-- PRIMARY_ROUTE_RESTORE: a link has stayed up for 100 µs (R288). -/
def execPrimaryRouteRestore (port : Nat) (s : State) : Host.Outcome State Fault Refusal :=
  let pt := s.port port
  came s (if s.domHeld 1 || !pt.up then s
    else (s.due (pt.upSince + us 100)).modPort port (fun p => { p with settled := true }))

/-- The port that ZP_PORT_SEL selects. -/
def State.portSel (s : State) : Nat := s.rbits Reg.ZP_PORT_SEL 3 0

/-- ZP_PORT_CTL is written (R16, R264, R286, R305): EN = 1 is discarded while the engine has no valid ID. -/
def State.portCtl (s : State) (en : Bool) : State :=
  let p := s.portSel
  if s.domHeld 1 then s
  else if en then
    if (s.reg Reg.ZP_ID).bit 18 then s.modPort p (fun q => { q with lit := true }) else s
  else ((s.modPort p (fun q => { q with lit := false })).linkDown p 2).wake

/-- ZP_PORT_ENABLE. -/
def execZpPortEnable (_path : Path) (s : State) : Host.Outcome State Fault Refusal := ran s (s.portCtl true)

/-- ZP_PORT_DISABLE. -/
def execZpPortDisable (_path : Path) (s : State) : Host.Outcome State Fault Refusal := ran s (s.portCtl false)

/-- ZP_ROUTE is written: the entry that ZP_ROUTE_SEL selects changes for frames taken up from now on (R306). -/
def State.routeWrite (s : State) (w : Word) : State :=
  if s.domHeld 1 then s
  else s.setReg (selKey Reg.ZP_ROUTE (s.rbits Reg.ZP_ROUTE_SEL 12 0)) (w &&& regMask Reg.ZP_ROUTE)

/-- ZP_ROUTE_WRITE. -/
def execZpRouteWrite (_path : Path) (w : Word) (s : State) : Host.Outcome State Fault Refusal := ran s (s.routeWrite w)

/-! ### Tether slots -/

/-- A slot in a state, and since when. -/
def State.slotIn (s : State) (slot : Nat) (st : TethState) : Option Tether :=
  (mapGet s.kite.tethers slot).filter (fun t => t.st == st)

/-- SLOT_HELD_EXPIRE (R276). -/
def execSlotHeldExpire (slot : Nat) (s : State) : Host.Outcome State Fault Refusal :=
  came s (match s.slotIn slot .held with
    | some t => ((s.due (t.since + us 2)).freeSlot slot).wake
    | none => s)

/-- KITE_TIMEOUT (R277). -/
def execKiteTimeout (slot : Nat) (s : State) : Host.Outcome State Fault Refusal :=
  came s (match s.slotIn slot .busy with
    | some t =>
      ((((s.due (t.since + s.lifeNs)).quarSlot slot).bump Reg.KITE_TIMEOUT_CNT 1).kiteEnds t.owner none 0 t.dst).wake
    | none => s)

/-- QUARANTINE_END (R277); after a warm reset every slot ends its quarantine at once (R282). -/
def execQuarantineEnd (slot : Nat) (s : State) : Host.Outcome State Fault Refusal :=
  came s (match s.kite.quarAll with
    | some u => ((s.due u).modKite (fun k => { k with quarAll := none })).wake
    | none =>
      match s.slotIn slot .quar with
      | some t => ((s.due (t.since + 2 * s.lifeNs)).freeSlot slot).wake
      | none => s)

/-! ### The home's timers -/

/-- KITE_ABANDON (R280). A local kite of an item is no kite from another engine. -/
def execKiteAbandon (id : Nat) (s : State) : Host.Outcome State Fault Refusal :=
  came s (match s.servedOf id with
    | some v =>
      if v.item.isSome then s
      else ((s.due (v.arrived + s.lifeNs - us 32)).abandon id).wake
    | none => s)

/-- CREDIT_BACKOFF_END (R325). -/
def execCreditBackoffEnd (home : Nat) (s : State) : Host.Outcome State Fault Refusal := ran s (s.backoffEnd home).wake

/-- The inbox no longer holds a kite throughout the flight once it has been empty (R100). -/
def State.noteInbox (s : State) : State :=
  { s with flt := { s.flt with inboxHeld := s.flt.inboxHeld && !s.kite.inbox.isEmpty } }

/-- ADDER_TAKE (R329). -/
def execAdderTake (s : State) : Host.Outcome State Fault Refusal :=
  ran s (if s.domHeld 6 then s else s.adderTakeOne.noteInbox.wake)

/-- COMBINE_FLUSH (R329). -/
def execCombineFlush (line : Nat) (ecc : Ecc) (s : State) : Host.Outcome State Fault Refusal :=
  ran s (s.combFlush line ecc).wake

/-- UPDATE_APPLIED (R330). -/
def execUpdateApplied (id : Nat) (s : State) : Host.Outcome State Fault Refusal := ran s (s.updAnswer id).wake

/-- INBOX_TAKEUP_EXPIRE: the oldest kite of the inbox has not been taken up in time (R330). -/
def execInboxTakeupExpire (s : State) : Host.Outcome State Fault Refusal :=
  came s (match s.kite.inbox.head?.bind s.servedOf with
    | some v => ((s.due (v.arrived + s.lifeNs - us 33 + 1)).inboxExpire).noteInbox.wake
    | none => s)

/-- The earliest time at which a ledger entry expires. -/
def firstExpiry (l : List Ledger) : Option Nat :=
  l.foldl (fun (m : Option Nat) e => some (m.elim e.expires (fun x => min x e.expires))) none

/-- LEDGER_EXPIRE (R334). -/
def execLedgerExpire (s : State) : Host.Outcome State Fault Refusal :=
  came s (match firstExpiry s.kite.ledger with
    | some t => (s.due t).ledgerSweep
    | none => s)

/-- RESET_NACK_WINDOW_END (R335). -/
def execResetNackWindowEnd (s : State) : Host.Outcome State Fault Refusal :=
  came s (match s.kite.nackUntil with
    | some t => (s.due t).nackWindowEnd
    | none => s)

/-! ### Copy channels -/

/-- The channel that CPY_CH_SEL selects. -/
def State.chanSel (s : State) : Nat := s.rbits Reg.CPY_CH_SEL 5 0

/-- CPY_CH_STOP (R521). -/
def execCpyChStop (stop : Bool) (s : State) : Host.Outcome State Fault Refusal :=
  let k := selKey Reg.CPY_CH_CTL s.chanSel
  let w := s.reg k
  ran s (if s.domHeld 4 then s else (s.setReg k (if stop then w ||| 1 else w &&& 0xFFFFFFFE)).wake)

/-- CPY_HALT_CLEAR (R524). -/
def execCpyHaltClear (s : State) : Host.Outcome State Fault Refusal :=
  ran s (if s.domHeld 4 then s else (s.modChan s.chanSel (fun c => { c with halt := false })).wake)

end Sys2Proof.Machine
end

