-- ==== Sys2Proof/Machine/Faults.lean ====
section
/-! DEFINITION. Faults and the handrail's own duties (R586, R588 to R593, R598, R600, R609, R615, R637), and firmware's
telemetry (R149). -/
namespace Sys2Proof.Machine

open Sys2Proof.Config

/-! ### Galleries -/

/-- A gallery does its work: it is switched on and its domain is out of reset. -/
def State.galRuns (s : State) (g : Nat) : Bool :=
  decide (g < 18) && !s.domHeld 5 && (s.gal g).on && !(s.gal g).fenced

/-- A gallery's detector fires: the gallery is fenced (R589). -/
def State.galDetect (s : State) (g det : Nat) (injected : Bool) : State :=
  let s := s.raise { code := 0x30, kind := 1, unit := g, d0 := det, injected := injected }
  s.fenceGal g (if injected then 5 else 1) injected

/-- A gallery reports a correctable error (R589, R637). -/
def State.galCorrected (s : State) (g : Nat) (injected : Bool) : State :=
  let n := (s.gal g).ceHour + 1
  let s := s.modGal g (fun x => { x with ceHour := n })
  let s := s.raise { code := 0x10, kind := 1, unit := g, d0 := n, injected := injected }
  if n ≥ s.rbits Reg.ERR_CFG 15 0 then s.galDetect g 4 injected else s

/-- GAL_CE. -/
def execGalCe (gal : Nat) (s : State) : Host.Outcome State Fault Refusal :=
  ran s (if s.galRuns gal then (s.galCorrected gal false).wake else s)

/-- GAL_ERROR: detectors 1 to 3 of R589; the fourth is GAL_CE's count. -/
def execGalError (gal det : Nat) (s : State) : Host.Outcome State Fault Refusal :=
  ran s (if s.galRuns gal && decide (1 ≤ det) && decide (det ≤ 3) then (s.galDetect gal det false).wake else s)

/-- SPARE_TEST_DONE: the spare's self-test of 50 µs ends (R591). R591 names the fence of a failed spare and no other
effect. -/
def execSpareTestDone (pass : Bool) (s : State) : Host.Outcome State Fault Refusal :=
  came s (match s.err.spareTest with
    | some (g, t0) =>
      if s.inReset then s
      else
        let s := (s.due (t0 + us 50)).modErr (fun e => { e with spareTest := none })
        if pass then s.modErr (fun e => { e with spareReady := some g }) else (s.fenceGal g 2 false).wake
    | none => s)

/-- ERR_INJECT: the armed injection happens at its gallery's next step, and ARM clears (R615). -/
def execErrInject (s : State) : Host.Outcome State Fault Refusal :=
  let w := s.reg Reg.ERR_INJECT
  let g := w.bits 6 2
  ran s (
    if !w.bit 31 || !s.galRuns g then s
    else
      let s := s.setReg Reg.ERR_INJECT (w &&& 0x7FFFFFFF)
      match w.bits 1 0 with
      | 1 => (s.galCorrected g true).wake
      | 2 => (s.galDetect g 1 true).wake
      | 3 => s.modErr (fun e => { e with injFlip := setIns e.injFlip g })
      | _ => s)

/-- Seconds in nanoseconds. -/
def seconds (n : Nat) : Nat := n * 1000000000

/-- HOUR_WINDOW: the hourly counts return to 0 (R637). -/
def execHourWindow (s : State) : Host.Outcome State Fault Refusal :=
  let t := s.err.hourStart + seconds 3600
  came s (if s.domHeld 1 then s
    else
      let s := (s.due t).modErr (fun e => { e with hourStart := t })
      { s with gals := s.gals.map (fun (g : Gal) => { g with ceHour := 0 }), rc := { s.rc with ueHour := [] } })

/-! ### Drain and fence without firmware -/

/-- FATAL: an uncorrectable error in shared logic (R598, R601). -/
def execFatal (which : Nat) (s : State) : Host.Outcome State Fault Refusal :=
  ran s (if s.domHeld 1 then s else ((s.raise { code := 0xB0, d0 := which }).forceDrain 4).wake)

/-- A command of R609 over the lane is refused unless R540's terms for the lane hold. -/
def State.laneRefused (s : State) (path : Path) : Bool :=
  match path with
  | .bar => false
  | .lane => !s.laneTerms

/-- A command of R593 or R609 is refused. -/
def State.cmdRefused (s : State) : State := s.modErr (fun e => { e with cmdRefused := true })

/-- A write of ERR_DRAIN_CMD (R600, R609). -/
def State.drainCmd (s : State) (path : Path) (w : Word) : State :=
  if s.domHeld 1 then s
  else if s.laneRefused path then s.cmdRefused
  else if w.bits 31 16 = 0xD3A1 then (s.forceDrain 2).wake
  else s

/-- ERR_DRAIN_CMD. -/
def execErrDrainCmd (path : Path) (w : Word) (s : State) : Host.Outcome State Fault Refusal := ran s (s.drainCmd path w)

/-- A write of ERR_FENCE_CMD: it acts as FENCE does (R593, R609). -/
def State.fenceCmd (s : State) (path : Path) (w : Word) : State :=
  let g := w.bits 4 0
  if s.domHeld 1 then s
  else if s.laneRefused path || w.bits 31 16 != 0x5EC7 || decide (g > 17) || (s.gal g).fenced || decide (s.servingWithout g < 8)
    then s.cmdRefused
  else (s.fenceGal g 4 false).wake

/-- ERR_FENCE_CMD. -/
def execErrFenceCmd (path : Path) (w : Word) (s : State) : Host.Outcome State Fault Refusal := ran s (s.fenceCmd path w)

/-! ### Records and telemetry -/

/-- A write of ERR_PEND clears the bits it names (R588). -/
def State.pendClear (s : State) (w : Word) : State :=
  if s.domHeld 1 then s else s.setReg Reg.ERR_PEND (s.reg Reg.ERR_PEND &&& ~~~ w)

/-- ERR_PEND_CLEAR. -/
def execErrPendClear (_path : Path) (w : Word) (s : State) : Host.Outcome State Fault Refusal := ran s (s.pendClear w)

/-- ERROR_RECORD: the next record that has not been sent goes out over the lane (R586). -/
def execErrorRecord (s : State) : Host.Outcome State Fault Refusal :=
  ran s (
    if s.domHeld 1 || decide (s.err.sent ≥ s.err.seq) then s
    else
      (s.emit (.lane 5 0 0 ((mapGet s.err.log (s.err.sent % 1024)).getD []))).modErr (fun e => { e with sent := e.sent + 1 }))

/-- TELEMETRY: firmware sends one record in 2^DECIM over the lane; what it holds is free (R149; log 7). -/
def execTelemetry (s : State) : Host.Outcome State Fault Refusal :=
  ran s (
    if !s.fwRuns then s
    else if s.conc.teleCount + 1 < 2 ^ s.conc.decim then s.modConc (fun c => { c with teleCount := c.teleCount + 1 })
    else
      let words := (upto 0 (freeNat s.freeSeq % 16384)).map (telemetryWord s.freeSeq)
      ((s.draw.emit (.lane 6 0 0 words)).modConc (fun c => { c with teleCount := 0 })))

/-- TELEMETRY_WINDOW: a window of 1 ms of the control queue's fill ends (R149). -/
def execTelemetryWindow (s : State) : Host.Outcome State Fault Refusal :=
  ran s (
    if s.domHeld 4 then s
    else s.modConc (fun c => Conc.noteMq { c with
      decim := if c.mqHigh then min 6 (c.decim + 1) else if c.mqLow then c.decim - 1 else c.decim
      mqHigh := true
      mqLow := true }))

end Sys2Proof.Machine
end

