-- ==== Sys2Proof/Machine/RegValue.lean ====
section
/-! DEFINITION. What every register reads (R4 to R12, R619 to R631, and the field tables): a register that shows a part of
the state is computed from it, and every other one is the word it holds. -/
namespace Sys2Proof.Machine

open Sys2Proof.Config

/-! ### Where an access goes -/

/-- The gallery of an offset in the GALn blocks. -/
def galOf (off : Nat) : Nat := (off % 0x1000000 - 0x40000) / 0x10000

/-- The column of an offset in the STWk blocks. -/
def stwColOf (off : Nat) : Nat := (off % 0x1000000 - 0x170000) / 0x10000

/-- The offset lies in a GALn block. -/
def inGal (off : Nat) : Bool := decide (0x40000 ≤ off) && decide (off < 0x160000)

/-- The offset lies in a GALn block at or above 0xF000, which every block shows alike. -/
def galWide (off : Nat) : Bool := inGal off && decide (off % 0x10000 ≥ 0xF000)

/-- The offset lies in an STWk block. -/
def inStwBlk (off : Nat) : Bool := decide (0x170000 ≤ off) && decide (off < 0x1B0000)

/-- The key under which a register's word is held: the registers that a selector shows one of several of have one each. -/
def State.regKey (s : State) (off : Nat) : Nat :=
  let o := regNorm off
  if galWide off then o
  else if Reg.CPY_CH_CTL ≤ o ∧ o ≤ Reg.CPY_CH_FILL then selKey o s.chanSel
  else if o = Reg.ZP_RETX_CNT ∨ o = Reg.ZP_CRC_CNT then selKey o s.portSel
  else if o = Reg.ZP_ROUTE then selKey o (s.rbits Reg.ZP_ROUTE_SEL 12 0)
  else if inStwBlk off && (o == Reg.STW_REG_CFG || o == Reg.STW_REG_WAIT_CNT) then
    selKey off (s.rbits (stwReg (stwColOf off) Reg.STW_REG_SEL) 5 0)
  else off

/-- A source holds the register's domain in reset (R624). -/
def State.regHeld (s : State) (off : Nat) : Bool :=
  match regDom off with
  | .handrail => s.domHeld 1
  | .stairwells => s.domHeld 2
  | .cache => s.domHeld 3
  | .concourse => s.domHeld 4
  | .galleries => s.domHeld 5
  | .zhoni => s.domHeld 6
  | .persistent | .backup | .fused | .none => false

/-- A register of a gallery that is switched off (R625). -/
def State.galDark (s : State) (off : Nat) : Bool := inGal off && !galWide off && !(s.gal (galOf off)).on

/-- The value listed for an offset. -/
def pickReg (o : Nat) (l : List (Nat × Nat)) : Option Nat := (l.find? (fun x => x.1 == o)).map (·.2)

/-- A field that saturates at 16 or 32 bits. -/
def satBits (w n : Nat) : Nat := min n (2 ^ w - 1)

/-! ### Block by block -/

/-- ENG (R620 to R622, R628). -/
def State.liveEng (s : State) : List (Nat × Nat) :=
  let p := s.prof
  let gone := maskOf (s.err.tempFence.map (· + 13))
  [(Reg.ENG_ID, 0xF7 + b2n revB1 * 2 ^ 16 + 2 ^ 20),
   (Reg.ENG_SERIAL_LO, serial % 2 ^ 32),
   (Reg.ENG_SERIAL_HI, serial / 2 ^ 32 % 2 ^ 32),
   (Reg.ENG_PROFILE, (s.reg Reg.ENG_PROFILE).toNat ||| s.active * 4 ||| gone),
   (Reg.ENG_CLK, p.engMhz + p.arrMhz * 2 ^ 12),
   (Reg.ENG_CAP_GAL, s.err.capGal + 18 * 2 ^ 5),
   (Reg.ENG_CAP_ARR, rne (p.int4PerGallery * s.err.capGal) 1000000),
   (Reg.ENG_CAP_VEC, rne (p.vecPerGallery * s.err.capGal) 1000),
   (Reg.ENG_CAP_STW, p.stwGbs + p.actPerUs * 2 ^ 16),
   (Reg.ENG_CAP_LAT, p.bagNs + p.homeNs * 2 ^ 12)]

/-- CONC_RING_STATE of the selected ring. -/
def State.ringState (s : State) : Nat :=
  let n := s.rbits Reg.CONC_RING_SEL 12 0
  if (s.reg Reg.CONC_RING_SEL).bit 13 then
    (mapGet s.conc.cpl n).elim 0 (fun (r : CplRing) => 1 + r.tenant * 2 ^ 16)
  else (s.ring n).elim 0 (fun (r : CmdRing) => r.code + r.tenant * 2 ^ 16)

/-- CONC. -/
def State.liveConc (s : State) : List (Nat × Nat) :=
  [(Reg.CONC_STAT, b2n ((s.reg Reg.CONC_CTL).bit 0) + b2n s.isDraining * 2),
   (Reg.CONC_CTX_USED, s.conc.items.length),
   (Reg.CONC_CTX_SPILL, (s.conc.items.filter (·.spilled)).length),
   (Reg.CONC_MQ, s.conc.mq.length + s.conc.decim * 2 ^ 16),
   (Reg.CONC_MQ_SVC, s.mqMean),
   (Reg.CONC_RING_STATE, s.ringState)]

/-- FLT_FREE_TIME (R51, R52). -/
def State.freeTimeUs (s : State) : Nat :=
  match s.hall.sync with
  | .standalone | .root => 0
  | _ => match s.hall.lastBeacon with
    | none => 0xFFFFFFFF
    | some t => satBits 32 ((s.now - t) / 1000)

/-- FLT_PHASE_ERR: an offset that 16 bits cannot hold reads a free value (log 5). -/
def State.phaseErrField (s : State) : Nat :=
  let e := s.hall.phaseErr
  if -32768 ≤ e ∧ e ≤ 32767 then twos 16 e else freeNat s.freeSeq % 2 ^ 16

/-- FLT, hall time and held actions. -/
def State.liveHall (s : State) : List (Nat × Nat) :=
  let h := s.hall
  let alone := h.sync == .root || h.sync == .standalone
  [(Reg.FLT_SYNC, h.sync.code + b2n h.upActive * 8 + (if alone then 0 else h.depth % 64) * 16 + satBits 16 h.stepCnt * 2 ^ 16),
   (Reg.FLT_ROOT, h.root.toNat),
   (Reg.FLT_LEN, h.len),
   (Reg.FLT_LEN_NEXT, h.lenNext + b2n h.lenPend.isSome * 2 ^ 30),
   (Reg.FLT_LEN_AT_LO, h.lenAt % 2 ^ 32),
   (Reg.FLT_LEN_AT_HI, h.lenAt / 2 ^ 32),
   (Reg.FLT_LANDING_LO, h.landing % 2 ^ 32),
   (Reg.FLT_LANDING_HI, h.landing / 2 ^ 32),
   (Reg.FLT_PHASE, satBits 16 s.phaseNs),
   (Reg.FLT_PHASE_ERR, s.phaseErrField),
   (Reg.FLT_FREE_TIME, s.freeTimeUs),
   (Reg.FLT_HELD, (s.conc.sched.filter (·.held)).length + b2n h.lenHeld)]

/-- FLT, budgets and lag. -/
def State.liveFlt (s : State) : List (Nat × Nat) :=
  let f := s.flt
  [(Reg.FLT_CAP_ACT, f.cap.act), (Reg.FLT_CAP_FAB, f.cap.fab), (Reg.FLT_CAP_ARR, f.cap.arr),
   (Reg.FLT_CAP_VEC, f.cap.vec), (Reg.FLT_CAP_CPY, f.cap.cpy), (Reg.FLT_CAP_NRG, f.cap.nrg),
   (Reg.FLT_EFF_ACT, f.eff.act), (Reg.FLT_EFF_FAB, f.eff.fab), (Reg.FLT_EFF_ARR, f.eff.arr),
   (Reg.FLT_EFF_VEC, f.eff.vec), (Reg.FLT_EFF_CPY, f.eff.cpy), (Reg.FLT_EFF_NRG, f.eff.nrg),
   (Reg.FLT_LAG, satBits 32 f.lag),
   (Reg.FLT_TRIM, satBits 16 f.trim),
   (Reg.FLT_NRG_STATIC, satBits 32 f.nrg.staticNj),
   (Reg.FLT_NRG_CORR, if s.now ≥ f.nrg.corrEnd then 0 else satBits 32 f.nrg.corr)]

/-- DIR: the entry, the references and the shard views of the selected table (R159, R175, R186); a FREE entry reads 0. -/
def State.liveDir (s : State) : List (Nat × Nat) :=
  let id := s.rbits Reg.DIR_SEL 15 0
  let sh := s.rbits Reg.DIR_SMAP_SEL 23 0
  let words := (s.table id).elim [] (fun t => t.live id)
  let e : ShardEnt := match s.table id with
    | some t => if t.replicated then ⟨0, 0, 0, false⟩ else t.shard sh
    | none => ⟨0, 0, 0, false⟩
  [(Reg.DIR_STAT, s.dir.tables.length + b2n s.baseOk * 2 ^ 17),
   (Reg.DIR_REF0, s.refs id 0), (Reg.DIR_REF1, s.refs id 1),
   (Reg.DIR_SMAP_CUR_LO, e.cur % 2 ^ 32), (Reg.DIR_SMAP_CUR_HI, e.cur / 2 ^ 32),
   (Reg.DIR_SMAP_NEXT_LO, e.next % 2 ^ 32), (Reg.DIR_SMAP_NEXT_HI, e.next / 2 ^ 32),
   (Reg.DIR_SMAP_PREV_LO, e.prev % 2 ^ 32), (Reg.DIR_SMAP_PREV_HI, e.prev / 2 ^ 32),
   (Reg.DIR_SMAP_FLAGS, b2n e.pend),
   (Reg.DIR_GRANT_USED, s.dir.grantsNext.length)]
    ++ (upto 0 16).map (fun i => (Reg.DIR_ENTRY0 + 4 * i, (words.getD i 0).toNat))

/-- GAL_SLOT_STATE: slots 0 to 2 hold tiles, and slot 3 is the working tile's (R360, R361). -/
def State.slotState (s : State) (n : Nat) : Nat :=
  let slot := s.rbits (galReg n Reg.GAL_SLOT_SEL) 1 0
  let g := s.gal n
  if slot = 3 then
    match g.working with
    | none => 0
    | some seq => 2 + b2n g.workReal * 4 + (s.item seq).elim 0 (·.tenant) * 16
  else match s.tiles.find? (fun x => x.2.home == some (n, slot)) with
    | some (_, t) => 1 + b2n t.real * 4 + t.tenant * 16 + t.num * 2 ^ 16
    | none => 0

/-- GAL, the offsets that belong to gallery n alone. -/
def State.liveGal (s : State) (n : Nat) : List (Nat × Nat) :=
  let g := s.gal n
  let sel := s.reg (galReg n Reg.GAL_REQ_SEL)
  let at_ := sel.bits 10 7 * 128 + sel.bits 6 0
  let r := (mapGet g.req at_).getD (0, 0, 0)
  [(Reg.GAL_SLOT_STATE, s.slotState n),
   (Reg.GAL_REQ_MULT, r.1.toNat), (Reg.GAL_REQ_BIAS, r.2.1.toNat), (Reg.GAL_REQ_CFG, r.2.2.toNat),
   (Reg.GAL_REQ_COLSUM, ((mapGet g.colsum at_).getD 0).toNat),
   (Reg.GAL_REQ_ROWSUM, ((mapGet g.rowsum (sel.bits 6 0)).getD 0).toNat)]

/-- GAL, the engine-wide offsets: LOST tiles are neither in a slot nor spilled, and are not counted as held. -/
def State.liveGalWide (s : State) : List (Nat × Nat) :=
  let held := s.tiles.filter (fun x => !x.2.lost)
  [(Reg.GAL_TILES, held.length + (held.filter (fun x => x.2.home.isNone)).length * 2 ^ 16)]

/-- RC. -/
def State.liveRc (s : State) : List (Nat × Nat) :=
  let asked := s.rc.running.toList ++ s.rc.queue ++ s.rc.overflow
  let pinning := asked.any (fun m => match m.op with | .pin _ _ => true | _ => false)
  let slice := s.rbits Reg.RC_SLICE_SEL 3 0
  [(Reg.RC_STAT, b2n s.rc.init + b2n s.rcActive * 2 + b2n s.rc.stale * 4 + b2n pinning * 8),
   (Reg.RC_MNT_STAT, b2n (!asked.isEmpty) + min 16 s.rc.queue.length * 2 + (s.reg Reg.RC_MNT_STAT).bits 6 6 * 64),
   (Reg.RC_SLICE_MISS, (s.rc.misses.filter (fun m => m.slice == slice)).length + mapCnt s.rc.peak slice * 2 ^ 16)]

/-- STW_STAT.TSTATE. -/
def TTemp.code : TTemp → Nat
  | .x1 => 0 | .x2 => 1 | .x4 => 2 | .throttle => 3 | .halt => 4

/-- STW, column k. -/
def State.liveStw (s : State) (k : Nat) : List (Nat × Nat) :=
  let c := s.col k
  let part := s.rbits (stwReg k Reg.STW_REG_SEL) 5 0
  let hot := hottest c.temps
  let die := (c.temps.findIdx? (· == hot)).getD 0
  [(Reg.STW_STAT, c.temp.code + die * 8 + twos 8 hot * 2 ^ 8 + b2n c.test.isSome * 2 ^ 16
      + b2n (!c.remapBusy.isEmpty) * 2 ^ 17 + b2n c.spareExh * 2 ^ 18 + b2n c.tableFull * 2 ^ 19),
   (Reg.STW_DIE_TEMP, twos 8 (c.temps.getD (s.rbits (stwReg k Reg.STW_DIE_SEL) 3 0) 0)),
   (Reg.STW_REG_TOKENS, mapCnt c.tokens part),
   (Reg.STW_REMAP_USED, c.remap.length),
   (Reg.STW_REPAIR_PEND, c.pendRep.length),
   (Reg.STW_RETIRED_CNT, satBits 32 c.retired),
   (Reg.STW_SPARE_FREE, 32 - mapCnt c.spareUsed (s.rbits (stwReg k Reg.STW_SPARE_SEL) 10 0)),
   (Reg.STW_REMAP_ENTRY, (c.remap.getD (s.rbits (stwReg k Reg.STW_REMAP_SEL) 11 0) 0).toNat),
   (Reg.STW_LANE_USED, maskOf (c.lanes.map (·.1))),
   (Reg.STW_TEST_STAT, (s.reg (stwReg k Reg.STW_TEST_STAT)).toNat / 2 * 2 + b2n c.test.isSome)]

/-- The migration that KITE_MIG_SEL shows, counted in the order in which they began. -/
def State.migShown (s : State) : Option Mig :=
  let n := s.rbits Reg.KITE_MIG_SEL 3 0
  if (s.reg Reg.KITE_MIG_SEL).bit 4 then s.kite.migDst[n]? else s.kite.migSrc[n]?

/-- KITE. -/
def State.liveKite (s : State) : List (Nat × Nat) :=
  let count := fun (st : TethState) => (s.kite.tethers.filter (fun x => x.2.st == st)).length
  let m := s.migShown
  [(Reg.KITE_STAT, count .busy),
   (Reg.KITE_QUAR, if s.kite.quarAll.isSome || s.kite.quarWait then 65536 else count .quar),
   (Reg.KITE_MIG_STATE, m.elim 0 (fun m => m.state + m.table * 2 ^ 16)),
   (Reg.KITE_MIG_SHARD, m.elim 0 (·.shard)),
   (Reg.KITE_MIG_PEER, m.elim 0 (·.peer)),
   (Reg.KITE_MIG_LINES, m.elim 0 (·.lines)),
   (Reg.KITE_UPD_INBOX_USED, s.inboxUsed),
   (Reg.KITE_LEDGER_USED, s.ledgerUsed)]

/-- ZP_PORT_STAT of the selected port. HELD has no code for 1,024 frames: that count reads a free value (log 5). -/
def State.portStat (s : State) : Nat :=
  let p := s.port s.portSel
  let n := min portWindow p.held.length
  b2n p.up + b2n p.light * 2 + b2n p.retryDown * 4 + (if n < 1024 then n else freeNat s.freeSeq % 1024) * 8

/-- ZP. -/
def State.liveZp (s : State) : List (Nat × Nat) :=
  let which := fun (p : Port → Bool) =>
    maskOf (((upto 0 s.zp.ports.length).zip s.zp.ports).filterMap (fun (n, x) => if p x then some n else none))
  [(Reg.ZP_STAT, which (·.up) + which (·.light) * 2 ^ 16),
   (Reg.ZP_PORT_CTL, b2n (s.port s.portSel).lit),
   (Reg.ZP_PORT_STAT, s.portStat)]

/-- XLT. -/
def State.liveXlt (s : State) : List (Nat × Nat) :=
  let x := s.xlt
  [(Reg.XLT_STAT, b2n x.atsAvail + b2n x.priAvail * 2 + b2n x.priStop * 4),
   (Reg.XLT_PRI_OUT, (x.pri.filter (·.sent)).length),
   (Reg.XLT_HOT_USED, x.hot.length),
   (Reg.XLT_HOST, x.host.code + b2n x.link * 4 + b2n (if x.host == .attached then s.lossMode else x.mode) * 8),
   (Reg.XLT_DETACH_USED, s.logUsed)]

/-- Copies of a channel that have been accepted. -/
def State.chanCopies (s : State) (ch : Nat) : List Item :=
  s.conc.items.filter (fun i => (match i.work with | .copy _ _ _ _ _ _ _ => true | _ => false) && copyChan i.words == ch)

/-- CPY, with the selected channel's registers. -/
def State.liveCpy (s : State) : List (Nat × Nat) :=
  let ch := s.chanSel
  let runs := fun (lat : Bool) => (s.cpyItems ch lat).any Item.cpyStarted
  let stopped := (s.reg (selKey Reg.CPY_CH_CTL ch)).bit 0 && !runs true && !runs false
  let waiting := ((s.chanCopies ch).filter (fun i => !i.cpyStarted)).length
  let halted := maskOf (((upto 0 s.cpy.length).zip s.cpy).filterMap (fun (n, c) => if c.halt then some n else none))
  [(Reg.CPY_CH_STAT, b2n (runs true) + b2n (runs false) * 2 + b2n stopped * 4 + b2n (s.chan ch).halt * 8
      + b2n (s.locked (cpyStream ch true) || s.locked (cpyStream ch false)) * 16 + satBits 8 waiting * 2 ^ 8),
   (Reg.CPY_CH_FILL, s.cpyFill ch true + s.cpyFill ch false * 2 ^ 16),
   (Reg.CPY_HALT_LO, halted % 2 ^ 32),
   (Reg.CPY_HALT_HI, halted / 2 ^ 32)]

/-- TEN (R140): sixteen bytes an entry. -/
def State.tenWord (s : State) (o : Nat) : Nat :=
  match mapGet s.conc.ten ((o - 0x220000) / 16) with
  | none => 0
  | some e => (match o % 16 with | 0 => e.w0 | 4 => e.w1 | 8 => e.w2 | _ => e.w3).toNat

/-- HR_RST_STAT. -/
def State.rstStat (s : State) : Nat :=
  let r := s.rst
  let phase := match r.phase with | .run => 0 | .abort => 1 | .held => 2 | .releasing => 3
  let unit := s.conc.ops.any (fun o => match o.kind with | .unitReset _ _ _ => true | _ => false)
  phase + r.step * 4 + b2n s.porHeld * 2 ^ 5 + b2n (r.coldPin || r.coldCmd.isSome) * 2 ^ 6 + b2n r.warm.isSome * 2 ^ 7
    + b2n unit * 2 ^ 8 + b2n r.large * 2 ^ 9 + b2n r.pincfg * 2 ^ 10 + b2n r.refused * 2 ^ 11

/-- HR_PRES_STAT. -/
def State.presStat (s : State) : Nat :=
  s.presenceCode + b2n s.pres.broken * 2 ^ 8
    + (match s.pres.lastPress with | some t => satBits 16 ((s.now - t) / 1000000000) | none => 0xFFFF) * 2 ^ 16

/-- HR_PS_WCNT. -/
def State.psWcnt (s : State) (w : Nat) : Nat :=
  let n := mapCnt s.ps.counts w
  n + b2n (decide (n ≥ psGate)) * 2 ^ 20 + b2n (decide (n ≥ psLimit)) * 2 ^ 21 + b2n (s.ps.unlocked.contains w) * 2 ^ 22

/-- HR. -/
def State.liveHr (s : State) : List (Nat × Nat) :=
  let c := s.rst.strap
  let w := s.rbits Reg.HR_PS_SEL 13 0
  let p := s.ps
  [(Reg.HR_RST_STAT, s.rstStat),
   (Reg.HR_STRAP, c + strapChoice c * 2 ^ 8 + strapBits c * 2 ^ 12 + b2n (strapMarginal c) * 2 ^ 16),
   (Reg.HR_MFP_LEVEL, maskOf ((upto 0 4).filter s.pinLevel)),
   (Reg.HR_PRES_STAT, s.presStat),
   (Reg.HR_BOOT_STAT, s.boot.state + s.boot.slot * 8 + b2n s.boot.fromLane * 16),
   (Reg.HR_PS_DATA, (s.psStored w).toNat),
   (Reg.HR_PS_WCNT, s.psWcnt w),
   (Reg.HR_PS_STAT, b2n p.busy.isSome + min 8 p.queue.length * 2 + b2n p.presRef * 2 ^ 5 + b2n p.wearRef * 2 ^ 6
      + b2n p.drop * 2 ^ 7 + b2n p.torn * 2 ^ 8),
   (Reg.HR_BK_STAT, b2n s.bk.valid + b2n s.bk.lost * 2 + b2n s.bk.sealTrip * 4 + b2n s.bk.therm * 8 + s.bk.cause * 2 ^ 8),
   (Reg.HR_BK_LANDING_LO, s.bk.landing % 2 ^ 32),
   (Reg.HR_BK_LANDING_HI, s.bk.landing / 2 ^ 32)]
    ++ (upto 0 8).map (fun i => (Reg.HR_BK_CNT_POWER_ON + 4 * i, s.bk.cnt.getD i 0))

/-- ERR_WDOG_STAT: a stopped watchdog has no expiry, and the field reads a free value (log 5). -/
def State.wdogStat (s : State) : Nat :=
  let b := s.boot
  let full := b.wdogCtl.bits 15 0
  let left := if !b.running then full
    else if !b.wdogCtl.bit 16 then freeNat s.freeSeq % 2 ^ 16
    else full - (s.now - b.wdogStart) / 1000000
  b.wdogStage + satBits 16 left * 2 ^ 16

/-- ERR. -/
def State.liveErr (s : State) : List (Nat × Nat) :=
  let e := s.err
  let fenced := galsWhere s.gals (·.fenced)
  let spares := galsWhere s.gals (fun g => !g.enabled && !g.fenced)
  let page := e.retire[s.rbits Reg.ERR_RETIRE_SEL 15 0]?
  let rec_ := (mapGet e.log (s.rbits Reg.ERR_LOG_SEL 9 0)).getD []
  [(Reg.ERR_STAT, s.enabledCount + fenced.length * 2 ^ 5 + spares.length * 2 ^ 10 + b2n s.replace * 2 ^ 12
      + b2n e.fenceUnsaved * 2 ^ 13 + b2n e.cmdRefused * 2 ^ 14 + e.dbgScope * 2 ^ 15),
   (Reg.ERR_DRAIN, e.drain.code + (if e.drain == .none then 0 else e.drainCause) * 2 ^ 4),
   (Reg.ERR_GAL_EN, maskOf (galsWhere s.gals (·.enabled))),
   (Reg.ERR_GAL_FENCED, maskOf fenced),
   (Reg.ERR_SLICE_OFF, maskOf s.rc.off),
   (Reg.ERR_CAPACITY, s.capacityMib),
   (Reg.ERR_RETIRE_PAGE_LO, page.elim 0 (· % 2 ^ 32)),
   (Reg.ERR_RETIRE_PAGE_HI, page.elim 0 (fun a => a / 2 ^ 32 + 2 ^ 31)),
   (Reg.ERR_RETIRE_USED, e.retire.length + b2n e.retireFull * 2 ^ 17),
   (Reg.ERR_LOG_HEAD, e.seq),
   (Reg.ERR_WDOG_CTL, s.boot.wdogCtl.toNat),
   (Reg.ERR_WDOG_STAT, s.wdogStat)]
    ++ (upto 0 16).map (fun i => (Reg.ERR_LOG_W0 + 4 * i, (rec_.getD i 0).toNat))

/-! ### One register -/

/-- The registers of an offset's block that show state. -/
def State.liveBlock (s : State) (off : Nat) : List (Nat × Nat) :=
  if off < 0x10000 then s.liveEng
  else if off < 0x20000 then s.liveConc
  else if off < 0x30000 then s.liveHall ++ s.liveFlt
  else if off < 0x40000 then s.liveDir
  else if off < 0x160000 then (if galWide off then s.liveGalWide else s.liveGal (galOf off))
  else if off < 0x170000 then s.liveRc
  else if off < 0x1B0000 then s.liveStw (stwColOf off)
  else if off < 0x1C0000 then s.liveKite
  else if off < 0x1D0000 then s.liveZp
  else if off < 0x1E0000 then s.liveXlt
  else if off < 0x1F0000 then s.liveCpy
  else if off < 0x200000 then [(Reg.MGT_FW_VER, if s.boot.state = 3 then s.boot.fwVer.toNat else 0)]
  else if off < 0x210000 then s.liveHr
  else s.liveErr

/-- The value of a register out of reset. -/
def State.liveVal (s : State) (off : Nat) : Word :=
  if 0x220000 ≤ off then Word.ofNat (s.tenWord off)
  else match pickReg (regNorm off) (s.liveBlock off) with
    | some n => Word.ofNat n
    | none => s.reg (s.regKey off)

/-- Reset values of registers that show state (their field tables); the capacities are those that the next landing will
compute. -/
def State.liveReset (s : State) (off : Nat) : Word :=
  let p := s.prof
  let c := s.capNow
  match pickReg (regNorm off)
    [(Reg.ENG_CLK, p.engMhz + p.arrMhz * 2 ^ 12), (Reg.ENG_CAP_GAL, 16 + 18 * 2 ^ 5),
     (Reg.ENG_CAP_ARR, rne (p.int4PerGallery * 16) 1000000), (Reg.ENG_CAP_VEC, rne (p.vecPerGallery * 16) 1000),
     (Reg.ENG_CAP_STW, p.stwGbs + p.actPerUs * 2 ^ 16), (Reg.ENG_CAP_LAT, p.bagNs + p.homeNs * 2 ^ 12),
     (Reg.FLT_LEN, 50),
     (Reg.FLT_CAP_ACT, c.act), (Reg.FLT_CAP_FAB, c.fab), (Reg.FLT_CAP_ARR, c.arr), (Reg.FLT_CAP_VEC, c.vec),
     (Reg.FLT_CAP_CPY, c.cpy), (Reg.FLT_CAP_NRG, c.nrg),
     (Reg.FLT_EFF_ACT, c.act), (Reg.FLT_EFF_FAB, c.fab), (Reg.FLT_EFF_ARR, c.arr), (Reg.FLT_EFF_VEC, c.vec),
     (Reg.FLT_EFF_CPY, c.cpy), (Reg.FLT_EFF_NRG, c.nrg),
     (Reg.RC_STAT, 1), (Reg.STW_SPARE_FREE, 32), (Reg.HR_PRES_STAT, 0xFFFF0000),
     (Reg.ERR_STAT, 16 + 2 * 2 ^ 10), (Reg.ERR_GAL_EN, 0xFFFF), (Reg.ERR_CAPACITY, 196608),
     (Reg.ERR_WDOG_CTL, 0x101F4), (Reg.ERR_WDOG_STAT, 500 * 2 ^ 16)] with
  | some n => Word.ofNat n
  | none =>
    if off = 0x220000 then TenEntry.zero.w0 else if off = 0x220008 then TenEntry.zero.w2
    else if off = 0x22000C then TenEntry.zero.w3
    else regReset off

/-- What a 32-bit read returns, the latch of R6 apart (R11, R619, R624, R625). -/
def State.regVal (s : State) (off : Nat) : Word :=
  if !inBlock off then 0
  else if s.regHeld off then s.liveReset off
  else if s.galDark off then 0
  else s.liveVal off

end Sys2Proof.Machine
end

