-- ==== Sys2Proof/Machine/Registers.lean ====
section
/-! DEFINITION. Register accesses as commands (R4 to R12, R66 to R68, R610, R611, R619 to R631): reads and their latches,
writes and the rules under which a register discards them, 64-bit values, and the handrail lane's requests. -/
namespace Sys2Proof.Machine

open Sys2Proof.Config

/-! ### Reads -/

/-- Key of a latched _HI half: the BAR and the lane keep their own (R631). Every GALn block shows the
engine-wide registers. -/
def latchKey (path : Path) (off : Nat) : Nat :=
  let o := if galWide off then regNorm off else off
  match path with
  | .bar => o
  | .lane => o + 0x1000000

/-- A 32-bit read (R6): a _LO register's latches the matching _HI half, and the next read of that _HI register returns the
latched value. Each read uses up one draw, for the few fields whose value is open (log 5). -/
def State.read32 (s : State) (path : Path) (off : Nat) : State × Word :=
  let v := s.regVal off
  let s := s.draw
  if s.regHeld off then (s, v)
  else if isLo off then ({ s with latch := mapSet s.latch (latchKey path (off + 4)) (s.regVal (off + 4)) }, v)
  else if isHi off then
    match mapGet s.latch (latchKey path off) with
    | some h => ({ s with latch := mapDel s.latch (latchKey path off) }, h)
    | none => (s, v)
  else (s, v)

/-! ### Writes of one register -/

/-- A register's own rule on a value (the field tables; R102, R154, R156, R406, R467, R506, R534, R615, R618): false where
it discards the write. `o` is the normalised offset. -/
def State.writeOk (s : State) (o : Nat) (w : Word) : Bool :=
  let within := fun (hi lo a b : Nat) => decide (a ≤ w.bits hi lo) && decide (w.bits hi lo ≤ b)
  let concOff := !(s.reg Reg.CONC_CTL).bit 0
  let logFree := s.xlt.host == .attached && s.logUsed == 0
  if o = Reg.FLT_RSV then within 7 0 0 100 && within 15 8 0 100
  else if o = Reg.CONC_ASQ_CFG ∨ o = Reg.CONC_ACQ_CFG then concOff
  else if o = Reg.DIR_SMAP_SIZE then s.dir.tables.isEmpty
  else if o = Reg.GAL_REQ_SEL then within 10 7 0 8
  else if Reg.RC_SALT0 ≤ o ∧ o ≤ Reg.RC_SALT7 then !(s.reg Reg.RC_CTL).bit 0
  else if o = Reg.STW_CTL then within 2 1 0 2
  else if o = Reg.STW_SCRUB_CFG then within 7 0 1 255
  else if o = Reg.STW_REMAP_CFG then within 3 0 1 15
  else if o = Reg.KITE_CTL then within 15 0 64 65535
  else if o = Reg.KITE_UPD_CTL then within 4 0 1 16 && within 9 5 1 (w.bits 4 0)
  else if o = Reg.KITE_UPD_INBOX_SIZE then s.kite.inbox.isEmpty
  else if o = Reg.ZP_ROUTE_SEL then within 12 0 0 4159
  else if o = Reg.XLT_CTL then within 4 1 1 8
  else if o = Reg.XLT_PRI_CFG then within 15 0 1 65535 && within 25 16 1 512
  else if o = Reg.XLT_DETACH_SIZE then logFree && (within 4 0 0 0 || within 4 0 10 20)
  else if o = Reg.CPY_CH_SEL then within 5 0 0 39
  else if o = Reg.CPY_CH_WM then within 11 0 1 2048 && decide (w.bits 27 16 < w.bits 11 0)
  else if o = Reg.HR_LPULSE then within 7 0 1 255
  else if o = Reg.ERR_CFG then within 15 0 1 65535 && within 23 16 1 255
  else if o = Reg.ERR_COMMIT then within 17 0 0 196608
  else if o = Reg.ERR_HOST_CFG then (s.reg Reg.ERR_HOST_CFG).bit 0 || within 4 1 6 12
  else if o = Reg.ERR_INJECT then s.err.dbgScope.testBit 0
  else true

/-- LOG2SIZE of a host ring keeps its value while the ring is enabled (R506, R618). -/
def State.keepSize (s : State) (o : Nat) (w : Word) : Word :=
  let keep := fun (m : Nat) =>
    let old := s.reg o
    if old.bit 0 then (w &&& ~~~ Word.ofNat m) ||| (old &&& Word.ofNat m) else w
  if o = Reg.XLT_HOT_CFG then keep 0x3E
  else if o = Reg.ERR_HOST_CFG then keep 0x1E
  else w

/-- A salt has been written and no INV_ALL has come since. -/
def State.markSalt (s : State) : State := { s with rc := { s.rc with saltDirty := true } }

/-- A write that a register of no further effect takes: its writable bits are set. -/
def State.setPlain (s : State) (off : Nat) (w : Word) : State :=
  let o := regNorm off
  let m := regMask off
  let k := s.regKey off
  if m = 0 || !s.writeOk o w then s
  else
    let s := s.setReg k ((s.reg k &&& ~~~ m) ||| (s.keepSize o w &&& m))
    let s := if Reg.RC_SALT0 ≤ o ∧ o ≤ Reg.RC_SALT7 then s.markSalt else s
    if s.inReset then s else if o = Reg.XLT_PRI_CFG then s.priNext else s.wake

/-- A write of 1 to bits of a W1C field clears them (R12); none where the register has no such field. -/
def State.clearBits (s : State) (off : Nat) (w : Word) : Option State :=
  let o := regNorm off
  let on := fun (n : Nat) => w.bit n
  if o = Reg.STW_TEST_STAT then
    let k := stwReg (stwColOf off) Reg.STW_TEST_STAT
    some (s.setReg k (s.reg k &&& ~~~ (w &&& 0xE)))
  else if o = Reg.RC_MNT_STAT then some (s.setReg o (s.reg o &&& ~~~ (w &&& 0x40)))
  else if o = Reg.CPY_CH_STAT then
    some (if on 3 then (s.modChan s.chanSel (fun c => { c with halt := false })).wake else s)
  else if o = Reg.HR_RST_STAT then some (s.modRst (fun r => { r with refused := r.refused && !on 11 }))
  else if o = Reg.HR_PRES_STAT then some (s.modPres (fun p => { p with broken := p.broken && !on 8 }))
  else if o = Reg.HR_PS_STAT then
    some (s.modPs (fun p => { p with
      presRef := p.presRef && !on 5, wearRef := p.wearRef && !on 6, drop := p.drop && !on 7, torn := p.torn && !on 8 }))
  else if o = Reg.HR_BK_STAT then
    some (s.modBk (fun b => { b with lost := b.lost && !on 1, sealTrip := b.sealTrip && !on 2, therm := b.therm && !on 3 }))
  else if o = Reg.ERR_STAT then some (s.modErr (fun e => { e with cmdRefused := e.cmdRefused && !on 14 }))
  else if o = Reg.ERR_PEND then some (s.pendClear w)
  else none

/-- RC_MNT_CMD (R430): operations 4 to 7 are invalid. -/
def State.mntCmd (s : State) (w : Word) : State :=
  let lo := s.reg64 Reg.RC_MNT_ADDR_LO
  match w.bits 2 0 with
  | 0 => s.mntReq .nop
  | 1 => s.mntReq (.range lo (lo + 64 * (s.reg Reg.RC_MNT_LEN).toNat))
  | 2 => s.mntReq (.table (w.bits 31 16) (w.bit 3) (w.bit 4))
  | 3 => s.mntReq .all
  | _ => s

/-- FLT_CTL. -/
def State.fltCtl (s : State) (w : Word) : State :=
  let s := if w.bit 0 then s.askResync else s
  if w.bit 1 then s.askLagClr else s

/-- A write whose effect goes beyond the register; none where the register has no such effect. -/
def State.writeAct (s : State) (path : Path) (off : Nat) (w : Word) : Option State :=
  let o := regNorm off
  let wake := fun (s : State) => if s.inReset then s else s.wake
  if o = Reg.FLT_CTL then some (s.fltCtl w)
  else if o = Reg.FLT_ROOT then some (s.writeRoot w)
  else if o = Reg.FLT_LEN_NEXT then some (s.modHall (fun h => { h with lenNext := w.bits 12 0 }))
  else if o = Reg.CONC_CTL then
    some (if w.bit 0 then s.concEnable w else s.setReg Reg.CONC_CTL (w &&& 2))
  else if o = Reg.CONC_DB then some (s.concDb w)
  else if o = Reg.GAL_STAT_SEL then
    some (if w.bit 31 then s.galStatSnap w else s.setReg Reg.GAL_STAT_SEL (Word.ofNat (w.bits 15 0)))
  else if o = Reg.RC_CTL then some (wake (if w.bit 0 then s.rcEnable w else s.rcDisable w))
  else if o = Reg.RC_PIN then some (wake (s.rcPin w))
  else if o = Reg.RC_MNT_CMD then some (wake (s.mntCmd w))
  else if o = Reg.STW_REG_CFG then some (s.stwRegCfg (stwColOf off) w)
  else if o = Reg.STW_TEST_CTL then
    some (if w.bit 31 then s.marchStart (stwColOf off) w
      else s.setReg (stwReg (stwColOf off) Reg.STW_TEST_CTL) (Word.ofNat (w.bits 3 0)))
  else if o = Reg.KITE_UPD_SEL then
    some (if w.bit 31 then s.kiteUpdSnap w else s.setReg Reg.KITE_UPD_SEL (Word.ofNat (w.bits 15 0)))
  else if o = Reg.ZP_PORT_CTL then some (s.portCtl (w.bit 0))
  else if o = Reg.ZP_ROUTE then some (s.routeWrite w)
  else if o = Reg.HR_RST_CMD then some (s.rstCmd path w)
  else if o = Reg.ERR_DRAIN_CMD then some (s.drainCmd path w)
  else if o = Reg.ERR_FENCE_CMD then some (s.fenceCmd path w)
  else
    match psWordOf o with
    | some word => some (s.rwpWrite word w)
    | none => none

/-- A 32-bit write of a register that is no half of a 64-bit value. -/
def State.writePlain (s : State) (path : Path) (off : Nat) (w : Word) : State :=
  match s.writeAct path off w with
  | some t => t
  | none => match s.clearBits off w with
    | some t => t
    | none => s.setPlain off w

/-! ### 64-bit values (R5, R7) -/

/-- FLT_LEN_AT_HI arms a change of the flight length to FLT_LEN_NEXT.LEN at the landing written (R67), unless R68 discards
the write: nothing is then armed, and a change armed before stands (log 39). -/
def State.armLength (s : State) (landing : Nat) : State :=
  let h := s.hall
  let alone := h.sync == .root || h.sync == .standalone
  if h.lenNext < 25 || decide (h.lenNext > 6400) || decide (landing < h.landing + 2) || !alone then s
  else s.modHall (fun h => { h with lenAt := landing, lenPend := some (h.lenNext, landing) })

/-- A pair discards writes in the present state (R154, R156, R262, R327, R402, R506, R618). `lo` is the normalised offset
of its _LO register. -/
def State.pairShut (s : State) (lo : Nat) : Bool :=
  if lo = Reg.CONC_ASQ_BASE_LO ∨ lo = Reg.CONC_ACQ_BASE_LO ∨ lo = Reg.CONC_ARCB_LO then (s.reg Reg.CONC_CTL).bit 0
  else if lo = Reg.DIR_BASE_LO ∨ lo = Reg.DIR_SMAP_BASE_LO then !s.dir.tables.isEmpty
  else if lo = Reg.GAL_WIDEN_BASE_LO then (s.reg Reg.GAL_WIDEN_CTL).bit 0
  else if lo = Reg.GAL_SPILL_BASE_LO then
    (s.reg Reg.GAL_SPILL_CTL).bit 0 || s.tiles.any (fun x => x.2.home.isNone && !x.2.lost)
  else if lo = Reg.KITE_UPD_INBOX_BASE_LO then !s.kite.inbox.isEmpty
  else if lo = Reg.XLT_HOT_BASE_LO then (s.reg Reg.XLT_HOT_CFG).bit 0
  else if lo = Reg.XLT_DETACH_BASE_LO then s.xlt.host != .attached || s.logUsed != 0
  else if lo = Reg.ERR_HOST_BASE_LO then (s.reg Reg.ERR_HOST_CFG).bit 0
  else false

/-- The _HI write applies the whole value: with the held _LO half, or with the half in force where none is held (R7). -/
def State.writeHi (s : State) (off : Nat) (w : Word) : State :=
  let lo := regNorm (off - 4)
  let half := mapGet s.heldLo lo
  let s := { s with heldLo := mapDel s.heldLo lo }
  if lo = Reg.FLT_LEN_AT_LO then
    s.armLength (Word.pair (half.getD (Word.ofNat s.hall.lenAt)) w)
  else if regMask off = 0 || s.pairShut lo then s
  else
    let shut := lo == Reg.GAL_STAT_BASE_LO && (s.reg Reg.GAL_STAT_BASE_HI).bit 31
    let s := match half with
      | some v => if shut then s else s.setReg lo (v &&& regMask lo)
      | none => s
    s.setReg (lo + 4) (w &&& regMask (lo + 4))

/-! ### A 32-bit write, and any width (R8, R9, R11, R619, R624, R625) -/

/-- A naturally aligned 32-bit write. -/
def State.write32 (s : State) (path : Path) (off : Nat) (w : Word) : State :=
  if !inBlock off || decide (0x220000 ≤ off) || s.regHeld off || s.galDark off then s
  else if isLo off then
    (if regMask off = 0 then s else { s with heldLo := mapSet s.heldLo (regNorm off) w })
  else if isHi off then s.writeHi off w
  else s.writePlain path off w

/-- A write through the BAR of a width in bytes. -/
def State.barWrite (s : State) (off width val : Nat) : State :=
  if width = 4 ∧ off % 4 = 0 then s.write32 .bar off (Word.ofNat val)
  else if width = 8 ∧ off % 8 = 0 then (s.write32 .bar off (Word.ofNat val)).write32 .bar (off + 4) (Word.ofNat (val / 2 ^ 32))
  else s

/-- REGISTER_WRITE. -/
def execRegisterWrite (off width val : Nat) (s : State) : Host.Outcome State Fault Refusal := ran s (s.barWrite off width val)

/-- LO_WRITE. -/
def execLoWrite (off : Nat) (w : Word) (s : State) : Host.Outcome State Fault Refusal := ran s (s.barWrite off 4 w.toNat)

/-- HI_WRITE. -/
def execHiWrite (off : Nat) (w : Word) (s : State) : Host.Outcome State Fault Refusal := ran s (s.barWrite off 4 w.toNat)

/-- FLT_LEN_AT_HI_WRITE. -/
def execFltLenAtHiWrite (w : Word) (s : State) : Host.Outcome State Fault Refusal :=
  ran s (s.write32 .bar Reg.FLT_LEN_AT_HI w)

/-- LO_READ: a read through the BAR returns its value. Over the lane the value goes out in the reply to its request, which
is REG_READ's. -/
def execLoRead (path : Path) (off : Nat) (s : State) : Host.Outcome State Fault Refusal :=
  let (t, v) := s.read32 path off
  ran s (match path with
    | .bar => t.emit (.barRead v.toNat)
    | .lane => t)

/-! ### The handrail lane (R610, R611, R630) -/

/-- REG_REPLY. -/
def State.laneReply (s : State) (seq result : Nat) (v : Word) : State := s.emit (.lane 2 result seq [v])

/-- Registers that can be written over the lane (R630). -/
def laneWritable (off : Nat) : Bool :=
  [Reg.FLT_ROOT, Reg.ZP_PORT_SEL, Reg.ZP_PORT_CTL, Reg.ZP_ROUTE_SEL, Reg.ZP_ROUTE, Reg.HR_RST_CMD, Reg.HR_GPIO_OUT,
   Reg.HR_LPULSE, Reg.HR_PS_SEL, Reg.ERR_PEND, Reg.ERR_ALERT_EN, Reg.ERR_CFG, Reg.ERR_COMMIT, Reg.ERR_RETIRE_SEL,
   Reg.ERR_LOG_SEL, Reg.ERR_DRAIN_CMD, Reg.ERR_FENCE_CMD].contains off

/-- R540 or R609 refuses a write over the lane. -/
def State.laneDenied (s : State) (off : Nat) (w : Word) : Bool :=
  if off = Reg.HR_RST_CMD then s.rstCmdOk .lane w == some false
  else if off = Reg.ERR_DRAIN_CMD ∨ off = Reg.ERR_FENCE_CMD then s.laneRefused .lane
  else false

/-- REG_READ: answered at once where the register's domain is out of reset; it waits where it is held. -/
def execRegRead (seq off : Nat) (s : State) : Host.Outcome State Fault Refusal :=
  ran s (
    if s.domHeld 1 then s
    else if inBlock off && s.regHeld off then { s with laneReqs := s.laneReqs ++ [(seq, off)] }
    else
      let (t, v) := s.read32 .lane off
      t.laneReply seq 0 v)

/-- LANE_READ_NO_RESPONSE: 10 µs after a request whose domain was held it is answered; a domain that has come out of reset
meanwhile has given its value. -/
def execLaneReadNoResponse (seq : Nat) (s : State) : Host.Outcome State Fault Refusal :=
  ran s (
    if s.domHeld 1 then s
    else
      match s.laneReqs.find? (fun x => x.1 == seq) with
      | none => s
      | some (_, off) =>
        let s := { s with laneReqs := s.laneReqs.filter (fun x => x.1 != seq) }
        if s.regHeld off then s.laneReply seq 1 0
        else
          let (t, v) := s.read32 .lane off
          t.laneReply seq 0 v)

/-- REG_WRITE: its reply goes out before its effect, which may be a reset. -/
def execRegWrite (seq off : Nat) (w : Word) (s : State) : Host.Outcome State Fault Refusal :=
  ran s (
    if s.domHeld 1 then s
    else if !laneWritable off then s.laneReply seq 2 0
    else (s.laneReply seq (if s.laneDenied off w then 2 else 0) 0).write32 .lane off w)

end Sys2Proof.Machine
end

