-- ==== Sys2Proof/Machine/Dispatch.lean ====
section
/-! DEFINITION. Every command's meaning: one arm per constructor. -/
namespace Sys2Proof.Machine

/-- The effect of a command on everything but the queue of waiting commands. -/
def exec (i : Instr) (s : State) : Host.Outcome State Fault Refusal :=
  match i with
  | .nop src pkt => Sys2Proof.Machine.execNop src pkt s
  | .bag src pkt => Sys2Proof.Machine.execBag src pkt s
  | .bagInteract src pkt => Sys2Proof.Machine.execBagInteract src pkt s
  | .arrayOp src pkt => Sys2Proof.Machine.execArrayOp src pkt s
  | .tileRead src pkt => Sys2Proof.Machine.execTileRead src pkt s
  | .tileWrite src pkt => Sys2Proof.Machine.execTileWrite src pkt s
  | .vecChain src pkt => Sys2Proof.Machine.execVecChain src pkt s
  | .updateBatch src pkt => Sys2Proof.Machine.execUpdateBatch src pkt s
  | .splitReduce src pkt => Sys2Proof.Machine.execSplitReduce src pkt s
  | .copy src pkt => Sys2Proof.Machine.execCopy src pkt s
  | .recheck src pkt => Sys2Proof.Machine.execRecheck src pkt s
  | .inlineWrite src pkt => Sys2Proof.Machine.execInlineWrite src pkt s
  | .statusGet svcNs => Sys2Proof.Machine.execStatusGet svcNs s
  | .tenantSet svcNs => Sys2Proof.Machine.execTenantSet svcNs s
  | .tenantDestroy svcNs => Sys2Proof.Machine.execTenantDestroy svcNs s
  | .pasidBind svcNs => Sys2Proof.Machine.execPasidBind svcNs s
  | .pasidUnbind svcNs => Sys2Proof.Machine.execPasidUnbind svcNs s
  | .ringCreate svcNs => Sys2Proof.Machine.execRingCreate svcNs s
  | .ringDestroy svcNs => Sys2Proof.Machine.execRingDestroy svcNs s
  | .ringReset svcNs => Sys2Proof.Machine.execRingReset svcNs s
  | .tableDefine svcNs => Sys2Proof.Machine.execTableDefine svcNs s
  | .tableState svcNs => Sys2Proof.Machine.execTableState svcNs s
  | .versionSwitch svcNs => Sys2Proof.Machine.execVersionSwitch svcNs s
  | .shardMapWrite svcNs => Sys2Proof.Machine.execShardMapWrite svcNs s
  | .epochBump svcNs => Sys2Proof.Machine.execEpochBump svcNs s
  | .migrate svcNs => Sys2Proof.Machine.execMigrate svcNs s
  | .tableGrant svcNs => Sys2Proof.Machine.execTableGrant svcNs s
  | .countersRead svcNs => Sys2Proof.Machine.execCountersRead svcNs s
  | .telemetryCfg svcNs => Sys2Proof.Machine.execTelemetryCfg svcNs s
  | .selftest svcNs => Sys2Proof.Machine.execSelftest svcNs s
  | .fence svcNs => Sys2Proof.Machine.execFence svcNs s
  | .unitReset svcNs => Sys2Proof.Machine.execUnitReset svcNs s
  | .drain svcNs => Sys2Proof.Machine.execDrain svcNs s
  | .persistWrite svcNs => Sys2Proof.Machine.execPersistWrite svcNs s
  | .repairMapWrite svcNs => Sys2Proof.Machine.execRepairMapWrite svcNs s
  | .fwLoad svcNs => Sys2Proof.Machine.execFwLoad svcNs s
  | .fwAccept svcNs => Sys2Proof.Machine.execFwAccept svcNs s
  | .debugEnable svcNs => Sys2Proof.Machine.execDebugEnable svcNs s
  | .wearOverride svcNs => Sys2Proof.Machine.execWearOverride svcNs s
  | .remoteReset svcNs => Sys2Proof.Machine.execRemoteReset svcNs s
  | .hostLossMode svcNs => Sys2Proof.Machine.execHostLossMode svcNs s
  | .reattach svcNs => Sys2Proof.Machine.execReattach svcNs s
  | .concDb w => Sys2Proof.Machine.execConcDb w s
  | .concEnable w => Sys2Proof.Machine.execConcEnable w s
  | .chunkAdmit item gal => Sys2Proof.Machine.execChunkAdmit item gal s
  | .ringFullAdvisory ring => Sys2Proof.Machine.execRingFullAdvisory ring s
  | .landing => Sys2Proof.Machine.execLanding s
  | .flightLengthChange => Sys2Proof.Machine.execFlightLengthChange s
  | .switchTakesEffect => Sys2Proof.Machine.execSwitchTakesEffect s
  | .stateChangeTakesEffect => Sys2Proof.Machine.execStateChangeTakesEffect s
  | .epochBumpTakesEffect => Sys2Proof.Machine.execEpochBumpTakesEffect s
  | .migrateStart => Sys2Proof.Machine.execMigrateStart s
  | .graceEnd => Sys2Proof.Machine.execGraceEnd s
  | .slotEmpty table slot => Sys2Proof.Machine.execSlotEmpty table slot s
  | .promoteByAge item => Sys2Proof.Machine.execPromoteByAge item s
  | .promoteByMargin item => Sys2Proof.Machine.execPromoteByMargin item s
  | .heldRun => Sys2Proof.Machine.execHeldRun s
  | .beaconSend => Sys2Proof.Machine.execBeaconSend s
  | .beacon port b => Sys2Proof.Machine.execBeacon port b s
  | .resyncStep => Sys2Proof.Machine.execResyncStep s
  | .upstreamSwitch => Sys2Proof.Machine.execUpstreamSwitch s
  | .syncFree => Sys2Proof.Machine.execSyncFree s
  | .syncFreeLong => Sys2Proof.Machine.execSyncFreeLong s
  | .refclkLoss => Sys2Proof.Machine.execRefclkLoss s
  | .refclkReturn => Sys2Proof.Machine.execRefclkReturn s
  | .fltRootWrite path w => Sys2Proof.Machine.execFltRootWrite path w s
  | .fltLenAtHiWrite w => Sys2Proof.Machine.execFltLenAtHiWrite w s
  | .resync => Sys2Proof.Machine.execResync s
  | .lagClr => Sys2Proof.Machine.execLagClr s
  | .nrgWindow staticNj measuredNj => Sys2Proof.Machine.execNrgWindow staticNj measuredNj s
  | .gather f ecc => Sys2Proof.Machine.execGather f ecc s
  | .reply f => Sys2Proof.Machine.execReply f s
  | .nack f => Sys2Proof.Machine.execNack f s
  | .update f => Sys2Proof.Machine.execUpdate f s
  | .updateAck f => Sys2Proof.Machine.execUpdateAck f s
  | .migStart f => Sys2Proof.Machine.execMigStart f s
  | .migData f => Sys2Proof.Machine.execMigData f s
  | .migAck f => Sys2Proof.Machine.execMigAck f s
  | .migDone f => Sys2Proof.Machine.execMigDone f s
  | .hallRead f ecc => Sys2Proof.Machine.execHallRead f ecc s
  | .hallWrite f => Sys2Proof.Machine.execHallWrite f s
  | .hallAck f => Sys2Proof.Machine.execHallAck f s
  | .transitFrame f waitNs badCrc => Sys2Proof.Machine.execTransitFrame f waitNs badCrc s
  | .linkAck port count => Sys2Proof.Machine.execLinkAck port count s
  | .linkRetransmit port => Sys2Proof.Machine.execLinkRetransmit port s
  | .lossOfLight port => Sys2Proof.Machine.execLossOfLight port s
  | .linkUp port => Sys2Proof.Machine.execLinkUp port s
  | .primaryRouteRestore port => Sys2Proof.Machine.execPrimaryRouteRestore port s
  | .zpPortEnable path => Sys2Proof.Machine.execZpPortEnable path s
  | .zpPortDisable path => Sys2Proof.Machine.execZpPortDisable path s
  | .zpRouteWrite path w => Sys2Proof.Machine.execZpRouteWrite path w s
  | .slotHeldExpire slot => Sys2Proof.Machine.execSlotHeldExpire slot s
  | .kiteTimeout slot => Sys2Proof.Machine.execKiteTimeout slot s
  | .quarantineEnd slot => Sys2Proof.Machine.execQuarantineEnd slot s
  | .kiteAbandon id => Sys2Proof.Machine.execKiteAbandon id s
  | .creditBackoffEnd home => Sys2Proof.Machine.execCreditBackoffEnd home s
  | .adderTake => Sys2Proof.Machine.execAdderTake s
  | .combineFlush line ecc => Sys2Proof.Machine.execCombineFlush line ecc s
  | .updateApplied id => Sys2Proof.Machine.execUpdateApplied id s
  | .inboxTakeupExpire => Sys2Proof.Machine.execInboxTakeupExpire s
  | .ledgerExpire => Sys2Proof.Machine.execLedgerExpire s
  | .resetNackWindowEnd => Sys2Proof.Machine.execResetNackWindowEnd s
  | .kiteUpdSnap w => Sys2Proof.Machine.execKiteUpdSnap w s
  | .galStatSnap w => Sys2Proof.Machine.execGalStatSnap w s
  | .statFlush gal => Sys2Proof.Machine.execStatFlush gal s
  | .rowArrival key pos r => Sys2Proof.Machine.execRowArrival key pos r s
  | .denseCredit n => Sys2Proof.Machine.execDenseCredit n s
  | .rcFill miss ecc => Sys2Proof.Machine.execRcFill miss ecc s
  | .invRange => Sys2Proof.Machine.execInvRange s
  | .invTable table slots => Sys2Proof.Machine.execInvTable table slots s
  | .invAll => Sys2Proof.Machine.execInvAll s
  | .mntNop => Sys2Proof.Machine.execMntNop s
  | .mntWalkDone => Sys2Proof.Machine.execMntWalkDone s
  | .rcEnable w => Sys2Proof.Machine.execRcEnable w s
  | .rcDisable w => Sys2Proof.Machine.execRcDisable w s
  | .rcPinWrite w => Sys2Proof.Machine.execRcPinWrite w s
  | .hostMemWrite off data => Sys2Proof.Machine.execHostMemWrite off data s
  | .hostMemRead off len ecc => Sys2Proof.Machine.execHostMemRead off len ecc s
  | .refresh col => Sys2Proof.Machine.execRefresh col s
  | .tempSample col temps => Sys2Proof.Machine.execTempSample col temps s
  | .scrubRead off conn ecc => Sys2Proof.Machine.execScrubRead off conn ecc s
  | .scrubPassEnd col => Sys2Proof.Machine.execScrubPassEnd col s
  | .remapDone col => Sys2Proof.Machine.execRemapDone col s
  | .stwRegCfgWrite col w => Sys2Proof.Machine.execStwRegCfgWrite col w s
  | .marchTestStart col w => Sys2Proof.Machine.execMarchTestStart col w s
  | .marchTestDone col fails => Sys2Proof.Machine.execMarchTestDone col fails s
  | .atsCompletion id r => Sys2Proof.Machine.execAtsCompletion id r s
  | .pageRequestResponse id r => Sys2Proof.Machine.execPageRequestResponse id r s
  | .pageRequestTimeout id => Sys2Proof.Machine.execPageRequestTimeout id s
  | .atsInvalidation pasid addr size => Sys2Proof.Machine.execAtsInvalidation pasid addr size s
  | .priEnableChange ats pri => Sys2Proof.Machine.execPriEnableChange ats pri s
  | .hotWindowEnd => Sys2Proof.Machine.execHotWindowEnd s
  | .hostLinkDown => Sys2Proof.Machine.execHostLinkDown s
  | .hostLinkUp => Sys2Proof.Machine.execHostLinkUp s
  | .hostLossReset => Sys2Proof.Machine.execHostLossReset s
  | .copyReadError id first => Sys2Proof.Machine.execCopyReadError id first s
  | .cpyChStop stop => Sys2Proof.Machine.execCpyChStop stop s
  | .cpyHaltClear => Sys2Proof.Machine.execCpyHaltClear s
  | .powerOn => Sys2Proof.Machine.execPowerOn s
  | .standbyRailFall => Sys2Proof.Machine.execStandbyRailFall s
  | .vbakLoss => Sys2Proof.Machine.execVbakLoss s
  | .yfRstinAssert => Sys2Proof.Machine.execYfRstinAssert s
  | .yfRstinRelease => Sys2Proof.Machine.execYfRstinRelease s
  | .warm path w => Sys2Proof.Machine.execWarm path w s
  | .cold path w => Sys2Proof.Machine.execCold path w s
  | .abortPhaseEnd => Sys2Proof.Machine.execAbortPhaseEnd s
  | .resetHoldEnd => Sys2Proof.Machine.execResetHoldEnd s
  | .releaseStep => Sys2Proof.Machine.execReleaseStep s
  | .domainReady strap temps => Sys2Proof.Machine.execDomainReady strap temps s
  | .unitResetDone => Sys2Proof.Machine.execUnitResetDone s
  | .boot => Sys2Proof.Machine.execBoot s
  | .bootRequest => Sys2Proof.Machine.execBootRequest s
  | .bootImage off data => Sys2Proof.Machine.execBootImage off data s
  | .wdogExpiry => Sys2Proof.Machine.execWdogExpiry s
  | .errWdogKick => Sys2Proof.Machine.execErrWdogKick s
  | .errWdogCtlWrite w => Sys2Proof.Machine.execErrWdogCtlWrite w s
  | .persistDone => Sys2Proof.Machine.execPersistDone s
  | .rwpRegisterWrite off w => Sys2Proof.Machine.execRwpRegisterWrite off w s
  | .hrMfpFuncWrite w => Sys2Proof.Machine.execHrMfpFuncWrite w s
  | .presencePress => Sys2Proof.Machine.execPresencePress s
  | .presenceExpire => Sys2Proof.Machine.execPresenceExpire s
  | .sealSample closed => Sys2Proof.Machine.execSealSample closed s
  | .backupSealSample closed => Sys2Proof.Machine.execBackupSealSample closed s
  | .thermtrip temp => Sys2Proof.Machine.execThermtrip temp s
  | .coreSupplyRise temp => Sys2Proof.Machine.execCoreSupplyRise temp s
  | .hot temp => Sys2Proof.Machine.execHot temp s
  | .galCe gal => Sys2Proof.Machine.execGalCe gal s
  | .galError gal det => Sys2Proof.Machine.execGalError gal det s
  | .spareTestDone pass => Sys2Proof.Machine.execSpareTestDone pass s
  | .spareEnabled => Sys2Proof.Machine.execSpareEnabled s
  | .floorBreach => Sys2Proof.Machine.execFloorBreach s
  | .selftestUnitDone code => Sys2Proof.Machine.execSelftestUnitDone code s
  | .selftestIdleTimeout => Sys2Proof.Machine.execSelftestIdleTimeout s
  | .hourWindow => Sys2Proof.Machine.execHourWindow s
  | .fatal which => Sys2Proof.Machine.execFatal which s
  | .drained => Sys2Proof.Machine.execDrained s
  | .errDrainCmd path w => Sys2Proof.Machine.execErrDrainCmd path w s
  | .errFenceCmd path w => Sys2Proof.Machine.execErrFenceCmd path w s
  | .errInject => Sys2Proof.Machine.execErrInject s
  | .errPendClear path w => Sys2Proof.Machine.execErrPendClear path w s
  | .errorRecord => Sys2Proof.Machine.execErrorRecord s
  | .telemetry => Sys2Proof.Machine.execTelemetry s
  | .telemetryWindow => Sys2Proof.Machine.execTelemetryWindow s
  | .regRead seq off => Sys2Proof.Machine.execRegRead seq off s
  | .regWrite seq off w => Sys2Proof.Machine.execRegWrite seq off w s
  | .laneReadNoResponse seq => Sys2Proof.Machine.execLaneReadNoResponse seq s
  | .packet seq pkt => Sys2Proof.Machine.execPacket seq pkt s
  | .loRead path off => Sys2Proof.Machine.execLoRead path off s
  | .loWrite off w => Sys2Proof.Machine.execLoWrite off w s
  | .hiWrite off w => Sys2Proof.Machine.execHiWrite off w s
  | .registerWrite off width val => Sys2Proof.Machine.execRegisterWrite off width val s
  | .hostReadCompletion id data poison => Sys2Proof.Machine.execHostReadCompletion id data poison s
  | .partitionTokenGain col part => Sys2Proof.Machine.execPartitionTokenGain col part s
  | .landingPulseEnd => Sys2Proof.Machine.execLandingPulseEnd s
  | .pinKeeperRelease pin => Sys2Proof.Machine.execPinKeeperRelease pin s
  | .presLedBlink => Sys2Proof.Machine.execPresLedBlink s

end Sys2Proof.Machine
end

