-- ==== Sys2Proof/Machine/Step.lean ====
section
/-! DEFINITION. One step: the command at the front of the queue, or one idle reference cycle. -/
namespace Sys2Proof.Machine

/-- The state with the front command taken off the queue. -/
def State.withQueue (s : State) (q : List Instr) : State := { s with pending := q }

/-- An idle step: the engine's own count of time goes on, and nothing else happens (log 1). -/
def State.idle (s : State) : State := { s with now := s.now + Config.idleNs }

/-- A step runs the command at the front of the queue on the state with the queue's rest; on an empty queue the part
idles (log 1). -/
def step (s : State) : Host.Outcome State Fault Refusal :=
  match s.pending with
  | [] => .next s.idle
  | c :: rest => exec c (s.withQueue rest)

/-- The state with the command a word spells at the front of its queue; unchanged where the word spells none. -/
def State.withFetchWord (s : State) (nbits w : Nat) : State :=
  match decodeTableWord nbits w with
  | some c => { s with pending := c :: s.pending }
  | none => s

end Sys2Proof.Machine
end

