-- ==== Sys2Proof/Safety.lean ====
section
/-! DEFINITION. What counts as a safe run, in the terms the statements use. -/
namespace Sys2Proof.Safety

open Sys2Proof.Machine

/-- A command goes on to a next state. -/
def completes (i : Instr) (s : State) : Prop := ∃ t, exec i s = .next t

/-- The parts that no command may spoil: stairwell memory in its canonical form; the four stairwell columns, the 18
galleries, the 40 copy channels, the sixteen fabric ports and the four multi-function pins that the part is built
with; and no persistent word written more often than its limit of 1,000,000 (R576). -/
def Sound (stw : Stw) (gals : List Gal) (cpy : List Chan) (zp : Zp) (pins : List Pin) (ps : Ps) : Prop :=
  Memory.wf stw.mem = true ∧ stw.cols.length = 4 ∧ gals.length = 18 ∧ cpy.length = 40 ∧ zp.ports.length = 16 ∧
    pins.length = 4 ∧ ∀ x ∈ ps.counts, x.2 ≤ psLimit

/-- The invariant that every step keeps: the parts of the state are `Sound`. -/
def Sane (s : State) : Prop := Sound s.stw s.gals s.cpy s.zp s.pins s.ps

/-- What a command that takes no time leaves of a state its meaning formed: the queue of waiting commands and the engine's
time are those from before (log 1). -/
def kept (s u : State) : State := { u with pending := s.pending, now := s.now }

/-- What a timed event leaves of a state its meaning formed: the queue of waiting commands is that from before, and the
engine's time never goes back (log 1). -/
def keptAt (s u : State) : State := { u with pending := s.pending, now := max s.now u.now }

/-- What a power-on or cold reset leaves: every domain held, and what no domain keeps gone (R537, R550, R579, R585). -/
def wideResetDone (s t : State) : Prop :=
  t.rst.phase = .held ∧ t.rst.step = 0 ∧ t.rst.ready = 0 ∧ t.rst.wide = true ∧ t.stw.mem = [] ∧ t.stw.poison = [] ∧
    t.conc = { Conc.reset with nextSeq := s.conc.nextSeq } ∧ t.dir = ⟨[], [], []⟩ ∧
    (∀ k, keptWide k = false → t.reg k = regReset k) ∧ t.err.log = s.err.log ∧ t.err.seq = s.err.seq ∧
    t.ps.words = s.ps.words ∧ t.ps.counts = s.ps.counts ∧ t.outs = s.outs ∧ t.now = s.now ∧ t.pending = s.pending

/-- A reset cause is noted in the backup domain: its number, the landing, and one more in its count (R569). -/
def counted (s t : State) (cause : Nat) : Prop :=
  t.bk = { s.bk with
    cause := cause, landing := s.hall.landing, cnt := updAt s.bk.cnt (cause - 1) (fun n => (n + 1) % 2 ^ 32) }

/-- What a warm reset asserted at a time in RUN leaves (R541, R549, R550, R569). -/
def warmResetDone (s t : State) (at_ cause : Nat) : Prop :=
  t.rst.phase = .abort ∧ t.rst.ready = 1 ∧ t.rst.warm = some (at_ + 64000) ∧ t.rst.abortEnd = some (at_ + 50000) ∧
    t.rst.assertAt = at_ ∧ counted s t cause ∧ t.hall = s.hall ∧ t.conc.items = [] ∧ t.conc.mq = [] ∧
    t.conc.cmd = [] ∧ t.conc.cpl = [] ∧ t.conc.ten = Conc.reset.ten ∧ t.tiles = [] ∧ t.rc.lines = [] ∧
    t.rc.init = true ∧ t.selftest = none ∧ t.pending = s.pending

/-- The domain of the step taken last is ready: the time is its own time after the step, and the gap before the next
step begins (R552 to R554). -/
def domainUp (s : State) (strap : Nat) : State :=
  let stepAt := if s.rst.step = 1 then s.step1At strap else s.rst.stepAt
  let now := max s.now (stepAt + s.readyNs s.rst.step)
  { s with now := now, rst := { s.rst with stepAt := stepAt, ready := s.rst.step, gapFrom := some now } }

/-- Firmware starts from a slot of the store (R565, R613). -/
def started (s : State) (slot : Nat) : State :=
  { s with boot := { s.boot with
    state := 3, slot := slot, fwVer := s.psStored (slotCtl slot + 2), wdogCtl := 0x000101F4, wdogWritten := false,
    wdogStart := s.now, running := true } }

/-- Boot with the bytes of part of an image put in their places. -/
def imagePut (b : Boot) (off : Nat) (data : List Byte) : Boot :=
  { b with image := ((upto off data.length).zip data).foldl (fun m (x : Nat × Byte) => mapSet m x.1 x.2) b.image }

/-- The kind of a scheduled action: 0 a change of state, 1 a switch, 2 an epoch bump, 3 a migration, 4 the end of a
grace. -/
def actKind : SchedAct → Nat
  | .tableState _ _ => 0
  | .switch _ _ => 1
  | .epochBump _ => 2
  | .migrate _ _ _ => 3
  | .graceEnd _ _ => 4

/-- The command is the arrival of a frame for this engine. -/
def isArrival (i : Instr) (f : Frame) : Bool :=
  match i with
  | .gather g _ | .hallRead g _ => g == f
  | .reply g | .nack g | .update g | .updateAck g | .migStart g | .migData g | .migAck g | .migDone g | .hallWrite g
  | .hallAck g => g == f
  | _ => false

/-- The maintenance request that a command makes (R430, R435). -/
def mntOpOf (s : State) (i : Instr) : Option MntOp :=
  match i with
  | .invRange => some (.range (s.reg64 Reg.RC_MNT_ADDR_LO)
      (s.reg64 Reg.RC_MNT_ADDR_LO + 64 * (s.reg Reg.RC_MNT_LEN).toNat))
  | .invTable table slots => some (.table (table % 65536) (slots.testBit 0) (slots.testBit 1))
  | .invAll => some .all
  | .mntNop => some .nop
  | _ => none

/-- The scrub of a column runs: it is enabled or under a self-test, and the column is out of reset, outside a march test
and not in HALT. -/
def scrubs (s : State) (k : Nat) : Bool :=
  ((s.reg (stwReg k Reg.STW_CTL)).bit 0 || (s.selftest.bind (·.cur)) == some (2, k)) && !s.colHeld k &&
    (s.col k).test.isNone && (s.col k).temp != .halt

/-- Firmware runs and the packet that the management core takes next has an opcode. -/
def Turn (s : State) (op : Nat) (p : MqPkt) : Prop := s.fwRuns = true ∧ s.nextControl = some p ∧ p.op = op

/-- The opcode of a control command (R147). -/
def ctlOp : Instr → Option Nat
  | .statusGet _ => some 0x8000
  | .tenantSet _ => some 0x8001
  | .tenantDestroy _ => some 0x8002
  | .pasidBind _ => some 0x8004
  | .pasidUnbind _ => some 0x8005
  | .ringCreate _ => some 0x8010
  | .ringDestroy _ => some 0x8011
  | .ringReset _ => some 0x8012
  | .tableDefine _ => some 0x8020
  | .tableState _ => some 0x8021
  | .versionSwitch _ => some 0x8022
  | .shardMapWrite _ => some 0x8023
  | .epochBump _ => some 0x8024
  | .migrate _ => some 0x8025
  | .tableGrant _ => some 0x8026
  | .countersRead _ => some 0x8030
  | .telemetryCfg _ => some 0x8031
  | .selftest _ => some 0x8040
  | .fence _ => some 0x8041
  | .unitReset _ => some 0x8042
  | .drain _ => some 0x8043
  | .persistWrite _ => some 0x8050
  | .repairMapWrite _ => some 0x8051
  | .fwLoad _ => some 0x8060
  | .fwAccept _ => some 0x8061
  | .debugEnable _ => some 0x8062
  | .wearOverride _ => some 0x8063
  | .remoteReset _ => some 0x8064
  | .hostLossMode _ => some 0x8070
  | .reattach _ => some 0x8071
  | _ => none

/-- Units of a kind that UNIT_RESET names: galleries, copy channels, row-cache slices, stairwell columns. -/
def unitsOf (kind : Nat) : Nat :=
  match kind with
  | 0 => 18 | 1 => 40 | 2 => 16 | _ => 4

/-- The first failing check of a RING_CREATE packet (R136, R137). -/
def ringBad (s : State) (ws : List Word) : Option Ending :=
  let w0 := uw ws 2 0
  let w1 := uw ws 2 1
  let t := w0.bits 19 8
  let num := freeRing (if w0.bit 0 then s.conc.cpl.map (·.1) else s.conc.cmd.map (·.1))
  firstBad [
    rsvBad ws 8 31 20, nzBad (wordsBytes ws) 56 64,
    chk (decide (w0.bits 7 3 < 6) || decide (w0.bits 7 3 > 16)) (badAt 32), chk (!(s.tenant t).valid) (badAt 33),
    chk (w0.bit 0 && w0.bit 2) (badAt 32), chk (w0.bit 0 && w1.bits 12 0 != 0) (badAt 36),
    chk (!w0.bit 0 && w1.bits 31 13 != 0) (badAt 37), chk num.isNone ⟨St.noResource, 1, 0⟩,
    chk (decide (s.ringsOf t ≥ (s.tenant t).ringQuota)) ⟨St.noResource, 2, 0⟩,
    chk (w0.bit 2 && decide ((s.conc.cmd.filter (fun (_, r) => r.poll)).length ≥ 256)) ⟨St.noResource, 3, 0⟩,
    chk (w0.bit 0 && decide (w1.bits 23 13 ≥ 2 ^ (s.tenant t).msixLog)) (badAt 37),
    chk (!w0.bit 0 && !((mapGet s.conc.cpl (w1.bits 12 0)).any (fun q => q.tenant == t))) (badAt 36),
    chk (misaligned (uw64 ws 2 2) (max 4096 (32 * 2 ^ w0.bits 7 3))) (badAt 40), chk (misaligned (uw64 ws 2 4) 64) (badAt 48)]

/-- The completion ring that a RING_CREATE packet describes, just made (R137). -/
def newCpl (ws : List Word) : CplRing where
  tenant := (uw ws 2 0).bits 19 8
  engine := (uw ws 2 0).bit 1
  log2 := (uw ws 2 0).bits 7 3
  vector := (uw ws 2 1).bits 23 13
  coalesce := (uw ws 2 1).bits 31 24
  base := uw64 ws 2 2
  rcb := uw64 ws 2 4
  written := 0
  head := 0
  reserved := 0
  sinceMsg := 0
  advised := false
  headRead := none

/-- The command ring that a RING_CREATE packet describes, just made (R137). -/
def newCmd (ws : List Word) : CmdRing where
  tenant := (uw ws 2 0).bits 19 8
  engine := (uw ws 2 0).bit 1
  poll := (uw ws 2 0).bit 2
  log2 := (uw ws 2 0).bits 7 3
  cq := (uw ws 2 1).bits 12 0
  base := uw64 ws 2 2
  rcb := uw64 ws 2 4
  head := 0
  tail := 0
  halted := false
  destroying := false
  wait := .no
  wbHead := 0
  wbLanding := none
  buf := []
  again := false

/-- A self-test of galleries, slices and columns that begins, no unit taken yet (R602). -/
def newSelf (s : State) (p : MqPkt) (gs ss cs : List Nat) : State :=
  let t : SelfTest :=
    { pkt := p, gals := gs, slices := ss, cols := cs, cur := none, started := none, since := s.now, retest := none,
      failG := 0, failS := 0, failC := 0, skipG := 0, code := 0 }
  { s with selftest := some t }

/-- The opcode, source and packet of a command by which a datapath packet reaches the concourse (R132). -/
def dataPkt : Instr → Option (Nat × PktSrc × List Word)
  | .nop src pkt => some (0x00, src, pkt)
  | .bag src pkt => some (0x01, src, pkt)
  | .bagInteract src pkt => some (0x02, src, pkt)
  | .arrayOp src pkt => some (0x10, src, pkt)
  | .tileRead src pkt => some (0x11, src, pkt)
  | .tileWrite src pkt => some (0x12, src, pkt)
  | .vecChain src pkt => some (0x18, src, pkt)
  | .updateBatch src pkt => some (0x20, src, pkt)
  | .splitReduce src pkt => some (0x22, src, pkt)
  | .copy src pkt => some (0x30, src, pkt)
  | .recheck src pkt => some (0x40, src, pkt)
  | .inlineWrite src pkt => some (0x60, src, pkt)
  | _ => none

/-- The opcode, sequence number and packet of a command by which a packet comes over the lane (R133). -/
def lanePkt (c : Instr) : Option (Nat × Nat × List Word) :=
  match c with
  | .packet q pkt => some ((pkt.getD 0 0).bits 15 0, q, pkt)
  | _ => match dataPkt c with
    | some (op, .lane q, pkt) => some (op, q, pkt)
    | _ => none

/-- The command is none of those that may change the profile in force, the register latches and held halves, the hall's
time, the reset sequence, presence, the backup domain or the lane's waiting reads: these are landings, time and its
sources, resets and their steps, presence and its seals, and accesses of the registers themselves. -/
def serves : Instr → Bool
  | .presencePress | .presenceExpire | .sealSample _ | .backupSealSample _ | .presLedBlink | .thermtrip _
  | .coreSupplyRise _ | .landing | .flightLengthChange | .switchTakesEffect | .stateChangeTakesEffect
  | .epochBumpTakesEffect | .migrateStart | .graceEnd | .slotEmpty _ _ | .heldRun | .resyncStep | .spareEnabled
  | .floorBreach | .beaconSend | .beacon _ _ | .upstreamSwitch | .syncFree | .syncFreeLong | .refclkLoss
  | .refclkReturn | .fltRootWrite _ _ | .resync | .yfRstinAssert | .yfRstinRelease | .warm _ _ | .cold _ _
  | .standbyRailFall | .powerOn | .vbakLoss | .abortPhaseEnd | .resetHoldEnd | .releaseStep | .domainReady _ _
  | .wdogExpiry | .unitReset _ | .remoteReset _ | .hostLossReset | .registerWrite _ _ _ | .loWrite _ _
  | .hiWrite _ _ | .fltLenAtHiWrite _ | .loRead _ _ | .regRead _ _ | .laneReadNoResponse _ | .regWrite _ _ _ => false
  | _ => true

end Sys2Proof.Safety
end

