-- ==== Sys2Proof/Certificates/Slice0/Obligations.lean ====
section
/-! DEFINITION. The statements for the provers. -/
section

open Sys2Proof Sys2Proof.Machine Sys2Proof.Safety

/-- PRESENCE_PRESS with the seal closed and the standby rail up makes presence by button valid from now; with the seal
open or the rail down it changes nothing. PRESENCE_EXPIRE ends that presence 60 s after its press and not before.
SEAL_SAMPLE sets the seal's state; the second open sample in a row is a break, which ends presence, sets SEAL_TRIP and
makes one record of code 0x80, and any other sample makes none. BACKUP_SEAL_SAMPLE with only the backup supply sets
SEAL_TRIP on an open sample. PRES_LED_BLINK turns the blink's level while lab presence stands or the seal is open
without presence by button. Each leaves everything else as it was. -/
def Obligations.PresenceRows : Prop :=
  (∀ s : State, s.pres.sealOpen = false → s.rst.standby = true →
    exec .presencePress s = .next { s with pres := { s.pres with press := some s.now, lastPress := some s.now } }) ∧
  (∀ s : State, s.pres.sealOpen = true ∨ s.rst.standby = false → exec .presencePress s = .next s) ∧
  (∀ (s : State) (t : Nat), s.pres.press = some t →
    exec .presenceExpire s =
      .next { s with pres := { s.pres with press := none }, now := max s.now (t + 60000000000) }) ∧
  (∀ s : State, s.rst.standby = true → s.pres.openRun ≠ 1 →
    exec (.sealSample false) s =
      .next { s with pres := { s.pres with sealOpen := true, openRun := min 2 (s.pres.openRun + 1) } }) ∧
  (∀ s : State, s.rst.standby = true →
    exec (.sealSample true) s = .next { s with pres := { s.pres with sealOpen := false, openRun := 0 } }) ∧
  (∀ s : State, s.rst.standby = true → s.pres.openRun = 1 →
    exec (.sealSample false) s =
      .next (kept s (State.raise { s with
        pres := { s.pres with sealOpen := true, openRun := 2, broken := true, press := none },
        bk := { s.bk with sealTrip := true } } { code := 0x80 }))) ∧
  (∀ s : State, s.rst.standby = false → s.bk.gone = false →
    exec (.backupSealSample false) s = .next { s with bk := { s.bk with sealTrip := true } } ∧
      exec (.backupSealSample true) s = .next s) ∧
  (∀ s : State, s.labPresence = true ∨ (s.buttonPresence = false ∧ s.pres.sealOpen = true) →
    exec .presLedBlink s = .next { s with pres := { s.pres with blink := !s.pres.blink } }) ∧
  (∀ s : State, s.labPresence = false → s.buttonPresence = true ∨ s.pres.sealOpen = false →
    exec .presLedBlink s = .next s)

/-- PIN_KEEPER_RELEASE lets a pin's keeper go at its time. LANDING_PULSE_END lets the pulses on the pins fall at
theirs. THERMTRIP at 125 °C or above, where the pin is not yet asserted, asserts it and notes it in the backup domain
with a record of code 0x63; below 125 °C it changes nothing. CORE_SUPPLY_RISE releases the pin and the core supply is
up; a sensor at 125 °C or above asserts the pin again at once. HOT above 105 °C halves the budgets of the flights that
follow, once, with a record of code 0x60; at 100 °C or below they are restored. -/
def Obligations.PinRows : Prop :=
  (∀ (s : State) (n t : Nat) (b : Bool), (s.pins.getD n (Pin.reset 0)).keep = some (t, b) →
    exec (.pinKeeperRelease n) s =
      .next { s with pins := updAt s.pins n (fun p => { p with keep := none }), now := max s.now t }) ∧
  (∀ (s : State) (t : Nat), s.pins.findSome? (·.pulse) = some t →
    exec .landingPulseEnd s =
      .next { s with pins := s.pins.map (fun p => { p with pulse := none }), now := max s.now t }) ∧
  (∀ (s : State) (temp : Int), 125 ≤ temp → s.err.therm = false →
    exec (.thermtrip temp) s =
      .next (kept s (State.raise { s with err := { s.err with therm := true }, bk := { s.bk with therm := true } }
        { code := 0x63 }))) ∧
  (∀ (s : State) (temp : Int), temp < 125 → exec (.thermtrip temp) s = .next s) ∧
  (∀ (s : State) (temp : Int), temp < 125 →
    exec (.coreSupplyRise temp) s = .next { s with err := { s.err with therm := false, core := true } }) ∧
  (∀ (s : State) (temp : Int), 125 ≤ temp →
    exec (.coreSupplyRise temp) s =
      .next (kept s (State.raise
        { s with err := { s.err with therm := true, core := true }, bk := { s.bk with therm := true } }
        { code := 0x63 }))) ∧
  (∀ (s : State) (temp : Int), 105 < temp → s.flt.hotNext = false →
    exec (.hot temp) s =
      .next (kept s (State.raise { s with flt := { s.flt with hotNext := true } } { code := 0x60, d0 := temp.toNat }))) ∧
  (∀ (s : State) (temp : Int), temp ≤ 100 →
    exec (.hot temp) s = .next { s with flt := { s.flt with hotNext := false } }) ∧
  (∀ (s : State) (temp : Int), 100 < temp → temp ≤ 105 ∨ s.flt.hotNext = true → exec (.hot temp) s = .next s)

/-- Where a settings register would hold v after a write (its own field rules let it through as v) and v differs from
the word's value, the store's count for the word is below the gate of 950,000 and the queue has room,
RWP_REGISTER_WRITE of its address, and HR_MFP_FUNC_WRITE for word 5, queue the word and set the register, and pins
whose function changes follow. A register whose rules discard the value keeps it, and a word at the limit of 1,000,000
writes is refused with WEAR_REF alone. PERSIST_DONE with a write in hand puts the value in the word (word 0 takes the
bits that the engine sets from their live values), counts the write, up to the limit, and starts the next in the
queue, and the control packets that waited for it go on. -/
def Obligations.PersistentRegisters : Prop :=
  (∀ (s : State) (off word : Nat) (w v : Word), psWordOf off = some word → s.rwpValue word w = some v →
    s.psValue word ≠ v → s.psCount word < psGate → s.ps.busy = none ∨ s.ps.queue.length < 8 →
    exec (.rwpRegisterWrite off w) s = .next (kept s ((s.psPut word v false).rwpSet word v))) ∧
  (∀ (s : State) (w v : Word), s.rwpValue 5 w = some v →
    s.psValue 5 ≠ v → s.psCount 5 < psGate → s.ps.busy = none ∨ s.ps.queue.length < 8 →
    exec (.hrMfpFuncWrite w) s = .next (kept s ((s.psPut 5 v false).rwpSet 5 v))) ∧
  (∀ (s : State) (off word : Nat) (w : Word), psWordOf off = some word → s.rwpValue word w = none →
    exec (.rwpRegisterWrite off w) s = .next s) ∧
  (∀ (s : State) (off word : Nat) (w v : Word), psWordOf off = some word → s.rwpValue word w = some v →
    s.psValue word ≠ v → psLimit ≤ s.psCount word →
    exec (.rwpRegisterWrite off w) s = .next { s with ps := { s.ps with wearRef := true } }) ∧
  (∀ (s : State) (x : PsWrite) (t : Nat), s.ps.busy = some (x, t) →
    exec .persistDone s =
      .next (kept s (State.psOps { s with ps := { s.ps with
        words := mapSet s.ps.words x.word (if x.word = 0 then
          Word.ofNat (x.value.bits 12 8 * 2 ^ 8 + x.value.bits 1 0 + (s.reg Reg.ENG_PROFILE).bits 31 13 * 2 ^ 13)
          else x.value),
        counts := mapPut s.ps.counts x.word (min psLimit (mapCnt s.ps.counts x.word + 1)),
        busy := s.ps.queue.head?.map (fun y => (y, s.now)),
        queue := s.ps.queue.drop 1 } }).wake))

/-- YF_RSTIN_ASSERT with the standby rail up, and COLD by a lane write of HR_RST_CMD with KIND 2 and the key while
lane resets are allowed, make a wide reset: every domain is held with no step of the release taken, stairwell memory
and the concourse are empty, the directory is empty, the registers that a wide reset reaches read their reset values,
and the error log, the words and counts of the persistent store and what has been sent are as before; the cause is 2
and 3, its counter rises and the landing is noted, and COLD's source holds for 64 us, or 160 ns in large style. COLD
through the BAR is refused with a record of code 0x81. YF_RSTIN_RELEASE releases the pin's source and nothing else.
POWER_ON with the rail down and the backup domain intact counts cause 1 and starts the power-on source's 1,024 cycles
once the clock is good. STANDBY_RAIL_FALL loses the queue of the store, the error log and the registers and keeps the
store's words, its counts and the backup domain. VBAK_LOSS with the rail down loses the backup domain and with the
rail up changes nothing. -/
def Obligations.ColdSources : Prop :=
  (∀ s : State, s.rst.standby = true → s.rst.coldPin = false →
    ∃ t, exec .yfRstinAssert s = .next t ∧ wideResetDone s t ∧ t.rst.coldPin = true ∧ counted s t 2) ∧
  (∀ s : State, exec .yfRstinRelease s = .next { s with rst := { s.rst with coldPin := false } }) ∧
  (∀ (s : State) (w : Word), w.bits 1 0 = 2 → w.bits 31 16 = 0xA5C3 → s.domHeld 1 = false → s.laneTerms = true →
    ∃ t, exec (.cold .lane w) s = .next t ∧ wideResetDone s t ∧ counted s t 3 ∧
      t.rst.coldCmd = some (s.now + if s.rst.large then 160 else 64000)) ∧
  (∀ (s : State) (w : Word), w.bits 1 0 = 2 → w.bits 31 16 = 0xA5C3 → s.domHeld 1 = false →
    exec (.cold .bar w) s = .next (kept s (State.raise { s with rst := { s.rst with refused := true } }
      { code := 0x81, d0 := 2, d1 := 0 }))) ∧
  (∀ s : State, s.rst.standby = false → s.rst.coldPin = false → s.bk.gone = false →
    exec .powerOn s = .next { s with
      bk := { s.bk with
        cause := 1, landing := 2 ^ 64 - 1, cnt := updAt s.bk.cnt 0 (fun n => (n + 1) % 2 ^ 32) },
      rst := { s.rst with
        standby := true,
        porUntil := if s.hall.refLost = false ∨ s.hall.refReturn = true then some (s.now + 10240) else none,
        assertAt := s.now, outLow := some (s.now + 64000) } }) ∧
  (∀ s : State, s.rst.standby = true →
    ∃ t, exec .standbyRailFall s = .next t ∧ t.rst.standby = false ∧ t.rst.por = true ∧ t.rst.porUntil = none ∧
      t.rst.phase = .held ∧ t.rst.step = 0 ∧ t.rst.ready = 0 ∧ t.regs = [] ∧ t.err.log = [] ∧ t.err.seq = 0 ∧
      t.ps.busy = none ∧ t.ps.queue = [] ∧ t.ps.words = s.ps.words ∧ t.ps.counts = s.ps.counts ∧ t.bk = s.bk ∧
      t.stw.mem = []) ∧
  (∀ s : State, s.rst.standby = false →
    exec .vbakLoss s = .next { s with bk := { s.bk with gone := true, valid := false } }) ∧
  (∀ s : State, s.rst.standby = true → exec .vbakLoss s = .next s)

/-- From RUN, in a state that meets the invariant Sane, WARM (a write of HR_RST_CMD with KIND 1 and the key, through
the BAR, or over the lane while lane resets are allowed) is cause 4; the second stage of the watchdog is cause 5, and
HOST_LOSS_RESET, 100 ms after the link went down outside CONTINUE, cause 7. Each starts the abort phase: the source
holds for 64 us, the abort phase ends at most 50 us after the assertion, every domain but the handrail's is out of
service, the cause, the landing and the count are noted, and the concourse is left with no context, no control packet,
no ring and the reset tenant table; no tile is held, the row cache is empty and to be walked, no self-test runs, and
hall time is as it was. WARM without the key, or over the lane while lane resets are not allowed, is refused with a
record of code 0x81. -/
def Obligations.WarmSources : Prop :=
  (∀ (s : State) (path : Path) (w : Word), Sane s → w.bits 1 0 = 1 → w.bits 31 16 = 0xA5C3 → s.rst.phase = .run →
    path = .bar ∨ s.laneTerms = true →
    ∃ t, exec (.warm path w) s = .next t ∧ warmResetDone s t s.now 4) ∧
  (∀ s : State, Sane s → s.boot.running = true → s.boot.wdogCtl.bit 16 = true → s.rst.phase = .run →
    s.boot.wdogStage ≠ 0 →
    ∃ t, exec .wdogExpiry s = .next t ∧
      warmResetDone s t (max s.now (s.boot.wdogStart + 1000000 * s.boot.wdogCtl.bits 15 0)) 5) ∧
  (∀ s : State, Sane s → s.rst.phase = .run → s.xlt.host = .detached → s.xlt.fresh = false → s.xlt.mode = false →
    ∃ t, exec .hostLossReset s = .next t ∧ warmResetDone s t (max s.now (s.xlt.downSince + 100000000)) 7) ∧
  (∀ (s : State) (path : Path) (w : Word), w.bits 1 0 = 1 → s.domHeld 1 = false →
    w.bits 31 16 ≠ 0xA5C3 ∨ (path = .lane ∧ s.laneTerms = false) →
    exec (.warm path w) s = .next (kept s (State.raise { s with rst := { s.rst with refused := true } }
      { code := 0x81, d0 := 1, d1 := if path = .bar then 0 else 1 })))

/-- ABORT_PHASE_END in the abort phase holds the domains after step 1 (in large style the source then holds for 160
ns). RESET_HOLD_END releases the self-timed source that ends first, at its time. RELEASE_STEP takes the next step, not
before its due time, when the domain of the last one is ready, no source reaches the next and there is one; step 6
after a warm reset also starts the quarantine of every kite slot and the refusals, for twice the kites' life.
DOMAIN_READY makes the domain of the step taken ready, its time after the step: the work of step 1, 2, 3, 5 and 6 is
done, step 4 has none, step 1 has measured the strap and its style, and step 6 is RUN (in a state that meets the
invariant Sane). -/
def Obligations.ReleaseSequence : Prop :=
  (∀ s : State, s.rst.phase = .abort →
    exec .abortPhaseEnd s = .next { s with rst := { s.rst with
      phase := .held, step := 1, abortEnd := none,
      warm := if s.rst.large then some (s.now + 160) else s.rst.warm } }) ∧
  (∀ (s : State) (c : Nat), s.rst.phase ≠ .abort → s.rst.coldCmd = some c → (∀ w, s.rst.warm = some w → c ≤ w) →
    exec .resetHoldEnd s = .next { s with rst := { s.rst with coldCmd := none }, now := max s.now c }) ∧
  (∀ (s : State) (w : Nat), s.rst.phase ≠ .abort → s.rst.warm = some w → (∀ c, s.rst.coldCmd = some c → w < c) →
    exec .resetHoldEnd s = .next { s with rst := { s.rst with warm := none }, now := max s.now w }) ∧
  (∀ s : State, s.rst.phase = .held ∨ s.rst.phase = .releasing → s.rst.step = s.rst.ready → s.rst.step < 6 →
    s.stepHeld (s.rst.step + 1) = false → s.rst.step < 5 ∨ s.kite.quarWait = false →
    exec .releaseStep s = .next { s with
      now := max s.now s.stepDue,
      rst := { s.rst with
        phase := .releasing, step := s.rst.step + 1, stepAt := max s.now s.stepDue, por := false, porUntil := none } }) ∧
  (∀ s : State, s.rst.phase = .held ∨ s.rst.phase = .releasing → s.rst.step = 5 → s.rst.ready = 5 →
    s.stepHeld 6 = false → s.kite.quarWait = true →
    exec .releaseStep s = .next { s with
      now := max s.now s.stepDue,
      rst := { s.rst with
        phase := .releasing, step := 6, stepAt := max s.now s.stepDue, por := false, porUntil := none },
      kite := { s.kite with
        quarWait := false, nackWait := false,
        quarAll := some (max s.now s.stepDue + 2 * s.lifeNs),
        nackUntil := some (max s.now s.stepDue + 2 * s.lifeNs) } }) ∧
  (∀ (s : State) (strap : Nat) (temps : List Int), s.rst.phase = .releasing → s.rst.step = s.rst.ready + 1 →
    ∃ u, u = domainUp s strap ∧ u.rst.ready = s.rst.step ∧
      (s.rst.step = 1 → exec (.domainReady strap temps) s = .next (keptAt s (u.step1Ready strap))) ∧
      (s.rst.step = 2 → exec (.domainReady strap temps) s = .next (keptAt s (u.step2Ready temps))) ∧
      (s.rst.step = 3 → exec (.domainReady strap temps) s = .next (keptAt s u.walkDone)) ∧
      (s.rst.step = 4 → exec (.domainReady strap temps) s = .next (keptAt s u)) ∧
      (s.rst.step = 5 → exec (.domainReady strap temps) s = .next (keptAt s u.step5Ready)) ∧
      (s.rst.step = 6 → exec (.domainReady strap temps) s = .next (keptAt s u.step6Ready))) ∧
  (∀ (s : State) (strap : Nat) (temps : List Int), s.rst.phase = .releasing → s.rst.step = 1 → s.rst.ready = 0 →
    ∃ t, exec (.domainReady strap temps) s = .next t ∧ t.rst.strap = strap % 256 ∧
      t.rst.large = (strapBits (strap % 256)).testBit 0 ∧ t.boot.fromLane = (strapBits (strap % 256)).testBit 3) ∧
  (∀ (s : State) (strap : Nat) (temps : List Int), Sane s → s.rst.phase = .releasing → s.rst.step = 6 →
    s.rst.ready = 5 →
    ∃ t, exec (.domainReady strap temps) s = .next t ∧ t.rst.phase = .run)

/-- BOOT after step 4 waits for an image where the strap says so, and otherwise starts the image of the active slot
where its checks hold, else the other's where its do; with neither it stops in state 4 with a record of code 0x92.
BOOT_REQUEST asks for an image over the lane, at once and then once a second. BOOT_IMAGE keeps the bytes it brings,
and an image received whole starts where its check holds. ERR_WDOG_KICK with the watchdog enabled clears its stage and
restarts its count. ERR_WDOG_CTL_WRITE sets its control once after a start, while its stage is 0 and the period is at
least 10 ms, and otherwise changes nothing. WDOG_EXPIRY at stage 0 stops the image at the end of the period: boot
starts anew at stage 1 with the control at its reset value. -/
def Obligations.BootAndWatchdog : Prop :=
  (∀ s : State, s.boot.state = 0 → s.domHeld 4 = false → s.boot.fromLane = true →
    exec .boot s = .next { s with boot := { s.boot with state := 2, image := [], lastReq := none } }) ∧
  (∀ (s : State) (k : Nat), s.boot.state = 0 → s.domHeld 4 = false → s.boot.fromLane = false →
    k = (s.psStored 576).toNat % 2 → exec .boot s =
      if s.slotOk k then .next (started s k)
      else if s.slotOk (1 - k) then .next (started s (1 - k))
      else .next (kept s (State.raise { s with boot := { s.boot with state := 4 } } { code := 0x92, d0 := 1 - k }))) ∧
  (∀ s : State, s.boot.state = 2 → s.domHeld 4 = false → s.boot.lastReq = none →
    exec .bootRequest s =
      .next { s with outs := s.outs ++ [.lane 7 0 0 []], boot := { s.boot with lastReq := some s.now } }) ∧
  (∀ (s : State) (t : Nat), s.boot.state = 2 → s.domHeld 4 = false → s.boot.lastReq = some t →
    exec .bootRequest s =
      .next { s with
        outs := s.outs ++ [.lane 7 0 0 []],
        boot := { s.boot with lastReq := some (max s.now (t + 1000000000)) },
        now := max s.now (t + 1000000000) }) ∧
  (∀ (s : State) (off : Nat) (data : List Byte), s.boot.state = 2 → s.domHeld 4 = false → off + data.length ≤ 24576 →
    (imagePut s.boot off data).received = none →
    exec (.bootImage off data) s = .next { s with boot := imagePut s.boot off data }) ∧
  (∀ (s : State) (off : Nat) (data img : List Byte), s.boot.state = 2 → s.domHeld 4 = false →
    off + data.length ≤ 24576 → (imagePut s.boot off data).received = some img →
    exec (.bootImage off data) s = if Config.imageOk img
      then .next { s with boot := { imagePut s.boot off data with
        state := 3, fwVer := Config.imageVersion img, wdogCtl := 0x000101F4, wdogWritten := false, wdogStart := s.now,
        running := true } }
      else .next { s with boot := imagePut s.boot off data }) ∧
  (∀ s : State, s.fwRuns = true → s.boot.wdogCtl.bit 16 = true →
    exec .errWdogKick s = .next { s with boot := { s.boot with wdogStage := 0, wdogStart := s.now } }) ∧
  (∀ (s : State) (w : Word), s.fwRuns = true → s.boot.wdogWritten = false → s.boot.wdogStage = 0 → 10 ≤ w.bits 15 0 →
    exec (.errWdogCtlWrite w) s = .next { s with boot := { s.boot with
      wdogCtl := Word.ofNat (w.bits 16 0), wdogWritten := true, wdogStart := s.now } }) ∧
  (∀ (s : State) (w : Word), s.boot.wdogWritten = true ∨ s.boot.wdogStage ≠ 0 ∨ w.bits 15 0 < 10 →
    exec (.errWdogCtlWrite w) s = .next s) ∧
  (∀ s : State, s.boot.running = true → s.boot.wdogCtl.bit 16 = true → s.rst.phase = .run → s.boot.wdogStage = 0 →
    ∃ u : State, exec .wdogExpiry s = .next (keptAt s u.wake) ∧ u.boot.state = 0 ∧ u.boot.wdogStage = 1 ∧
      u.boot.wdogCtl = 0x000101F4 ∧ u.boot.wdogWritten = false ∧ u.boot.staged = none)

/-- On a running gallery GAL_CE counts one correctable error in the hour, makes a record of code 0x10, and at
ERR_CFG's count is a detection of kind 4; GAL_ERROR of kind 1 to 3 is a detection: a record of code 0x30 and the fence
of the gallery with cause 1. Neither changes anything on a gallery that does not run. SPARE_TEST_DONE, 50 us after the
spare's test began, makes a spare that passed ready for the next landing and fences one that failed. ERR_INJECT with
ARM set clears ARM and makes the error of its KIND at its gallery, marked as injected: a correctable error, a
detection, or a flipped bit of the next result; with ARM clear it changes nothing. HOUR_WINDOW starts the next hour at
3,600 s after the last and clears the hourly counts. -/
def Obligations.GalleryFaults : Prop :=
  (∀ (s : State) (g : Nat), s.galRuns g = true → (s.gal g).ceHour + 1 < s.rbits Reg.ERR_CFG 15 0 →
    exec (.galCe g) s = .next (kept s ((State.raise
      { s with gals := updAt s.gals g (fun x => { x with ceHour := (s.gal g).ceHour + 1 }) }
      { code := 0x10, kind := 1, unit := g, d0 := (s.gal g).ceHour + 1 }).wake))) ∧
  (∀ (s : State) (g : Nat), s.galRuns g = true → exec (.galCe g) s = .next (kept s ((s.galCorrected g false).wake))) ∧
  (∀ (s : State) (g det : Nat), s.galRuns g = true → 1 ≤ det → det ≤ 3 →
    exec (.galError g det) s = .next (kept s
      (((s.raise { code := 0x30, kind := 1, unit := g, d0 := det }).fenceGal g 1 false).wake))) ∧
  (∀ (s : State) (g det : Nat), s.galRuns g = false →
    exec (.galCe g) s = .next s ∧ exec (.galError g det) s = .next s) ∧
  (∀ (s : State) (g t : Nat), s.err.spareTest = some (g, t) → s.rst.phase = .run →
    exec (.spareTestDone true) s = .next { s with
      now := max s.now (t + 50000), err := { s.err with spareTest := none, spareReady := some g } } ∧
    exec (.spareTestDone false) s = .next (keptAt s ((State.fenceGal { s with
      now := max s.now (t + 50000), err := { s.err with spareTest := none } } g 2 false).wake))) ∧
  (∀ s : State, (s.reg Reg.ERR_INJECT).bit 31 = true → s.galRuns (s.rbits Reg.ERR_INJECT 6 2) = true →
    ((s.reg Reg.ERR_INJECT).bits 1 0 = 1 →
      exec .errInject s = .next (kept s (((s.setReg Reg.ERR_INJECT (s.reg Reg.ERR_INJECT &&& 0x7FFFFFFF)).galCorrected
        (s.rbits Reg.ERR_INJECT 6 2) true).wake))) ∧
    ((s.reg Reg.ERR_INJECT).bits 1 0 = 2 →
      exec .errInject s = .next (kept s (((s.setReg Reg.ERR_INJECT (s.reg Reg.ERR_INJECT &&& 0x7FFFFFFF)).galDetect
        (s.rbits Reg.ERR_INJECT 6 2) 1 true).wake))) ∧
    ((s.reg Reg.ERR_INJECT).bits 1 0 = 3 →
      exec .errInject s = .next { s.setReg Reg.ERR_INJECT (s.reg Reg.ERR_INJECT &&& 0x7FFFFFFF) with
        err := { s.err with injFlip := setIns s.err.injFlip (s.rbits Reg.ERR_INJECT 6 2) } })) ∧
  (∀ s : State, (s.reg Reg.ERR_INJECT).bit 31 = false → exec .errInject s = .next s) ∧
  (∀ s : State, s.domHeld 1 = false →
    exec .hourWindow s = .next { s with
      now := max s.now (s.err.hourStart + 3600000000000),
      err := { s.err with hourStart := s.err.hourStart + 3600000000000 },
      gals := s.gals.map (fun g => { g with ceHour := 0 }),
      rc := { s.rc with ueHour := [] } })

/-- FATAL makes a record of code 0xB0 with what failed and forces a drain with cause 4. A write of ERR_DRAIN_CMD with
its key forces a drain with cause 2; without its key it changes nothing. A write of ERR_FENCE_CMD with its key fences
a gallery that is not fenced and without which 8 still serve, with cause 4; any other write of it sets CMD_REFUSED and
nothing else, as does a write of either over the lane that the lane may not make. A forced drain of an engine that
drains already is no change. A write of ERR_PEND clears the bits it names and no other. DRAINED ends a drain once no
context is held and no other control packet is in hand: the state is DRAINED, a record of code 0x00 names the cause,
and the DRAIN packets end with ST_OK. -/
def Obligations.DrainAndFenceRegisters : Prop :=
  (∀ (s : State) (n : Nat), s.domHeld 1 = false →
    exec (.fatal n) s = .next (kept s (((s.raise { code := 0xB0, d0 := n }).forceDrain 4).wake))) ∧
  (∀ (s : State) (path : Path) (w : Word), s.domHeld 1 = false → s.laneRefused path = false → w.bits 31 16 = 0xD3A1 →
    exec (.errDrainCmd path w) s = .next (kept s ((s.forceDrain 2).wake))) ∧
  (∀ (s : State) (path : Path) (w : Word), s.laneRefused path = false → w.bits 31 16 ≠ 0xD3A1 →
    exec (.errDrainCmd path w) s = .next s) ∧
  (∀ (s : State) (n : Nat), s.err.drain = .draining ∨ s.err.drain = .drained → s.forceDrain n = s) ∧
  (∀ (s : State) (path : Path) (w : Word), s.domHeld 1 = false → s.laneRefused path = false → w.bits 31 16 = 0x5EC7 →
    w.bits 4 0 ≤ 17 → (s.gal (w.bits 4 0)).fenced = false → 8 ≤ s.servingWithout (w.bits 4 0) →
    exec (.errFenceCmd path w) s = .next (kept s ((s.fenceGal (w.bits 4 0) 4 false).wake))) ∧
  (∀ (s : State) (path : Path) (w : Word), s.domHeld 1 = false →
    s.laneRefused path = true ∨ w.bits 31 16 ≠ 0x5EC7 ∨ 17 < w.bits 4 0 ∨ (s.gal (w.bits 4 0)).fenced = true ∨
      s.servingWithout (w.bits 4 0) < 8 →
    exec (.errFenceCmd path w) s = .next { s with err := { s.err with cmdRefused := true } }) ∧
  (∀ (s : State) (path : Path) (w : Word), s.domHeld 1 = false → s.laneRefused path = true →
    exec (.errDrainCmd path w) s = .next { s with err := { s.err with cmdRefused := true } }) ∧
  (∀ (s : State) (path : Path) (w : Word), s.domHeld 1 = false →
    exec (.errPendClear path w) s = .next (s.setReg Reg.ERR_PEND (s.reg Reg.ERR_PEND &&& ~~~ w))) ∧
  (∀ s : State, s.rst.phase = .run → s.err.drain = .draining → s.conc.items = [] → s.selftest = none →
    (∀ o ∈ s.conc.ops, o.kind = .drain) →
    exec .drained s = .next (kept s ((s.conc.ops.foldl (fun (u : State) o => (u.dropOp o.pkt.seq).mgOk o.pkt 0)
      (State.raise { s with err := { s.err with drain := .drained } } { code := 0x00, d0 := s.err.drainCause })).wake))) ∧
  (∀ s : State, s.err.drain ≠ .draining ∨ s.conc.items ≠ [] → exec .drained s = .next s)

/-- While a unit is under test, SELFTEST_UNIT_DONE at the end of the unit's time (200 us for a gallery, 1 ms for a
slice, a column's by profile) takes its result: a pass returns the unit, a column's failure is noted with a record of
code 0x35 and returns it, and any other first failure is noted and the unit is tested again; a gallery must be idle
before its test begins, and one that was fenced meanwhile is returned as skipped. SELFTEST_IDLE_TIMEOUT, 10 ms after a
gallery left assignment, returns one that has not become idle as skipped, and it changes nothing for one whose test
has begun. With no self-test in progress neither changes anything. -/
def Obligations.SelfTestRows : Prop :=
  (∀ (s : State) (t : SelfTest) (kind u code : Nat), s.selftest = some t → t.cur = some (kind, u) →
    s.rst.phase = .run → kind ≠ 0 ∨ ((t.started ≠ none ∨ s.galIdle u = true) ∧ (s.gal u).fenced = false) →
    exec (.selftestUnitDone code) s = .next (keptAt s ((State.selfResult
      { s with now := max s.now (t.started.getD s.now + s.selfNs kind) } kind u (code % 8) t.retest).wake))) ∧
  (∀ (s : State) (u kind code : Nat), s.selfResult kind u 0 none = s.selfReturn ∧
    (code ≠ 0 → kind ≠ 2 → ∀ t, s.selftest = some t → ∃ c : SelfTest, (s.selfResult kind u code none) =
      { s with selftest := some { c with retest := some code, started := some s.now } } ∧ c.pkt = t.pkt ∧
        c.cur = t.cur)) ∧
  (∀ (s : State) (t : SelfTest) (u code : Nat), s.selftest = some t → t.cur = some (0, u) →
    s.rst.phase = .run → (t.started ≠ none ∨ s.galIdle u = true) → (s.gal u).fenced = true →
    exec (.selftestUnitDone code) s = .next (keptAt s ((State.selfReturn
      { s with selftest := some { t with skipG := t.skipG ||| 2 ^ u } }).wake))) ∧
  (∀ (s : State) (t : SelfTest) (u : Nat), s.selftest = some t → t.cur = some (0, u) →
    s.rst.phase = .run → t.started = none → s.galIdle u = false →
    exec .selftestIdleTimeout s = .next (keptAt s ((State.selfReturn { s with
      now := max s.now (t.since + 10000000), selftest := some { t with skipG := t.skipG ||| 2 ^ u } }).wake))) ∧
  (∀ (s : State) (t : SelfTest) (u : Nat), s.selftest = some t → t.cur = some (0, u) → t.started ≠ none →
    exec .selftestIdleTimeout s = .next s) ∧
  (∀ (s : State) (code : Nat), s.selftest = none →
    exec (.selftestUnitDone code) s = .next s ∧ exec .selftestIdleTimeout s = .next s)

/-- ERROR_RECORD sends the oldest record of the log that has not gone over the lane and moves past it; with none left
it changes nothing. TELEMETRY while firmware runs sends one record in 2^DECIM and counts the others; what the record
holds is a free value (log 7). TELEMETRY_WINDOW raises DECIM by one, up to 6, after a window in which the control
queue stayed at or above 75 %, lowers it by one, down to 0, after one in which it stayed below 25 %, and starts the
next window. UNIT_RESET_DONE ends the oldest unit reset in hand at its time with ST_OK; a column then makes its
pending repairs. -/
def Obligations.RecordsAndTelemetry : Prop :=
  (∀ s : State, s.domHeld 1 = false → s.err.sent < s.err.seq →
    exec .errorRecord s = .next { s with
      outs := s.outs ++ [.lane 5 0 0 ((mapGet s.err.log (s.err.sent % 1024)).getD [])],
      err := { s.err with sent := s.err.sent + 1 } }) ∧
  (∀ s : State, s.err.seq ≤ s.err.sent → exec .errorRecord s = .next s) ∧
  (∀ s : State, s.fwRuns = true → s.conc.teleCount + 1 < 2 ^ s.conc.decim →
    exec .telemetry s = .next { s with conc := { s.conc with teleCount := s.conc.teleCount + 1 } }) ∧
  (∀ s : State, s.fwRuns = true → 2 ^ s.conc.decim ≤ s.conc.teleCount + 1 →
    ∃ ws, exec .telemetry s = .next { s with
      outs := s.outs ++ [.lane 6 0 0 ws], conc := { s.conc with teleCount := 0 }, freeSeq := s.freeSeq + 1 }) ∧
  (∀ s : State, s.domHeld 4 = false →
    exec .telemetryWindow s = .next { s with conc := Conc.noteMq { s.conc with
      decim := if s.conc.mqHigh = true then min 6 (s.conc.decim + 1)
        else if s.conc.mqLow = true then s.conc.decim - 1 else s.conc.decim,
      mqHigh := true, mqLow := true } }) ∧
  (∀ (s : State) (pre post : List MgmtOp) (p : MqPkt) (kind u t : Nat),
    s.conc.ops = pre ++ { pkt := p, kind := .unitReset kind u t } :: post →
    (∀ o ∈ pre, ∀ k v w, o.kind ≠ .unitReset k v w) → kind ≠ 3 →
    exec .unitResetDone s = .next (keptAt s (((State.dropOp { s with now := max s.now t } p.seq).mgOk p 0).wake))) ∧
  (∀ (s : State) (pre post : List MgmtOp) (p : MqPkt) (u t : Nat),
    s.conc.ops = pre ++ { pkt := p, kind := .unitReset 3 u t } :: post →
    (∀ o ∈ pre, ∀ k v w, o.kind ≠ .unitReset k v w) →
    exec .unitResetDone s =
      .next (keptAt s ((((State.colPending { s with now := max s.now t } u).dropOp p.seq).mgOk p 0).wake)))

/-- LO_READ through the BAR answers the register's value; of a _LO register in a domain that is out of reset it also
latches the matching _HI half, and the next read of that _HI register in whatever state has the latch, through the
BAR, answers the latched half and drops the latch. REG_READ over the lane is answered with result 0 and the value when
the register's domain is out of reset, and otherwise waits. LANE_READ_NO_RESPONSE answers a read that waits: with
result 1 while the domain is still held, and with result 0 and the value once it is not. Every read that gives a value
uses up one draw of a free value, and no clause changes anything it does not name. -/
def Obligations.RegisterReads : Prop :=
  (∀ (s : State) (off : Nat), s.regHeld off = false → isLo off = true →
    exec (.loRead .bar off) s = .next { s with
      latch := mapSet s.latch (latchKey .bar (off + 4)) ((s.draw).regVal (off + 4)),
      outs := s.outs ++ [.barRead (s.regVal off).toNat],
      freeSeq := s.freeSeq + 1 }) ∧
  (∀ (s : State) (off : Nat) (w : Word), s.regHeld off = false → isLo off = false → isHi off = true →
    mapGet s.latch (latchKey .bar off) = some w →
    exec (.loRead .bar off) s = .next { s with
      latch := mapDel s.latch (latchKey .bar off),
      outs := s.outs ++ [.barRead w.toNat],
      freeSeq := s.freeSeq + 1 }) ∧
  (∀ (s : State) (off : Nat), s.regHeld off = true ∨ (isLo off = false ∧ isHi off = false) →
    exec (.loRead .bar off) s =
      .next { s with outs := s.outs ++ [.barRead (s.regVal off).toNat], freeSeq := s.freeSeq + 1 }) ∧
  (∀ (s : State) (off : Nat), exec (.loRead .lane off) s = .next (kept s (s.read32 .lane off).1)) ∧
  (∀ (s : State) (seq off : Nat), s.domHeld 1 = false → s.regHeld off = false →
    exec (.regRead seq off) s =
      .next (kept s ((s.read32 .lane off).1.emit (.lane 2 0 seq [(s.read32 .lane off).2])))) ∧
  (∀ (s : State) (seq off : Nat), s.domHeld 1 = false → s.regHeld off = true → inBlock off = true →
    exec (.regRead seq off) s = .next { s with laneReqs := s.laneReqs ++ [(seq, off)] }) ∧
  (∀ (s : State) (seq off : Nat), s.domHeld 1 = false → s.laneReqs.find? (fun x => x.1 == seq) = some (seq, off) →
    s.regHeld off = true →
    exec (.laneReadNoResponse seq) s = .next { s with
      laneReqs := s.laneReqs.filter (fun x => x.1 != seq), outs := s.outs ++ [.lane 2 1 seq [0]] }) ∧
  (∀ (s : State) (seq off : Nat), s.domHeld 1 = false → s.laneReqs.find? (fun x => x.1 == seq) = some (seq, off) →
    s.regHeld off = false →
    ∃ u : State, u = { s with laneReqs := s.laneReqs.filter (fun x => x.1 != seq) } ∧
      exec (.laneReadNoResponse seq) s =
        .next (kept s ((u.read32 .lane off).1.emit (.lane 2 0 seq [(u.read32 .lane off).2]))))

/-- LO_WRITE of a _LO register that can be written holds the half apart and changes nothing else. HI_WRITE of the
matching _HI register, where the pair takes writes, then sets both halves, each by its writable bits, and holds the
half no longer. FLT_LEN_AT_HI_WRITE arms FLT_LEN_NEXT.LEN at the landing that the held half and the written one give,
where a standalone engine or the root may change it, the length is between 25 and 6,400 and the landing at least two
ahead, and arms nothing otherwise. REGISTER_WRITE of 4 bytes of a register without an effect of its own, whose rule
takes the value, sets its writable bits, and work that waited goes on; of 8 bytes it is the write of the lower word
and then of the upper. A write of another width or alignment, of a register whose domain is held, or past the last
register changes nothing. REG_WRITE over the lane answers first, with result 0, and with result 2 where R540 or R609
denies it, and then takes effect; of a register that cannot be written over the lane it answers with result 2 and
changes nothing else. -/
def Obligations.RegisterWrites : Prop :=
  (∀ (s : State) (off : Nat) (w : Word), off % 4 = 0 → off < 0x220000 → s.regHeld off = false → s.galDark off = false →
    isLo off = true → regMask off ≠ 0 →
    exec (.loWrite off w) s = .next { s with heldLo := mapSet s.heldLo (regNorm off) w }) ∧
  (∀ (s : State) (off : Nat) (v w : Word), off % 4 = 0 → off < 0x220000 → s.regHeld off = false →
    s.galDark off = false → isLo off = false → isHi off = true → regMask off ≠ 0 →
    regNorm (off - 4) ≠ Reg.FLT_LEN_AT_LO → regNorm (off - 4) ≠ Reg.GAL_STAT_BASE_LO →
    s.pairShut (regNorm (off - 4)) = false → mapGet s.heldLo (regNorm (off - 4)) = some v →
    exec (.hiWrite off w) s = .next (kept s
      ((State.setReg { s with heldLo := mapDel s.heldLo (regNorm (off - 4)) } (regNorm (off - 4))
        (v &&& regMask (regNorm (off - 4)))).setReg (regNorm (off - 4) + 4)
        (w &&& regMask (regNorm (off - 4) + 4))))) ∧
  (∀ (s : State) (v w : Word), s.domHeld 1 = false → mapGet s.heldLo Reg.FLT_LEN_AT_LO = some v →
    25 ≤ s.hall.lenNext → s.hall.lenNext ≤ 6400 → s.hall.landing + 2 ≤ Word.pair v w →
    s.hall.sync = .root ∨ s.hall.sync = .standalone →
    exec (.fltLenAtHiWrite w) s = .next { s with
      heldLo := mapDel s.heldLo Reg.FLT_LEN_AT_LO,
      hall := { s.hall with lenAt := Word.pair v w, lenPend := some (s.hall.lenNext, Word.pair v w) } }) ∧
  (∀ (s : State) (v w : Word), s.domHeld 1 = false → mapGet s.heldLo Reg.FLT_LEN_AT_LO = some v →
    s.hall.lenNext < 25 ∨ 6400 < s.hall.lenNext ∨ Word.pair v w < s.hall.landing + 2 ∨
      (s.hall.sync ≠ .root ∧ s.hall.sync ≠ .standalone) →
    exec (.fltLenAtHiWrite w) s = .next { s with heldLo := mapDel s.heldLo Reg.FLT_LEN_AT_LO }) ∧
  (∀ (s : State) (off : Nat) (w : Word), off % 4 = 0 → off < 0x220000 → s.regHeld off = false → s.galDark off = false →
    isLo off = false → isHi off = false → s.writeAct .bar off w = none → s.clearBits off w = none →
    regMask off ≠ 0 → s.writeOk (regNorm off) w = true → s.rst.phase = .run → regNorm off ≠ Reg.XLT_PRI_CFG →
    regNorm off < Reg.RC_SALT0 ∨ Reg.RC_SALT7 < regNorm off →
    exec (.registerWrite off 4 w.toNat) s = .next (kept s ((s.setReg (s.regKey off)
      ((s.reg (s.regKey off) &&& ~~~ regMask off) ||| (s.keepSize (regNorm off) w &&& regMask off))).wake))) ∧
  (∀ (s : State) (off v : Nat), off % 8 = 0 →
    exec (.registerWrite off 8 v) s = .next (kept s
      ((s.write32 .bar off (Word.ofNat v)).write32 .bar (off + 4) (Word.ofNat (v / 2 ^ 32))))) ∧
  (∀ (s : State) (off width v : Nat), (width ≠ 4 ∧ width ≠ 8) ∨ off % width ≠ 0 ∨
      (width = 4 ∧ (s.regHeld off = true ∨ 0x220000 ≤ off)) →
    exec (.registerWrite off width v) s = .next s) ∧
  (∀ (s : State) (seq off : Nat) (w : Word), s.domHeld 1 = false → laneWritable off = true →
    exec (.regWrite seq off w) s = .next (kept s (State.write32
      { s with outs := s.outs ++ [.lane 2 (if s.laneDenied off w then 2 else 0) seq [0]] } .lane off w))) ∧
  (∀ (s : State) (seq off : Nat) (w : Word), s.domHeld 1 = false → laneWritable off = false →
    exec (.regWrite seq off w) s = .next { s with outs := s.outs ++ [.lane 2 2 seq [0]] })

/-- In a state that meets the invariant Sane, with the handrail out of reset and no step pending, LANDING goes on to a
state whose landing number is one more, and whose landing time is that of the next landing; FLT_ROOT as written is in
force; YF_REFCLK that has returned is taken up; an armed length whose landing has come, in force neither held nor
under FREE_LONG, is the length in force and is armed no longer, and with none armed the length stays; what the flight
that opens is slewed by is at most an eighth of it. With the core running or in reset the reset controller, presence,
the backup domain and the profile are as before. While the handrail is held LANDING changes nothing. -/
def Obligations.LandingGrid : Prop :=
  (∀ s : State, Sane s → s.domHeld 1 = false → s.hall.stepPend = none →
    ∃ t, exec .landing s = .next t ∧ t.hall.landing = s.hall.landing + 1 ∧ t.hall.landingAt = s.nextLanding ∧
      t.hall.root = s.hall.root ∧ t.hall.rootInForce = s.hall.root ∧
      t.hall.refLost = (s.hall.refLost && !s.hall.refReturn) ∧ t.hall.refReturn = false ∧
      (s.hall.lenPend = none → t.hall.len = s.hall.len) ∧
      (∀ l a, s.hall.lenPend = some (l, a) → a ≤ s.hall.landing + 1 → s.hall.lenHeld = false →
        t.hall.sync ≠ .freeLong → t.hall.len = l ∧ t.hall.lenPend = none) ∧
      (∀ l a, s.hall.lenPend = some (l, a) → s.hall.landing + 1 < a →
        t.hall.len = s.hall.len ∧ t.hall.lenPend = some (l, a)) ∧
      8 * t.hall.slewed ≤ 10 * t.hall.len ∧ -(10 * (t.hall.len : Int)) ≤ 8 * t.hall.slewed ∧
      t.rst = s.rst ∧ t.pres = s.pres ∧ t.bk = s.bk ∧ t.active = s.active) ∧
  (∀ s : State, s.domHeld 1 = true → exec .landing s = .next s)

/-- Each row that names an effect of a landing runs the next landing, whole, when that landing has the effect, and
changes nothing when it has not (log 37): the end of a pending change of the flight length; the execution of a
scheduled switch, state change, epoch bump, migration or end of grace; an OLD slot that is OLD no longer; a held
action or a held length; the step of a resynchronisation; the enabling of a spare; a count of galleries that falls
below FLOOR. -/
def Obligations.LandingEffects : Prop :=
  ∀ s : State,
    exec .flightLengthChange s =
      .next (if (s.hall.lenPend.isSome && s.landing.hall.lenPend.isNone) = true then keptAt s s.landing else s) ∧
    exec .switchTakesEffect s =
      .next (if s.actDone s.landing (fun x => actKind x.act == 1) = true then keptAt s s.landing else s) ∧
    exec .stateChangeTakesEffect s =
      .next (if s.actDone s.landing (fun x => actKind x.act == 0) = true then keptAt s s.landing else s) ∧
    exec .epochBumpTakesEffect s =
      .next (if s.actDone s.landing (fun x => actKind x.act == 2) = true then keptAt s s.landing else s) ∧
    exec .migrateStart s =
      .next (if s.actDone s.landing (fun x => actKind x.act == 3) = true then keptAt s s.landing else s) ∧
    exec .graceEnd s =
      .next (if s.actDone s.landing (fun x => actKind x.act == 4) = true then keptAt s s.landing else s) ∧
    (∀ table slot, exec (.slotEmpty table slot) s =
      .next (if (s.slotOld table slot && !s.landing.slotOld table slot) = true then keptAt s s.landing else s)) ∧
    exec .heldRun s =
      .next (if (s.actDone s.landing (fun x => x.held) || (s.hall.lenHeld && !s.landing.hall.lenHeld)) = true
        then keptAt s s.landing else s) ∧
    exec .resyncStep s =
      .next (if (s.hall.stepPend.isSome && s.landing.hall.stepPend.isNone) = true then keptAt s s.landing else s) ∧
    exec .spareEnabled s =
      .next (if (s.err.spareReady.isSome && s.landing.err.spareReady.isNone) = true then keptAt s s.landing else s) ∧
    exec .floorBreach s =
      .next (if (!s.err.belowFloor && s.landing.err.belowFloor) = true then keptAt s s.landing else s)

/-- An action that runs at its landing and was not held changes its table and ends its packet with ST_OK: a switch to
a READY slot of a table that is not RETIRING makes it current, the slot that was current OLD from this landing, and a
LOADING table SERVING; a change of state that the table allows (other than to TRAINING, which also invalidates its
rows) takes effect; an epoch bump moves every shard's NEXT in and raises the epoch. A table that does not exist, or
one that does not allow the action, ends the packet with ST_BAD_STATE and is left as it was. -/
def Obligations.ScheduledActions : Prop :=
  (∀ (s : State) (x : Sched) (p : MqPkt) (id slot : Nat) (t : Table), x.act = .switch id slot → x.held = false →
    x.pkt = some p → s.table id = some t → t.st ≠ .retiring → (t.slot slot).st = .ready →
    s.runAct x = (s.modTable id (fun t => t.switchTo slot s.hall.landing)).endSched p x.named x.landing St.ok 0) ∧
  (∀ (s : State) (x : Sched) (p : MqPkt) (id target : Nat) (t : Table), x.act = .tableState id target →
    x.held = false → x.pkt = some p → s.table id = some t → t.mayEnter target = true → target ≠ 3 →
    s.runAct x = (s.modTable id (fun t => t.enter target s.hall.landing)).endSched p x.named x.landing St.ok 0) ∧
  (∀ (s : State) (x : Sched) (p : MqPkt) (id : Nat) (t : Table), x.act = .epochBump id → x.held = false →
    x.pkt = some p → s.table id = some t →
    s.runAct x = ((s.modTable id (fun t => s.bumpLoads t t.bump)).migBump id).endSched p x.named x.landing St.ok 0) ∧
  (∀ (t : Table) (slot landing : Nat), slot ≤ 1 → (t.slot (1 - slot)).st = .current →
    ((t.switchTo slot landing).slot slot).st = .current ∧
    (t.switchTo slot landing).slot (1 - slot) = ⟨.old, landing, none⟩ ∧ (t.switchTo slot landing).cur = slot) ∧
  (∀ (s : State) (x : Sched) (p : MqPkt) (id slot : Nat), x.act = .switch id slot → x.held = false →
    x.pkt = some p → s.table id = none → s.runAct x = s.endSched p x.named x.landing St.badState 0) ∧
  (∀ (s : State) (x : Sched) (p : MqPkt) (id target : Nat) (t : Table), x.act = .tableState id target →
    x.held = false → x.pkt = some p → s.table id = some t → t.mayEnter target = false →
    s.runAct x = s.endSched p x.named x.landing St.badState t.st.code)

/-- BEACON_SEND of a root sends one beacon on every lit port whose link is up, 1 us after the last; of any other
engine it changes nothing. BEACON that an engine below a root may accept is taken in, and then the last valid beacon
is this one; one it may not accept is counted and discarded, and a standalone engine, a root and one without YF_REFCLK
take none. UPSTREAM_SWITCH changes the port in use 2 us after its last beacon when the other port's last beacon is
younger and no more than 2 us old. SYNC_FREE, 8 us after the last valid beacon, makes a SYNCED engine FREE with a
record of code 0x50, and SYNC_FREE_LONG, more than 1,008 us after it, a FREE one FREE_LONG with a record of code 0x51.
-/
def Obligations.BeaconRows : Prop :=
  (∀ s : State, s.hall.sync = .root → s.domHeld 1 = false → s.hall.lastSent = none →
    exec .beaconSend s = .next { s with
      outs := s.outs ++ s.beaconPorts.map (fun p =>
        .beacon p s.hall.landing s.phaseNs s.hall.len s.hall.lenPend s.engineId 0),
      hall := { s.hall with lastSent := some s.now } }) ∧
  (∀ (s : State) (l : Nat), s.hall.sync = .root → s.domHeld 1 = false → s.hall.lastSent = some l →
    exec .beaconSend s = .next { s with
      now := max s.now (l + 1000),
      outs := s.outs ++ s.beaconPorts.map (fun p =>
        .beacon p s.hall.landing (max s.now (l + 1000) - s.hall.landingAt) s.hall.len s.hall.lenPend s.engineId 0),
      hall := { s.hall with lastSent := some (max s.now (l + 1000)) } }) ∧
  (∀ s : State, s.hall.sync ≠ .root → exec .beaconSend s = .next s) ∧
  (∀ (s : State) (port : Nat) (b : Beacon), s.takesBeacons = true → s.beaconOk port b = true →
    exec (.beacon port b) s = .next (kept s (s.takeBeacon port b)) ∧
      (port = s.hall.root.bits 23 20 → (s.takeBeacon port b).hall.lastUp = some s.now) ∧
      (port ≠ s.hall.root.bits 23 20 → (s.takeBeacon port b).hall.lastAlt = some s.now)) ∧
  (∀ (s : State) (port : Nat) (b : Beacon), s.takesBeacons = true → s.beaconOk port b = false →
    exec (.beacon port b) s = .next { s with hall := { s.hall with beaconDrop := s.hall.beaconDrop + 1 } }) ∧
  (∀ (s : State) (port : Nat) (b : Beacon), s.takesBeacons = false → exec (.beacon port b) s = .next s) ∧
  (∀ (s : State) (a b : Nat), s.takesBeacons = true → s.hall.root.bit 28 = true → s.hall.lastActive = some a →
    (if s.hall.upActive then s.hall.lastUp else s.hall.lastAlt) = some b → a < b → max s.now (a + 2000) ≤ b + 2000 →
    exec .upstreamSwitch s =
      .next { s with now := max s.now (a + 2000), hall := { s.hall with upActive := !s.hall.upActive } }) ∧
  (∀ (s : State) (t : Nat), s.hall.lastBeacon = some t → s.hall.sync = .synced → s.domHeld 1 = false →
    exec .syncFree s = .next (keptAt s (State.raise
      { s with now := max s.now (t + 8000), hall := { s.hall with sync := .free, goodRun := 0 } }
      { code := 0x50, d0 := s.hall.lastLanding % 2 ^ 32 }))) ∧
  (∀ (s : State) (t : Nat), s.hall.lastBeacon = some t → s.hall.sync = .free → s.domHeld 1 = false →
    exec .syncFreeLong s = .next (keptAt s (State.raise
      { s with now := max s.now (t + 1009000), hall := { s.hall with sync := .freeLong } } { code := 0x51 })))

/-- With the power-on source released and the handrail out of reset, REFCLK_LOSS of a clock that was there makes a
record of code 0x54, and a SYNCED engine is FREE; REFCLK_RETURN of one that was lost is noted for the next landing.
FLT_ROOT_WRITE keeps the writable bits of the word; a root that it makes an engine below another counts its silence
from now. RESYNC makes the next valid beacon one after a loss. LAG_CLR clears the lag at the next landing. NRG_WINDOW
on a profile without an energy budget clears the window; on one with it keeps the static charge and spreads the excess
over the next 1 ms. -/
def Obligations.ClockAndFlightRows : Prop :=
  (∀ s : State, s.porHeld = false → s.domHeld 1 = false → s.hall.refLost = false → s.hall.sync ≠ .synced →
    exec .refclkLoss s = .next (kept s (State.raise
      { s with hall := { s.hall with refLost := true, refReturn := false } } { code := 0x54 }))) ∧
  (∀ s : State, s.porHeld = false → s.domHeld 1 = false → s.hall.refLost = false → s.hall.sync = .synced →
    exec .refclkLoss s = .next (kept s (State.enterFree (State.raise
      { s with hall := { s.hall with refLost := true, refReturn := false } } { code := 0x54 })))) ∧
  (∀ s : State, s.porHeld = false → s.domHeld 1 = false → s.hall.refLost = true →
    exec .refclkReturn s = .next { s with hall := { s.hall with refReturn := true } }) ∧
  (∀ s : State, s.porHeld = false → s.domHeld 1 = false → s.hall.refLost = false → exec .refclkReturn s = .next s) ∧
  (∀ s : State, s.porHeld = true → s.rst.standby = true → s.rst.porUntil = none →
    exec .refclkReturn s = .next { s with
      hall := { s.hall with refLost := false, refReturn := false },
      rst := { s.rst with porUntil := some (s.now + 10240) } }) ∧
  (∀ s : State, s.porHeld = true →
    exec .refclkLoss s = .next { s with
      hall := { s.hall with refLost := true, refReturn := false }, rst := { s.rst with porUntil := none } }) ∧
  (∀ (s : State) (path : Path) (w : Word), s.domHeld 1 = false → s.hall.sync ≠ .root →
    exec (.fltRootWrite path w) s = .next { s with hall := { s.hall with root := w &&& 0x1FF7FFFF } }) ∧
  (∀ (s : State) (path : Path) (w : Word), s.domHeld 1 = false → s.hall.sync = .root →
    (w &&& 0x1FF7FFFF).bit 18 = true → (w &&& 0x1FF7FFFF).bits 17 0 ≠ s.engineId →
    exec (.fltRootWrite path w) s =
      .next { s with hall := { s.hall with root := w &&& 0x1FF7FFFF, lastBeacon := some s.now } }) ∧
  (∀ s : State, s.rst.phase = .run →
    exec .resync s = .next { s with hall := { s.hall with resync := true } } ∧
    exec .lagClr s = .next { s with flt := { s.flt with lagClr := true } }) ∧
  (∀ (s : State) (static measured : Nat), s.rst.phase = .run → s.active ≠ 2 →
    exec (.nrgWindow static measured) s = .next { s with flt := { s.flt with nrg := ⟨0, 0, 0, 0⟩ } }) ∧
  (∀ (s : State) (static measured : Nat), s.rst.phase = .run → s.active = 2 →
    ∃ corr, exec (.nrgWindow static measured) s = .next { s with flt := { s.flt with
      nrg := { chargedPj := 0, corr := corr, corrEnd := s.now + 1000000, staticNj := static } } })

/-- With the handrail out of reset, a frame whose age is at most 16,000 ns is taken up as its kind says: GATHER,
UPDATE, MIG_START, MIG_DATA, HALL_READ and HALL_WRITE by the home's terminal, and the answers REPLY, NACK, UPDATE_ACK,
MIG_ACK, MIG_DONE and HALL_ACK by this engine's tethers once the Zhoni datapath is out of reset, and then work that
waited goes on. A frame that is older is discarded whatever its kind, and ZP_AGEDROP_CNT counts it. While the handrail
is held nothing arrives. -/
def Obligations.FrameArrivals : Prop :=
  (∀ (s : State) (f : Frame) (e : Ecc), s.domHeld 1 = false → f.age ≤ 16000 →
    exec (.gather f e) s = .next (kept s (State.gatherArrive s { f with kind := kGather } e).wake) ∧
    exec (.update f) s = .next (kept s (State.updCheck s { f with kind := kUpdate }).wake) ∧
    exec (.migStart f) s = .next (kept s (State.migStartArrive s { f with kind := kMigStart }).wake) ∧
    exec (.migData f) s = .next (kept s (State.migDataArrive s { f with kind := kMigData }).wake) ∧
    exec (.hallRead f e) s = .next (kept s (State.hallArrive s { f with kind := kHallRead } e).wake) ∧
    exec (.hallWrite f) s = .next (kept s (State.hallArrive s { f with kind := kHallWrite } .good).wake)) ∧
  (∀ (s : State) (f : Frame), s.rst.phase = .run → f.age ≤ 16000 →
    exec (.reply f) s = .next (kept s (State.replyTake s { f with kind := kReply }).wake) ∧
    exec (.nack f) s = .next (kept s (State.nackArrive s { f with kind := kNack }).wake) ∧
    exec (.updateAck f) s = .next (kept s (State.updAckArrive s { f with kind := kUpdateAck }).wake) ∧
    exec (.migAck f) s = .next (kept s (State.migAckArrive s { f with kind := kMigAck }).wake) ∧
    exec (.migDone f) s = .next (kept s (State.migDoneArrive s { f with kind := kMigDone }).wake) ∧
    exec (.hallAck f) s = .next (kept s (State.hallAckArrive s { f with kind := kHallAck }).wake)) ∧
  (∀ (s : State) (f : Frame) (i : Instr), s.domHeld 1 = false → 16000 < f.age → isArrival i f = true →
    exec i s = .next (kept s (s.bump Reg.ZP_AGEDROP_CNT 1))) ∧
  (∀ (s : State) (f : Frame) (i : Instr), s.domHeld 1 = true → isArrival i f = true → exec i s = .next s)

/-- TRANSIT_FRAME with a good CRC is passed on, or to the terminal, as the route says; with a bad one the port counts
it and discards it. LINK_ACK with the link up releases the oldest frames that it acknowledges, at most those within
the window, and sends as many queued ones. LINK_RETRANSMIT sends the oldest frame within the window again 500 ns after
its sending, older by what it has waited, and counts it; after 8 retransmissions the link is down. LOSS_OF_LIGHT takes
the link down and its light away. LINK_UP of a lit port brings its link up from now; PRIMARY_ROUTE_RESTORE settles it
100 us after it came up. ZP_PORT_ENABLE and ZP_PORT_DISABLE are the two writes of the port's control, and
ZP_ROUTE_WRITE is that of the route selected. -/
def Obligations.LinkRows : Prop :=
  (∀ (s : State) (f : Frame) (wait : Nat), s.domHeld 1 = false →
    exec (.transitFrame f wait none) s = .next (kept s (s.transit f wait))) ∧
  (∀ (s : State) (f : Frame) (wait p : Nat), s.domHeld 1 = false →
    exec (.transitFrame f wait (some p)) s = .next (s.bump (selKey Reg.ZP_CRC_CNT p) 1)) ∧
  (∀ (s : State) (port n : Nat), s.domHeld 1 = false → (s.port port).up = true →
    ∃ k rest go, k = min n (min (s.port port).held.length portWindow) ∧ rest = (s.port port).held.drop k ∧
      go = ((rest.drop (portWindow - k)).take k).map (fun (h : HeldFrame) =>
        { h with frame := agedBy h.frame (s.now - h.sent), sent := s.now }) ∧
      exec (.linkAck port n) s = .next (kept s ((s.modPort port (fun p =>
        { p with held := rest.take (portWindow - k) ++ go ++ rest.drop portWindow })).sendHeld port go))) ∧
  (∀ (s : State) (port n : Nat), s.domHeld 1 = true ∨ (s.port port).up = false →
    exec (.linkAck port n) s = .next s) ∧
  (∀ (s : State) (port k : Nat) (h : HeldFrame), s.domHeld 1 = false → (s.port port).up = true →
    oldestHeld ((s.port port).held.take portWindow) 0 none = some (k, h) → 8 ≤ h.tries →
    exec (.linkRetransmit port) s =
      .next (keptAt s ((State.linkDown { s with now := max s.now (h.sent + 500) } port 1).wake))) ∧
  (∀ (s : State) (port k : Nat) (h : HeldFrame), s.domHeld 1 = false → (s.port port).up = true →
    oldestHeld ((s.port port).held.take portWindow) 0 none = some (k, h) → h.tries < 8 →
    ∃ g : HeldFrame, g = { h with
        frame := agedBy h.frame (max s.now (h.sent + 500) - h.sent), sent := max s.now (h.sent + 500),
        tries := h.tries + 1 } ∧
      exec (.linkRetransmit port) s = .next (keptAt s
        (((State.modPort { s with now := max s.now (h.sent + 500) } port
          (fun p => { p with held := updAt p.held k (fun _ => g) })).bump (selKey Reg.ZP_RETX_CNT port) 1).emit
          (.frame port g.frame)))) ∧
  (∀ (s : State) (port : Nat), s.domHeld 1 = false →
    exec (.lossOfLight port) s = .next (kept s
      (((s.linkDown port 0).modPort port (fun p => { p with light := false })).wake))) ∧
  (∀ (s : State) (port : Nat), s.domHeld 1 = false → (s.port port).lit = true → (s.port port).up = false →
    exec (.linkUp port) s = .next (kept s
      ((s.modPort port (fun p => { p with up := true, upSince := s.now, light := true })).wake))) ∧
  (∀ (s : State) (port : Nat), (s.port port).lit = false ∨ (s.port port).up = true →
    exec (.linkUp port) s = .next s) ∧
  (∀ (s : State) (port : Nat), s.domHeld 1 = false → (s.port port).up = true →
    exec (.primaryRouteRestore port) s = .next (keptAt s (State.modPort
      { s with now := max s.now ((s.port port).upSince + 100000) } port (fun p => { p with settled := true })))) ∧
  (∀ (s : State) (path : Path) (w : Word),
    exec (.zpPortEnable path) s = .next (kept s (s.portCtl true)) ∧
    exec (.zpPortDisable path) s = .next (kept s (s.portCtl false)) ∧
    exec (.zpRouteWrite path w) s = .next (kept s (s.routeWrite w)))

/-- SLOT_HELD_EXPIRE frees a slot 2 us after it came to be held. KITE_TIMEOUT of a busy slot, at the end of its kite's
life, puts the slot in quarantine, counts the timeout and ends the kite for its owner. QUARANTINE_END frees a slot
twice the life of a kite after its quarantine began, and where every slot is in quarantine after a warm reset ends
that quarantine at its time. KITE_ABANDON of a kite served for another engine gives it up 32 us before the end of its
life; an item's own local kite is none. On a slot in another state, or a kite not served, each changes nothing. -/
def Obligations.TetherRows : Prop :=
  (∀ (s : State) (slot : Nat) (t : Tether), s.slotIn slot .held = some t →
    exec (.slotHeldExpire slot) s = .next (keptAt s ((State.freeSlot { s with now := max s.now (t.since + 2000) } slot).wake))) ∧
  (∀ (s : State) (slot : Nat) (t : Tether), s.slotIn slot .busy = some t →
    exec (.kiteTimeout slot) s = .next (keptAt s (((((State.quarSlot
      { s with now := max s.now (t.since + s.lifeNs) } slot).bump Reg.KITE_TIMEOUT_CNT 1).kiteEnds t.owner none 0
      t.dst)).wake))) ∧
  (∀ (s : State) (u slot : Nat), s.kite.quarAll = some u →
    exec (.quarantineEnd slot) s = .next (keptAt s (State.wake
      { s with now := max s.now u, kite := { s.kite with quarAll := none } }))) ∧
  (∀ (s : State) (slot : Nat) (t : Tether), s.kite.quarAll = none → s.slotIn slot .quar = some t →
    exec (.quarantineEnd slot) s =
      .next (keptAt s ((State.freeSlot { s with now := max s.now (t.since + 2 * s.lifeNs) } slot).wake))) ∧
  (∀ (s : State) (id : Nat) (v : Served), s.servedOf id = some v → v.item = none →
    exec (.kiteAbandon id) s =
      .next (keptAt s ((State.abandon { s with now := max s.now (v.arrived + s.lifeNs - 32000) } id).wake))) ∧
  (∀ (s : State) (id : Nat) (v : Served), s.servedOf id = some v → v.item ≠ none →
    exec (.kiteAbandon id) s = .next s) ∧
  (∀ (s : State) (n : Nat),
    (s.slotIn n .held = none → exec (.slotHeldExpire n) s = .next s) ∧
    (s.slotIn n .busy = none → exec (.kiteTimeout n) s = .next s) ∧
    (s.kite.quarAll = none → s.slotIn n .quar = none → exec (.quarantineEnd n) s = .next s) ∧
    (s.servedOf n = none → exec (.kiteAbandon n) s = .next s))

/-- CREDIT_BACKOFF_END, ADDER_TAKE with the Zhoni datapath out of reset, COMBINE_FLUSH and UPDATE_APPLIED are the end
of one home's backoff, the next take of the adders, the flush of one waiting line and the answer of one update, after
each of which work that waited goes on. INBOX_TAKEUP_EXPIRE refuses the oldest kite of the inbox 33 us before the end
of its life. LEDGER_EXPIRE drops the ledger's entries at the first one's time. RESET_NACK_WINDOW_END ends the refusals
after a reset at their time. KITE_UPD_SNAP is the snapshot of a table's update statistics. -/
def Obligations.UpdateRows : Prop :=
  (∀ (s : State) (home : Nat), exec (.creditBackoffEnd home) s = .next (kept s (s.backoffEnd home).wake)) ∧
  (∀ s : State, s.domHeld 6 = false → exec .adderTake s = .next (kept s s.adderTakeOne.noteInbox.wake)) ∧
  (∀ s : State, s.domHeld 6 = true → exec .adderTake s = .next s) ∧
  (∀ (s : State) (line : Nat) (e : Ecc), exec (.combineFlush line e) s = .next (kept s (s.combFlush line e).wake)) ∧
  (∀ (s : State) (id : Nat), exec (.updateApplied id) s = .next (kept s (s.updAnswer id).wake)) ∧
  (∀ (s : State) (v : Served), s.kite.inbox.head?.bind s.servedOf = some v →
    exec .inboxTakeupExpire s = .next (keptAt s ((State.inboxExpire
      { s with now := max s.now (v.arrived + s.lifeNs - 33000 + 1) }).noteInbox.wake))) ∧
  (∀ s : State, s.kite.inbox.head?.bind s.servedOf = none → exec .inboxTakeupExpire s = .next s) ∧
  (∀ (s : State) (t : Nat), firstExpiry s.kite.ledger = some t →
    exec .ledgerExpire s = .next (keptAt s (State.ledgerSweep { s with now := max s.now t }))) ∧
  (∀ s : State, firstExpiry s.kite.ledger = none → exec .ledgerExpire s = .next s) ∧
  (∀ (s : State) (t : Nat), s.kite.nackUntil = some t →
    exec .resetNackWindowEnd s = .next (keptAt s (State.nackWindowEnd { s with now := max s.now t }))) ∧
  (∀ s : State, s.kite.nackUntil = none → exec .resetNackWindowEnd s = .next s) ∧
  (∀ (s : State) (w : Word), exec (.kiteUpdSnap w) s = .next (kept s (s.kiteUpdSnap w)))

/-- With the cache's domain out of reset and 16 requests waiting, each of the four maintenance commands is refused:
RC_MNT_STAT's overflow bit is set and nothing else changes. With room, none waiting beyond the queue and one walking,
each queues its request last: INV_RANGE the range of the registers as they stand, INV_TABLE the table and slots it
names, INV_ALL everything, NOP nothing to walk. MNT_WALK_DONE with a request in hand is the end of its walk and the
start of the next, and with none it changes nothing but the work that waited. While the domain is held none of the
four queues anything. -/
def Obligations.CacheMaintenance : Prop :=
  (∀ (s : State) (op : MntOp), s.domHeld 3 = false → 16 ≤ s.rc.queue.length → ∀ i, mntOpOf s i = some op →
    exec i s = .next (kept s (s.setReg Reg.RC_MNT_STAT (s.reg Reg.RC_MNT_STAT ||| 0x40)))) ∧
  (∀ (s : State) (op : MntOp), s.domHeld 3 = false → s.rc.queue.length < 16 → s.rc.overflow = [] →
    s.rc.running ≠ none → ∀ i, mntOpOf s i = some op →
    exec i s = .next { s with rc := { s.rc with
      queue := s.rc.queue ++ [⟨s.rc.nextMnt, op, false⟩], nextMnt := s.rc.nextMnt + 1 } }) ∧
  (∀ (s : State) (op : MntOp), s.domHeld 3 = true → ∀ i, mntOpOf s i = some op → exec i s = .next s) ∧
  (∀ (s : State) (table slots : Nat),
    mntOpOf s .invRange = some (.range (s.reg64 Reg.RC_MNT_ADDR_LO)
      (s.reg64 Reg.RC_MNT_ADDR_LO + 64 * (s.reg Reg.RC_MNT_LEN).toNat)) ∧
    mntOpOf s (.invTable table slots) = some (.table (table % 65536) (slots.testBit 0) (slots.testBit 1)) ∧
    mntOpOf s .invAll = some .all ∧ mntOpOf s .mntNop = some .nop) ∧
  (∀ (s : State) (table slots : Nat), s.domHeld 3 = false → s.rc.queue.length < 16 →
    exec .invRange s = .next (kept s (s.mntQueue (.range (s.reg64 Reg.RC_MNT_ADDR_LO)
      (s.reg64 Reg.RC_MNT_ADDR_LO + 64 * (s.reg Reg.RC_MNT_LEN).toNat)) false false).1) ∧
    exec (.invTable table slots) s = .next (kept s
      (s.mntQueue (.table (table % 65536) (slots.testBit 0) (slots.testBit 1)) false false).1) ∧
    exec .invAll s = .next (kept s (s.mntQueue .all false false).1) ∧
    exec .mntNop s = .next (kept s (s.mntQueue .nop false false).1)) ∧
  (∀ s : State, s.domHeld 3 = false → exec .mntWalkDone s = .next (kept s s.walkDone.wake)) ∧
  (∀ s : State, s.rc.running = none → s.walkDone = s)

/-- RC_ENABLE of an enabled cache sets the writable bits of RC_CTL; of a disabled one it also keeps the lines, as
stale, where KEEP is written and no salt has been, and otherwise queues the walk that starts the cache anew, ahead of
the others. RC_DISABLE clears EN and keeps the others. RC_PIN_WRITE with a size above 8, or while a pinned table
stands, changes nothing; a larger size queues the walk that pins, and a smaller or equal one takes the pinned bytes
above it away at once. RC_FILL of a miss that is out fills its lines while the core runs; of any other number it
changes nothing. -/
def Obligations.CacheControl : Prop :=
  (∀ (s : State) (w : Word), s.domHeld 3 = false → (s.reg Reg.RC_CTL).bit 0 = true →
    exec (.rcEnable w) s = .next (s.setReg Reg.RC_CTL (Word.ofNat (w.bits 4 1 * 2 + 1)))) ∧
  (∀ (s : State) (w : Word), s.domHeld 3 = false → (s.reg Reg.RC_CTL).bit 0 = false → w.bit 1 = true →
    s.rc.saltDirty = false →
    exec (.rcEnable w) s = .next { s.setReg Reg.RC_CTL (Word.ofNat (w.bits 4 1 * 2 + 1)) with
      rc := { s.rc with saltDirty := false, stale := true } }) ∧
  (∀ (s : State) (w : Word), s.domHeld 3 = false → (s.reg Reg.RC_CTL).bit 0 = false →
    w.bit 1 = false ∨ s.rc.saltDirty = true →
    exec (.rcEnable w) s = .next (kept s (State.mntQueue
      { s.setReg Reg.RC_CTL (Word.ofNat (w.bits 4 1 * 2 + 1)) with
        rc := { s.rc with saltDirty := false, init := true } } (.init true) true true).1)) ∧
  (∀ (s : State) (w : Word), s.domHeld 3 = false →
    exec (.rcDisable w) s = .next (s.setReg Reg.RC_CTL (Word.ofNat (w.bits 4 1 * 2)))) ∧
  (∀ (s : State) (w : Word), 8 < w.bits 3 0 ∨ s.dir.tables.any (fun x => x.2.pin) = true →
    exec (.rcPinWrite w) s = .next s) ∧
  (∀ (s : State) (w : Word), s.domHeld 3 = false → w.bits 3 0 ≤ 8 → s.dir.tables.any (fun x => x.2.pin) = false →
    s.rbits Reg.RC_PIN 3 0 < w.bits 3 0 →
    exec (.rcPinWrite w) s = .next (kept s ((s.setReg Reg.RC_PIN (Word.ofNat (w.bits 3 0))).mntQueue
      (.pin (s.rbits Reg.RC_PIN 3 0) (w.bits 3 0)) true false).1)) ∧
  (∀ (s : State) (w : Word), s.domHeld 3 = false → w.bits 3 0 ≤ 8 → s.dir.tables.any (fun x => x.2.pin) = false →
    w.bits 3 0 ≤ s.rbits Reg.RC_PIN 3 0 →
    exec (.rcPinWrite w) s = .next { s.setReg Reg.RC_PIN (Word.ofNat (w.bits 3 0)) with rc := { s.rc with
      pinCap := min s.rc.pinCap (w.bits 3 0),
      pinned := s.rc.pinned.filter (fun x => decide (x.1 < min s.rc.pinCap (w.bits 3 0) * 8 * 2 ^ 20)),
      pinErr := s.rc.pinErr.filter (fun x => decide (8 * x < min s.rc.pinCap (w.bits 3 0) * 8 * 2 ^ 20)) } }) ∧
  (∀ (s : State) (n : Nat) (e : Ecc) (m : RcMiss), s.rst.phase = .run →
    s.rc.misses.find? (fun m => m.id == n) = some m →
    exec (.rcFill n e) s = .next (kept s (s.rcFill m e).wake)) ∧
  (∀ (s : State) (n : Nat) (e : Ecc), s.rc.misses.find? (fun m => m.id == n) = none →
    exec (.rcFill n e) s = .next s)

/-- STAT_FLUSH writes the statistics that a gallery holds for each table and holds them no longer. GAL_STAT_SNAP
gathers a table's figures from the galleries, which hold them no longer, and from the area where there is one, which
is cleared, into the three registers. ROW_ARRIVAL while the core runs gives the row of an item of this engine to its
item, which goes on, and the row of a served kite to that kite. DENSE_CREDIT adds to the credits and sends the vectors
that waited for them. Work that waited goes on; while the core is in reset rows and credits change nothing. -/
def Obligations.GalleryRows : Prop :=
  (∀ (s : State) (g : Nat), s.domHeld 5 = false → exec (.statFlush g) s = .next (kept s (s.statFlush g))) ∧
  (∀ (s : State) (g : Nat), s.domHeld 5 = false → (s.gal g).pend = [] →
    exec (.statFlush g) s = .next (s.modGal g (fun x => { x with pend := [] }))) ∧
  (∀ (s : State) (w : Word), s.domHeld 5 = false → (s.reg Reg.GAL_STAT_BASE_HI).bit 31 = false →
    ∃ u : State, ∃ a b c : Nat, u = { s.setReg Reg.GAL_STAT_SEL (Word.ofNat (w.bits 15 0)) with
        gals := s.gals.map (fun g => { g with pend := mapDel g.pend (w.bits 15 0) }) } ∧
      (a, b, c) = (s.gals.filterMap (fun g => mapGet g.pend (w.bits 15 0))).foldl statMerge (0, 0, 0) ∧
      exec (.galStatSnap w) s = .next (kept s (((u.setReg Reg.GAL_STAT_MAXABS (Word.ofNat a)).setReg
        Reg.GAL_STAT_SATBAGS (Word.ofNat b)).setReg Reg.GAL_STAT_BAGS (Word.ofNat c)))) ∧
  (∀ (s : State) (id pos : Nat) (r : RowRead), s.rst.phase = .run →
    exec (.rowArrival (2 * id) pos r) s = .next (kept s (((s.rowArrive id pos r).advance id).wake)) ∧
    exec (.rowArrival (2 * id + 1) pos r) s = .next (kept s ((s.servedArrive id pos r).wake))) ∧
  (∀ (s : State) (n : Nat), s.rst.phase = .run →
    exec (.denseCredit n) s = .next (kept s ((denseGo
      { s with xlt := { s.xlt with denseCredits := s.xlt.denseCredits + n } } s.xlt.denseWait.length).wake))) ∧
  (∀ (s : State) (n pos : Nat) (r : RowRead), s.rst.phase ≠ .run →
    exec (.rowArrival n pos r) s = .next s ∧ exec (.denseCredit n) s = .next s)

/-- CONC_DB while the core runs has its ring read, and CONC_ENABLE sets CONC_CTL, starts the admin ring where the
concourse was disabled and has every ring read; while the core is in reset neither changes anything. CHUNK_ADMIT while
the core runs tries the next chunk of an item at a gallery. PROMOTE_BY_AGE raises an item of class 2 to 1 once FLT_AGE
landings have passed since its acceptance, and PROMOTE_BY_MARGIN an item of class 2 to 0 at two landings before its
due one; each counts the promotion. RING_FULL_ADVISORY writes one record for a ring that has waited 16 landings for
slots, into a free one, once. -/
def Obligations.ConcourseRows : Prop :=
  (∀ (s : State) (w : Word), s.rst.phase = .run →
    exec (.concDb w) s = .next (kept s ((s.kick (w.bits 12 0)).wake))) ∧
  (∀ (s : State) (w : Word), s.rst.phase = .run → (s.reg Reg.CONC_CTL).bit 0 = false →
    exec (.concEnable w) s = .next (kept s
      (((s.setReg Reg.CONC_CTL (Word.ofNat (1 + 2 * w.bits 1 1))).startAdmin).kickAll.wake))) ∧
  (∀ (s : State) (w : Word), s.rst.phase = .run → (s.reg Reg.CONC_CTL).bit 0 = true →
    exec (.concEnable w) s = .next (kept s ((s.setReg Reg.CONC_CTL (Word.ofNat (1 + 2 * w.bits 1 1))).kickAll.wake))) ∧
  (∀ (s : State) (w : Word) (n g : Nat), s.rst.phase ≠ .run →
    exec (.concDb w) s = .next s ∧ exec (.concEnable w) s = .next s ∧ exec (.chunkAdmit n g) s = .next s) ∧
  (∀ (s : State) (n g : Nat), s.rst.phase = .run → exec (.chunkAdmit n g) s = .next (kept s (s.chunkAdmit n g).wake)) ∧
  (∀ (s : State) (n : Nat) (i : Item), s.item n = some i → i.cls = 2 → s.rbits Reg.FLT_AGE 15 0 ≠ 0 →
    i.accLanding + s.rbits Reg.FLT_AGE 15 0 ≤ s.hall.landing →
    exec (.promoteByAge n) s = .next (kept s
      ((s.modItem n (fun j => { j with cls := 1 })).bump Reg.FLT_PROMO_CNT 1))) ∧
  (∀ (s : State) (n : Nat) (i : Item), s.item n = some i → i.cls ≠ 2 ∨ s.rbits Reg.FLT_AGE 15 0 = 0 ∨
      s.hall.landing < i.accLanding + s.rbits Reg.FLT_AGE 15 0 →
    exec (.promoteByAge n) s = .next s) ∧
  (∀ (s : State) (n : Nat) (i : Item), s.item n = some i → i.cls0 = 2 → i.cls ≠ 0 → i.due ≤ s.hall.landing + 2 →
    exec (.promoteByMargin n) s = .next (kept s
      ((s.modItem n (fun j => { j with cls := 0 })).bump Reg.FLT_PROMO_CNT 1))) ∧
  (∀ (s : State) (n : Nat) (i : Item), s.item n = some i → i.cls0 ≠ 2 ∨ i.cls = 0 ∨ s.hall.landing + 2 < i.due →
    exec (.promoteByMargin n) s = .next s) ∧
  (∀ (s : State) (n since : Nat) (r : CmdRing) (q : CplRing), s.ring n = some r → r.wait = .cq since →
    mapGet s.conc.cpl r.cq = some q → since + 16 ≤ s.hall.landing → q.advised = false → 1 ≤ q.free →
    exec (.ringFullAdvisory n) s = .next (kept s ((s.modCpl r.cq (fun q => { q with advised := true })).putRec r.cq
      (recWords s St.ringFull 0 0 n r.head (s.hall.landing - since) 0) false true false))) ∧
  (∀ (s : State) (n since : Nat) (r : CmdRing) (q : CplRing), s.ring n = some r → r.wait = .cq since →
    mapGet s.conc.cpl r.cq = some q → s.hall.landing < since + 16 ∨ q.advised = true ∨ q.free = 0 →
    exec (.ringFullAdvisory n) s = .next s)

/-- HOST_MEM_WRITE and HOST_MEM_READ that reach past the 192 GiB of memory, and SCRUB_READ of a line there, stop with
the fault noMemory. Below that, with the stairwells out of reset, no column of the range blocked and tokens for it,
HOST_MEM_WRITE stores its bytes and answers that it is done, and HOST_MEM_READ reads and answers what it read and
whether it is poisoned; where tokens are wanting each only counts its wait. A write of bytes within one line, on which
no add waits, that is not poisoned and in no column under test, stores exactly its bytes: every byte of memory outside
them stays as it was, and each of them reads as written. While the stairwells are held, or a column is blocked,
neither changes anything. -/
def Obligations.HostMemory : Prop :=
  (∀ (s : State) (off len : Nat) (data : List Byte) (e : Ecc), memLimit < off + data.length → memLimit < off + len →
    exec (.hostMemWrite off data) s = .fault (.noMemory off) ∧
      exec (.hostMemRead off len e) s = .fault (.noMemory off)) ∧
  (∀ (s : State) (off conn : Nat) (e : Ecc), memLimit ≤ off → exec (.scrubRead off conn e) s = .fault (.noMemory off)) ∧
  (∀ (s : State) (off : Nat) (data : List Byte), off + data.length ≤ memLimit → s.domHeld 2 = false →
    s.rangeBlocked off data.length = false → (s.takeTokens off data.length (s.hostPart off)).2 = true →
    exec (.hostMemWrite off data) s = .next (kept s
      ((((s.takeTokens off data.length (s.hostPart off)).1.stwWrite off data).emit .cxlWriteDone).wake))) ∧
  (∀ (s : State) (off len : Nat) (e : Ecc), off + len ≤ memLimit → s.domHeld 2 = false →
    s.rangeBlocked off len = false → (s.takeTokens off len (s.hostPart off)).2 = true →
    ∃ u rd, (u, rd) = (s.takeTokens off len (s.hostPart off)).1.stwRead off len e ∧
      exec (.hostMemRead off len e) s = .next (kept s ((u.emit (.cxlRead rd.data rd.bad.isSome)).wake))) ∧
  (∀ (s : State) (off : Nat) (data : List Byte) (e : Ecc), off + data.length ≤ memLimit → s.domHeld 2 = false →
    s.rangeBlocked off data.length = false → (s.takeTokens off data.length (s.hostPart off)).2 = false →
    exec (.hostMemWrite off data) s = .next (kept s (s.takeTokens off data.length (s.hostPart off)).1) ∧
    exec (.hostMemRead off data.length e) s = .next (kept s (s.takeTokens off data.length (s.hostPart off)).1)) ∧
  (∀ (s : State) (off : Nat) (data : List Byte) (e : Ecc), off + data.length ≤ memLimit →
    s.domHeld 2 = true ∨ s.rangeBlocked off data.length = true →
    exec (.hostMemWrite off data) s = .next s ∧ exec (.hostMemRead off data.length e) s = .next s) ∧
  (∀ (s : State) (off : Nat) (data : List Byte), Sane s → off + data.length ≤ memLimit → s.domHeld 2 = false →
    s.rangeBlocked off data.length = false → (s.takeTokens off data.length (s.hostPart off)).2 = true →
    data ≠ [] → off % 64 + data.length ≤ 64 → s.stw.poison.contains (off / 64) = false →
    s.kite.comb = [] → (∀ c ∈ s.stw.cols, c.test = none) →
    ∃ u : State, exec (.hostMemWrite off data) s = .next (kept s u.wake) ∧
      (∀ a, a < off ∨ off + data.length ≤ a → cellGet u.stw.mem a = cellGet s.stw.mem a) ∧
      (∀ i, i < data.length → cellGet u.stw.mem (off + i) = data.getD i 0))

/-- REFRESH counts one refresh of a column and changes nothing else, held or not. TEMP_SAMPLE takes the sixteen
temperatures of a column that is not held, and work that waited goes on. SCRUB_READ of a running scrub counts its
activates, leaves a good line as it is, counts a corrected one and the connection's error, and poisons a line that
cannot be corrected; of a scrub that does not run it changes nothing. SCRUB_PASS_END counts the pass and forgets the
rows' and connections' counts. REMAP_DONE installs the oldest remap under way and with none changes nothing.
STW_REG_CFG_WRITE sets the selected partition's word and fills its tokens; PARTITION_TOKEN_GAIN of an enabled one adds
its rate, up to its burst, and those that waited go on. MARCH_TEST_START is refused with the status bit while the
concourse is enabled, a table exists, a test runs or the pattern is invalid, and otherwise starts the test;
MARCH_TEST_DONE notes the end, the count of failures and the first, proposes the failing rows for repair where the
test says so, and queues the walk that empties the cache; of a column without a test it changes nothing. -/
def Obligations.ColumnRows : Prop :=
  (∀ (s : State) (k : Nat), exec (.refresh k) s = .next { s with
    stw := { s.stw with cols := updAt s.stw.cols k (fun c => { c with refreshes := c.refreshes + 1 }) } }) ∧
  (∀ (s : State) (k : Nat) (temps : List Int), s.colHeld k = false →
    exec (.tempSample k temps) s = .next (kept s (s.sampleCol k temps).wake)) ∧
  (∀ (s : State) (off conn : Nat), off < memLimit → scrubs s (dramOf (off / 64 * 64)).column = true →
    s.stw.poison.contains (off / 64) = false →
    exec (.scrubRead off conn .good) s = .next (kept s (s.countActs (off / 64 * 64) 64)) ∧
    (∀ n, exec (.scrubRead off conn (.uncorrectable n)) s =
      .next (kept s ((s.countActs (off / 64 * 64) 64).lineUe (off / 64)))) ∧
    exec (.scrubRead off conn .corrected) s = .next (kept s (((s.countActs (off / 64 * 64) 64).lineCe (off / 64)).connError
      (dramOf (off / 64 * 64)).column (dramOf (off / 64 * 64)).channel conn))) ∧
  (∀ (s : State) (off conn : Nat) (e : Ecc), off < memLimit → scrubs s (dramOf (off / 64 * 64)).column = false →
    exec (.scrubRead off conn e) s = .next s) ∧
  (∀ (s : State) (k : Nat), s.colHeld k = false →
    exec (.scrubPassEnd k) s = .next (kept s
      ((s.bump (stwReg k Reg.STW_SCRUB_PASS) 1).modCol k (fun c => { c with rowCe := [], connCe := [] })))) ∧
  (∀ (s : State) (k p : Nat) (r : List Nat), s.colHeld k = false → (s.col k).remapBusy = p :: r →
    exec (.remapDone k) s = .next (kept s (s.installRemap k p))) ∧
  (∀ (s : State) (k : Nat), (s.col k).remapBusy = [] → exec (.remapDone k) s = .next s) ∧
  (∀ (s : State) (k : Nat) (w : Word), s.colHeld k = false →
    exec (.stwRegCfgWrite k w) s = .next (kept s
      (((s.setReg (selKey (stwReg k Reg.STW_REG_CFG) (s.rbits (stwReg k Reg.STW_REG_SEL) 5 0)) w).modCol k (fun c =>
        { c with tokens := mapPut c.tokens (s.rbits (stwReg k Reg.STW_REG_SEL) 5 0) (w.bits 30 16) })).wake))) ∧
  (∀ (s : State) (k part : Nat) (w : Word), s.colHeld k = false →
    s.reg (selKey (stwReg k Reg.STW_REG_CFG) part) = w → w.bit 31 = true →
    exec (.partitionTokenGain k part) s = .next (kept s ((s.modCol k (fun c => { c with
      tokens := mapPut c.tokens part (min (w.bits 30 16) (mapCnt c.tokens part + w.bits 15 0)),
      waiting := mapDel c.waiting part })).wake))) ∧
  (∀ (s : State) (k : Nat) (w : Word), s.colHeld k = false → w.bit 31 = true →
    (s.reg Reg.CONC_CTL).bit 0 = true ∨ s.dir.tables ≠ [] ∨ (s.col k).test ≠ none ∨ w.bits 1 0 = 3 →
    exec (.marchTestStart k w) s = .next (kept s
      (s.setReg (stwReg k Reg.STW_TEST_STAT) (s.reg (stwReg k Reg.STW_TEST_STAT) ||| 4)))) ∧
  (∀ (s : State) (k : Nat) (w : Word), s.colHeld k = false → w.bit 31 = true →
    (s.reg Reg.CONC_CTL).bit 0 = false → s.dir.tables = [] → (s.col k).test = none → w.bits 1 0 ≠ 3 →
    exec (.marchTestStart k w) s = .next (kept s (s.marchStart k w))) ∧
  (∀ (s : State) (k : Nat) (w : Word) (fails : List Nat), s.colHeld k = false → (s.col k).test = some w →
    ∃ u : State, u = ((s.setReg (stwReg k Reg.STW_TEST_STAT) (s.reg (stwReg k Reg.STW_TEST_STAT) ||| 2)).setReg
        (stwReg k Reg.STW_TEST_FAIL_CNT) (Word.ofNat (sat32 fails.length))).setReg
        (stwReg k Reg.STW_TEST_FIRST) (Word.ofNat (fails.headD 0 % 2 ^ 30)) ∧
      exec (.marchTestDone k fails) s = .next (kept s ((((if w.bit 3
        then (fails.map (fun f => f % 2 ^ 25)).eraseDups.foldl (fun (u : State) p => u.propose k p) u else u).modCol k
        (fun c => { c with test := none })).mntQueue .all true false).1.wake))) ∧
  (∀ (s : State) (k : Nat) (fails : List Nat), (s.col k).test = none → exec (.marchTestDone k fails) s = .next s)

/-- HOST_READ_COMPLETION of a read that was sent gives its work all the bytes it asked for, or the first poisoned
byte; bytes of another number, or a number of no read, change nothing. COPY_READ_ERROR of a copy's read starts the
read again or fails its tile, and of any other read ends its work with the error. CPY_CH_STOP sets and clears STOP of
the selected channel, and CPY_HALT_CLEAR ends its halt. Work that waited goes on. -/
def Obligations.HostReads : Prop :=
  (∀ (s : State) (n : Nat) (a : HAcc) (data : List Byte), s.issuedRead n = some a → data.length = a.len →
    exec (.hostReadCompletion n data none) s = .next (kept s ((s.hostDone a (.data data)).wake))) ∧
  (∀ (s : State) (n b : Nat) (a : HAcc) (data : List Byte), s.issuedRead n = some a →
    exec (.hostReadCompletion n data (some b)) s = .next (kept s ((s.hostDone a (.poison b)).wake))) ∧
  (∀ (s : State) (n : Nat) (a : HAcc) (data : List Byte), s.issuedRead n = some a → data.length ≠ a.len →
    exec (.hostReadCompletion n data none) s = .next s) ∧
  (∀ (s : State) (n : Nat) (data : List Byte) (p : Option Nat) (b : Nat), s.issuedRead n = none →
    exec (.hostReadCompletion n data p) s = .next s ∧ exec (.copyReadError n b) s = .next s) ∧
  (∀ (s : State) (n b seq k : Nat) (a : HAcc), s.issuedRead n = some a → a.purpose = .cpyRead seq k →
    exec (.copyReadError n b) s = .next (kept s ((s.cpyReadErr a seq k b).wake))) ∧
  (∀ (s : State) (n b : Nat) (a : HAcc), s.issuedRead n = some a → (∀ seq k, a.purpose ≠ .cpyRead seq k) →
    exec (.copyReadError n b) s = .next (kept s ((s.hostDone a (.err b)).wake))) ∧
  (∀ (s : State), s.domHeld 4 = false →
    exec (.cpyChStop true) s = .next (kept s ((s.setReg (selKey Reg.CPY_CH_CTL s.chanSel)
      (s.reg (selKey Reg.CPY_CH_CTL s.chanSel) ||| 1)).wake)) ∧
    exec (.cpyChStop false) s = .next (kept s ((s.setReg (selKey Reg.CPY_CH_CTL s.chanSel)
      (s.reg (selKey Reg.CPY_CH_CTL s.chanSel) &&& 0xFFFFFFFE)).wake)) ∧
    exec .cpyHaltClear s = .next (kept s ((s.modChan s.chanSel (fun c => { c with halt := false })).wake))) ∧
  (∀ (s : State) (b : Bool), s.domHeld 4 = true → exec (.cpyChStop b) s = .next s ∧ exec .cpyHaltClear s = .next s)

/-- ATS_COMPLETION with a page that is present and allows the access enters the translation, with the size it is held
at, and accesses that waited are tried again. PAGE_REQUEST_RESPONSE of success asks for the translation again; of an
invalid request fails it; of a failure fails it and every request not yet sent, and no more are made.
PAGE_REQUEST_TIMEOUT, TIMEOUT_MS after the request, counts it and fails it. A number of no request changes nothing.
ATS_INVALIDATION removes the entries of the PASID that meet its range, counts it and answers it; while the core is in
reset it only answers. PRI_ENABLE_CHANGE notes the host's two enables, and page requests go on once PRI has been
cleared and set again. HOT_WINDOW_END with the counters disabled, or while the core is in reset, changes nothing, and
with them enabled and none at the threshold starts the counts anew. -/
def Obligations.TranslationRows : Prop :=
  (∀ (s : State) (n : Nat) (a : Ats) (r : AtsReply), s.xlt.ats.find? (fun a => a.id == n && a.sent) = some a →
    r.present = true → (if a.write then r.w else r.r) = true →
    ∃ u : State, u = { s with xlt := { s.xlt with ats := s.xlt.ats.filter (fun b => b.id != n) } } ∧
      exec (.atsCompletion n r) s = .next (kept s ((atsPump (u.tlbInsert ⟨a.pasid,
        a.page / heldSize r.size * heldSize r.size, heldSize r.size, r.r, r.w, s.now, []⟩).retryAccs
        ((u.tlbInsert ⟨a.pasid, a.page / heldSize r.size * heldSize r.size, heldSize r.size, r.r, r.w, s.now,
          []⟩).xlt.ats.length + 1)).wake))) ∧
  (∀ (s : State) (n : Nat) (r : AtsReply), s.xlt.ats.find? (fun a => a.id == n && a.sent) = none →
    exec (.atsCompletion n r) s = .next s) ∧
  (∀ (s : State) (n : Nat) (p : Pri), s.xlt.pri.find? (fun p => p.id == n && p.sent) = some p →
    exec (.pageRequestResponse n .success) s = .next (kept s ((State.atsAsk
      { s with xlt := { s.xlt with pri := s.xlt.pri.filter (fun q => q.id != n) } } p.pasid p.page p.write false true
      0).priNext)) ∧
    exec (.pageRequestResponse n .invalid) s = .next (kept s ((s.priFails p).priNext)) ∧
    (∃ u : State, u = (s.priFails p).modXlt (fun x => { x with priStop := true }) ∧
      exec (.pageRequestResponse n .failure) s = .next (kept s (((u.xlt.pri.filter (fun q => !q.sent)).foldl
        (fun (z : State) q => z.priFails q) u).retryAccs.wake))) ∧
    exec (.pageRequestTimeout n) s = .next (keptAt s (((State.bump
      { s with now := max s.now (p.at_ + 1000000 * s.rbits Reg.XLT_PRI_CFG 15 0) } Reg.XLT_PRI_TIMEOUT_CNT 1).priFails
      p).priNext))) ∧
  (∀ (s : State) (n : Nat) (r : PriReply), s.xlt.pri.find? (fun p => p.id == n && p.sent) = none →
    exec (.pageRequestResponse n r) s = .next s ∧ exec (.pageRequestTimeout n) s = .next s) ∧
  (∀ (s : State) (pasid addr size : Nat), s.rst.phase = .run →
    exec (.atsInvalidation pasid addr size) s = .next (kept s (((State.bump { s with xlt := { s.xlt with
      tlb := s.xlt.tlb.filter (fun e =>
        !(e.pasid == pasid && decide (e.page < addr + size) && decide (addr < e.page + e.size))) } }
      Reg.XLT_INVAL_CNT 1).emit (.invalDone pasid addr)).retryAccs.wake))) ∧
  (∀ (s : State) (pasid addr size : Nat), s.rst.phase ≠ .run →
    exec (.atsInvalidation pasid addr size) s = .next { s with outs := s.outs ++ [.invalDone pasid addr] }) ∧
  (∀ (s : State) (ats pri : Bool), exec (.priEnableChange ats pri) s = .next (kept s (State.wake (State.retryAccs
    { s with xlt := { s.xlt with
      atsAvail := ats, priAvail := pri, priStop := s.xlt.priStop && !(pri && !s.xlt.priAvail) } })))) ∧
  (∀ s : State, (s.reg Reg.XLT_HOT_CFG).bit 0 = false ∨ s.rst.phase ≠ .run → exec .hotWindowEnd s = .next s) ∧
  (∀ s : State, (s.reg Reg.XLT_HOT_CFG).bit 0 = true → s.rst.phase = .run →
    (∀ h ∈ s.xlt.hot, h.count < s.rbits Reg.XLT_HOT_CFG 31 16) →
    exec .hotWindowEnd s = .next { s with xlt := { s.xlt with hot := [] } })

/-- HOST_LINK_DOWN of an ATTACHED engine whose core runs takes the host-loss mode in force, empties the detach log,
cuts the engine off, counts the loss and makes a record of code 0x70 with the mode; a DETACHED one does not change;
and with the core in reset the engine is DETACHED with a fresh link to come. HOST_LINK_UP of a DETACHED engine makes
it ATTACHING, or ATTACHED where a reset found the link down, and the rings are read; of any other it notes the link
alone. -/
def Obligations.HostLinkRows : Prop :=
  (∀ s : State, s.rst.phase = .run → s.xlt.host = .attached →
    ∃ u : State, u = State.cutOff { s with xlt := { s.xlt with mode := s.lossMode, logHead := 0, logTail := 0 } } ∧
      exec .hostLinkDown s = .next (kept s
        (((u.bump Reg.XLT_LINKDOWN_CNT 1).raise { code := 0x70, d0 := if s.lossMode then 1 else 0 }).wake))) ∧
  (∀ s : State, s.rst.phase = .run → s.xlt.host = .detached → exec .hostLinkDown s = .next s) ∧
  (∀ s : State, s.rst.phase ≠ .run →
    exec .hostLinkDown s = .next { s with xlt := { s.xlt with link := false, host := .detached, fresh := true } }) ∧
  (∀ s : State, s.xlt.host = .detached → s.xlt.fresh = true →
    exec .hostLinkUp s = .next (kept s (State.wake (State.kickAll
      { s with xlt := { s.xlt with link := true, host := .attached, fresh := false } })))) ∧
  (∀ s : State, s.xlt.host = .detached → s.xlt.fresh = false →
    exec .hostLinkUp s = .next (kept s (State.wake (State.kickAll
      { s with xlt := { s.xlt with link := true, host := .attaching } })))) ∧
  (∀ s : State, s.xlt.host ≠ .detached → exec .hostLinkUp s = .next { s with xlt := { s.xlt with link := true } })

/-- A control command whose opcode is that of the packet that the management core takes next has an effect only while
firmware runs. While it does not, or while the next packet is another's, the command changes nothing; SELFTEST also
waits while a self-test is in progress. Taking a packet removes it from the queue and changes no other part of the
machine than the concourse. -/
def Obligations.ControlQueue : Prop :=
  (∀ (s : State) (i : Instr) (op : Nat), ctlOp i = some op → s.fwRuns = false → exec i s = .next s) ∧
  (∀ (s : State) (i : Instr) (op : Nat) (p : MqPkt), ctlOp i = some op → s.nextControl = some p → p.op ≠ op →
    exec i s = .next s) ∧
  (∀ (s : State) (i : Instr) (op : Nat), ctlOp i = some op → s.nextControl = none → exec i s = .next s) ∧
  (∀ (s : State) (ns : Nat) (t : SelfTest), s.selftest = some t → exec (.selftest ns) s = .next s) ∧
  (∀ (s : State) (p : MqPkt) (ns : Nat), ∃ c, s.mqTake p ns = { s with conc := c } ∧
    c.mq = s.conc.mq.filter (fun q => q.seq != p.seq) ∧ c.items = s.conc.items ∧ c.cmd = s.conc.cmd ∧
    c.cpl = s.conc.cpl ∧ c.ten = s.conc.ten ∧ c.ops = s.conc.ops ∧ c.sched = s.conc.sched)

/-- In its turn each ends its packet with ST_OK and work that waited goes on. STATUS_GET's detail is a free value (log
5). TELEMETRY_CFG sets the telemetry period. TENANT_SET of a new tenant with valid fields enters it. TENANT_DESTROY of
a tenant other than 0 without rings, contexts or tables drops its PASID and its held tiles and removes it. PASID_BIND
of a PASID that no other tenant holds to a tenant without one binds it, and PASID_UNBIND of a tenant without host
rings and contexts drops it and unbinds it. A tenant that does not exist ends TENANT_DESTROY and PASID_UNBIND with
ST_BAD_STATE. -/
def Obligations.ControlTenants : Prop :=
  (∀ (s : State) (p : MqPkt) (ns : Nat), Turn s 0x8000 p →
    ∃ d, exec (.statusGet ns) s = .next (kept s (((s.mqTake p ns).endMq p St.ok d 0).draw.wake))) ∧
  (∀ (s : State) (p : MqPkt) (ns : Nat), Turn s 0x8031 p →
    exec (.telemetryCfg ns) s = .next (kept s ((((s.mqTake p ns).modConc (fun c =>
      { c with telePeriod := Word.ofNat p.arg })).endMq p St.ok 0 0).wake))) ∧
  (∀ (s : State) (p : MqPkt) (ns : Nat) (u : State), Turn s 0x8001 p → u = s.mqTake p ns →
    tenSetBad (p.arg % 4096) p.words = none → u.tenOf (p.arg % 4096) = none →
    exec (.tenantSet ns) s = .next (kept s (((u.setTen (p.arg % 4096)
      ⟨uw p.words 2 0 ||| 0x00100000, uw p.words 2 1, uw p.words 2 2, uw p.words 2 3⟩ true).endMq p St.ok 0 0).wake))) ∧
  (∀ (s : State) (p : MqPkt) (ns : Nat) (u : State) (e : Ending), Turn s 0x8001 p → u = s.mqTake p ns →
    tenSetBad (p.arg % 4096) p.words = some e →
    exec (.tenantSet ns) s = .next (kept s ((u.endMq p e.status e.detail e.aux).wake))) ∧
  (∀ (s : State) (p : MqPkt) (ns t : Nat) (u v : State) (e : TenEntry), Turn s 0x8002 p → u = s.mqTake p ns →
    t = p.arg % 4096 → t ≠ 0 → u.tenOf t = some e → u.ringsOf t = 0 → u.ctxOf t = 0 →
    (∀ x ∈ u.dir.tables, x.2.owner ≠ e.hallId) → v = (match e.bound with
      | some pasid => u.dropPasid pasid
      | none => u) →
    exec (.tenantDestroy ns) s = .next (kept s (((State.modConc
      { v with tiles := v.tiles.filter (fun x => x.1 / 16 != t) }
      (fun c => { c with ten := mapDel c.ten t, tenEff := mapDel c.tenEff t })).endMq p St.ok 0 0).wake))) ∧
  (∀ (s : State) (p : MqPkt) (ns : Nat) (u : State) (e : TenEntry), Turn s 0x8004 p → u = s.mqTake p ns →
    rsvBad p.words 8 31 20 = none → nzBad (wordsBytes p.words) 36 64 = none →
    (∀ x ∈ u.conc.ten, x.1 ≠ p.arg % 4096 → x.2.bound ≠ some ((uw p.words 2 0).bits 19 0)) →
    u.tenOf (p.arg % 4096) = some e → e.pasidValid = false →
    exec (.pasidBind ns) s = .next (kept s (((u.setTen (p.arg % 4096)
      (e.withPasid (some ((uw p.words 2 0).bits 19 0))) false).endMq p St.ok 0 0).wake))) ∧
  (∀ (s : State) (p : MqPkt) (ns : Nat) (u : State) (e : TenEntry), Turn s 0x8005 p → u = s.mqTake p ns →
    u.tenOf (p.arg % 4096) = some e → e.pasidValid = true → u.ctxOf (p.arg % 4096) = 0 →
    (∀ x ∈ u.conc.cmd, x.2.tenant = p.arg % 4096 → x.2.engine = true) →
    (∀ x ∈ u.conc.cpl, x.2.tenant = p.arg % 4096 → x.2.engine = true) →
    exec (.pasidUnbind ns) s = .next (kept s ((((u.dropPasid e.pasid).setTen (p.arg % 4096)
      (e.withPasid none) false).endMq p St.ok 0 0).wake))) ∧
  (∀ (s : State) (p : MqPkt) (ns : Nat) (u : State), u = s.mqTake p ns → u.tenOf (p.arg % 4096) = none →
    (Turn s 0x8002 p → exec (.tenantDestroy ns) s = .next (kept s ((u.mgBadState p).wake))) ∧
    (Turn s 0x8005 p → exec (.pasidUnbind ns) s = .next (kept s ((u.mgBadState p).wake))))

/-- In its turn RING_CREATE whose packet's first failing check is none makes a completion or a command ring under the
lowest free number with nothing written, read or reserved, and answers the number; with a failing check it ends with
that check's ending and makes none. RING_DESTROY of a completion ring that no command ring names removes it; of a
command ring that is not being destroyed marks it, stops its reads, cancels its packets where CANCEL is set, and goes
on until it is idle. RING_RESET of a halted ring in host memory asks for its TAIL, of one in engine memory reads it
and restarts the ring there. A ring that does not exist ends RING_DESTROY and RING_RESET with ST_BAD_STATE. -/
def Obligations.ControlRings : Prop :=
  (∀ (s : State) (p : MqPkt) (ns n : Nat) (u : State), Turn s 0x8010 p → u = s.mqTake p ns →
    ringBad u p.words = none → (uw p.words 2 0).bit 0 = true → freeRing (u.conc.cpl.map (·.1)) = some n →
    exec (.ringCreate ns) s = .next (kept s (((u.modConc (fun c => { c with cpl := mapSet c.cpl n (newCpl p.words) })).endMq p St.ok n 0).wake))) ∧
  (∀ (s : State) (p : MqPkt) (ns n : Nat) (u : State), Turn s 0x8010 p → u = s.mqTake p ns →
    ringBad u p.words = none → (uw p.words 2 0).bit 0 = false → freeRing (u.conc.cmd.map (·.1)) = some n →
    exec (.ringCreate ns) s = .next (kept s (((u.modConc (fun c => { c with cmd := mapSet c.cmd n (newCmd p.words) })).endMq p St.ok n 0).wake))) ∧
  (∀ (s : State) (p : MqPkt) (ns : Nat) (u : State) (e : Ending), Turn s 0x8010 p → u = s.mqTake p ns →
    ringBad u p.words = some e →
    exec (.ringCreate ns) s = .next (kept s ((u.endMq p e.status e.detail e.aux).wake))) ∧
  (∀ (s : State) (p : MqPkt) (ns : Nat) (u : State) (q : CplRing), Turn s 0x8011 p → u = s.mqTake p ns →
    p.arg / 8192 % 2 = 1 → mapGet u.conc.cpl (p.arg % 8192) = some q → (∀ x ∈ u.conc.cmd, x.2.cq ≠ p.arg % 8192) →
    exec (.ringDestroy ns) s = .next (kept s (((u.modConc (fun c =>
      { c with cpl := mapDel c.cpl (p.arg % 8192) })).endMq p St.ok 0 0).wake))) ∧
  (∀ (s : State) (p : MqPkt) (ns : Nat) (u v : State) (r : CmdRing), Turn s 0x8011 p → u = s.mqTake p ns →
    p.arg / 8192 % 2 = 0 → u.ring (p.arg % 8192) = some r → r.destroying = false →
    v = (u.modCmd (p.arg % 8192) (fun r => { r with destroying := true })).readStops (p.arg % 8192) →
    exec (.ringDestroy ns) s = .next (kept s ((State.putOp
      (if p.arg / 16384 % 2 = 1 then v.cancelRing (p.arg % 8192) p.seq else v) p (.ringDestroy (p.arg % 8192))).wake))) ∧
  (∀ (s : State) (p : MqPkt) (ns : Nat) (u : State) (r : CmdRing), Turn s 0x8012 p → u = s.mqTake p ns →
    u.ring (p.arg % 8192) = some r → r.halted = true → r.destroying = false → r.engine = false →
    exec (.ringReset ns) s = .next (kept s ((((u.putOp p (.ringReset (p.arg % 8192))).hostAcc reqConc r.tenant r.rcb 4
      none (.tail (p.arg % 8192)) false).1).wake))) ∧
  (∀ (s : State) (p : MqPkt) (ns : Nat) (u v : State) (r : CmdRing) (rd : Rd), Turn s 0x8012 p → u = s.mqTake p ns →
    u.ring (p.arg % 8192) = some r → r.halted = true → r.destroying = false → r.engine = true →
    u.engRead r.rcb 4 .good = (v, rd) → rd.bad = none →
    exec (.ringReset ns) s = .next (kept s (((v.ringRestart (p.arg % 8192) (ofLe (rd.data.take 4))).endMq p St.ok 0
      0).wake))) ∧
  (∀ (s : State) (p : MqPkt) (ns : Nat) (u : State), u = s.mqTake p ns → u.ring (p.arg % 8192) = none →
    (Turn s 0x8011 p → p.arg / 8192 % 2 = 0 →
      exec (.ringDestroy ns) s = .next (kept s ((u.endMq p St.badState 0 0).wake))) ∧
    (Turn s 0x8012 p → exec (.ringReset ns) s = .next (kept s ((u.endMq p St.badState 0 0).wake))))

/-- In its turn, on a table that exists and a packet without a failing check, each has its effect at once or enters
the schedule table, and the directory's mirror in memory follows: TABLE_DEFINE of a table that does not exist enters
it with the shards that the packet holds; TABLE_STATE, VERSION_SWITCH with ACT 0, EPOCH_BUMP and a MIGRATE that names
a landing schedule their actions; VERSION_SWITCH opens an EMPTY slot for filling, and seals or discards one;
SHARD_MAP_WRITE sets CUR of a LOADING table's shards and NEXT of another's; a MIGRATE that names no landing begins;
TABLE_GRANT sets or takes away a tenant's grant; COUNTERS_READ of the owner writes the load counters to host memory. A
table that does not exist ends the packet of the seven others with ST_BAD_TABLE. -/
def Obligations.ControlTables : Prop :=
  (∀ (s : State) (p : MqPkt) (ns : Nat) (u : State) (t : Table), Turn s 0x8020 p → u = s.mqTake p ns →
    u.baseOk = true → u.table p.table = none →
    t = Table.define ((upto 0 16).map (fun i => if i < 8 then uw p.words 2 i else uw p.words 3 (i - 8))) u.hall.landing →
    u.defineBad p.words t = none →
    exec (.tableDefine ns) s = .next (kept s (State.mirror s ((State.endMq { u with dir := { u.dir with
      tables := mapSet u.dir.tables p.table ((upto 0 (min ((lenOf p.words - 3) * 4) t.shardCount)).foldl (fun t j =>
        t.setShard j ⟨plAt p.words (96 + 8 * j), 0, 0, false⟩) t) } } p St.ok 0 0).wake)))) ∧
  (∀ (s : State) (p : MqPkt) (ns : Nat) (u : State) (t : Table), Turn s 0x8021 p → u = s.mqTake p ns →
    u.table p.table = some t → rsvBad p.words 2 31 19 = none → 2 ≤ p.arg % 8 → p.arg % 8 ≤ 4 → u.landingBad p = none →
    exec (.tableState ns) s =
      .next (kept s (State.mirror s ((u.schedule p (.tableState p.table (p.arg % 8))).wake)))) ∧
  (∀ (s : State) (p : MqPkt) (ns : Nat) (u : State) (t : Table), Turn s 0x8022 p → u = s.mqTake p ns →
    u.table p.table = some t → rsvBad p.words 2 31 19 = none → t.st ≠ .retiring →
    (p.arg / 2 % 4 = 0 → p.at_ ≠ 0 → u.landingBad p = none → (t.slot (p.arg % 2)).st = .ready →
      exec (.versionSwitch ns) s =
        .next (kept s (State.mirror s ((u.schedule p (.switch p.table (p.arg % 2))).wake)))) ∧
    (p.arg / 2 % 4 = 1 → p.at_ = 0 → (t.slot (p.arg % 2)).st = .empty →
      exec (.versionSwitch ns) s = .next (kept s (State.mirror s ((((u.modTable p.table (fun t =>
        t.modSlot (p.arg % 2) (fun v => { v with st := .filling }))).mntQueue
        (.table p.table (p.arg % 2 == 0) (p.arg % 2 == 1)) true false).1.putOp p
        (.openSlot p.table (p.arg % 2))).wake)))) ∧
    (p.arg / 2 % 4 = 2 → p.at_ = 0 → (t.slot (p.arg % 2)).st = .filling →
      exec (.versionSwitch ns) s = .next (kept s (State.mirror s (((u.modTable p.table (fun t =>
        t.modSlot (p.arg % 2) (fun v => { v with st := .ready }))).endMq p St.ok 0 0).wake)))) ∧
    (p.arg / 2 % 4 = 3 → p.at_ = 0 → (t.slot (p.arg % 2)).st = .filling ∨ (t.slot (p.arg % 2)).st = .ready →
      exec (.versionSwitch ns) s = .next (kept s (State.mirror s (((u.modTable p.table (fun t =>
        t.modSlot (p.arg % 2) (fun v => { v with st := .empty }))).endMq p St.ok 0 0).wake))))) ∧
  (∀ (s : State) (p : MqPkt) (ns first count : Nat) (u : State) (t : Table), Turn s 0x8023 p → u = s.mqTake p ns →
    u.table p.table = some t → t.replicated = false → first = (uw p.words 2 0).bits 23 0 →
    count = (uw p.words 2 0).bits 31 24 → 1 ≤ count → count ≤ 27 → count ≤ (lenOf p.words - 2) * 4 + 3 →
    first + count ≤ t.shardCount → rsvBad p.words 9 31 0 = none →
    (∀ j, plBad p.words (smwByte j) = none ∧ plTier (plAt p.words (smwByte j)) ≠ 1) →
    exec (.shardMapWrite ns) s = .next (kept s (State.mirror s (((u.modTable p.table (fun t =>
      (upto 0 count).foldl (fun (t : Table) j => t.setShard (first + j) (if t.st == .loading
        then { t.shard (first + j) with cur := plAt p.words (smwByte j), pend := false }
        else { t.shard (first + j) with next := plAt p.words (smwByte j), pend := true })) t)).endMq p St.ok 0 0).wake)))) ∧
  (∀ (s : State) (p : MqPkt) (ns : Nat) (u : State) (t : Table), Turn s 0x8024 p → u = s.mqTake p ns →
    u.table p.table = some t → t.replicated = false → u.landingBad p = none → t.bumpPend = false →
    p.arg = (t.epoch + 1) % 65536 → p.at_ = 0 ∨ u.schedUsed < 1024 →
    exec (.epochBump ns) s = .next (kept s (State.mirror s (((u.modTable p.table (fun t =>
      { t with bumpPend := true })).schedule p (.epochBump p.table)).wake)))) ∧
  (∀ (s : State) (p : MqPkt) (ns : Nat) (u : State) (t : Table), Turn s 0x8025 p → u = s.mqTake p ns →
    u.table p.table = some t → nzBad (wordsBytes p.words) 40 64 = none → u.landingBad p = none →
    (p.at_ = 0 → exec (.migrate ns) s = .next (kept s (State.mirror s ((u.migBegin p p.table
      ((uw p.words 2 0).bits 23 0) ((uw p.words 2 1).bits 17 0)).wake)))) ∧
    (p.at_ ≠ 0 → exec (.migrate ns) s = .next (kept s (State.mirror s ((u.schedule p (.migrate p.table
      ((uw p.words 2 0).bits 23 0) ((uw p.words 2 1).bits 17 0))).wake))))) ∧
  (∀ (s : State) (p : MqPkt) (ns : Nat) (u : State) (t : Table) (rest : List (Nat × Nat × Bool × Bool)),
    Turn s 0x8026 p → u = s.mqTake p ns → u.table p.table = some t → rsvBad p.words 8 31 22 = none →
    rest = u.dir.grantsNext.filter (fun x => !(x.1 == p.table && x.2.1 == (uw p.words 2 0).bits 19 0)) →
    ((uw p.words 2 0).bit 20 = false → (uw p.words 2 0).bit 21 = false →
      exec (.tableGrant ns) s = .next (kept s (State.mirror s
        ((State.endMq { u with dir := { u.dir with grantsNext := rest } } p St.ok 0 0).wake)))) ∧
    ((uw p.words 2 0).bit 20 = true ∨ (uw p.words 2 0).bit 21 = true → rest.length < 16384 →
      exec (.tableGrant ns) s = .next (kept s (State.mirror s ((State.endMq { u with dir := { u.dir with
        grantsNext := rest ++ [(p.table, (uw p.words 2 0).bits 19 0, (uw p.words 2 0).bit 20,
          (uw p.words 2 0).bit 21)] } } p St.ok 0 0).wake))))) ∧
  (∀ (s : State) (p : MqPkt) (ns first count homed : Nat) (u v w : State) (t : Table), Turn s 0x8030 p →
    u = s.mqTake p ns → u.table p.table = some t → (u.tenant p.tenant).hallId = t.owner →
    first = (uw p.words 2 0).bits 23 0 → count = (uw p.words 2 1).bits 16 0 → 1 ≤ count → count ≤ 65536 →
    first + count ≤ t.shardCount → misaligned (uw64 p.words 2 2) 64 = false → nzBad (wordsBytes p.words) 48 64 = none →
    homed = ((upto first count).filter (u.homes t)).length →
    v = (if (uw p.words 2 1).bit 31 then u.modTable p.table (fun t => { t with
      load := (upto first count).foldl (fun m k => mapSet m k ⟨0, 0, 0, 0, u.hall.landing⟩) t.load }) else u) →
    (v.putOp p (.counters homed)).hostAcc reqMgmt p.tenant (uw64 p.words 2 2) (16 * count)
      (some ((upto first count).flatMap (fun k => wordsBytes (u.loadRecord t k)))) (.counters p.seq) false =
      (w, .committed) →
    exec (.countersRead ns) s =
      .next (kept s (State.mirror s (((w.dropOp p.seq).endMq p St.ok homed 0).wake)))) ∧
  (∀ (s : State) (i : Instr) (op : Nat) (p : MqPkt) (ns : Nat) (u : State),
    i ∈ [Instr.tableState ns, .versionSwitch ns, .shardMapWrite ns, .epochBump ns, .migrate ns, .tableGrant ns,
      .countersRead ns] → ctlOp i = some op → Turn s op p → u = s.mqTake p ns → u.table p.table = none →
    exec i s = .next (kept s (State.mirror s ((u.endMq p St.badTable p.table 0).wake))))

/-- In its turn, with no failing check in its packet: SELFTEST of units none of which is a fenced gallery begins with
the first of them. FENCE of a gallery that is not fenced, without which 8 still serve, fences it with cause 4 and ends
with ST_OK; of a fenced one it ends with ST_FENCED, and where fewer than 8 would serve with ST_BAD_STATE. UNIT_RESET
with ACT 0 quiesces its unit and with ACT 2 returns it; with ACT 1 it resets a quiesced, idle unit, counts cause 8 and
ends when the unit is ready. DRAIN of a drained engine ends at once, and of another it enters DRAINING with cause 1
and ends when the engine has drained. -/
def Obligations.ControlUnits : Prop :=
  (∀ (s : State) (p : MqPkt) (ns : Nat) (u : State) (gs ss cs : List Nat), Turn s 0x8040 p → u = s.mqTake p ns →
    s.selftest = none → selfUnits p.words = .ok (gs, ss, cs) → (∀ g ∈ gs, (u.gal g).fenced = false) →
    exec (.selftest ns) s = .next (kept s ((selfNext (newSelf u p gs ss cs) 64).wake))) ∧
  (∀ (s : State) (p : MqPkt) (ns : Nat) (u : State), Turn s 0x8041 p → u = s.mqTake p ns →
    rsvBad p.words 2 31 21 = none → p.arg % 32 ≤ 17 →
    ((u.gal (p.arg % 32)).fenced = false → 8 ≤ u.servingWithout (p.arg % 32) →
      exec (.fence ns) s = .next (kept s (((u.fenceGal (p.arg % 32) 4 false).endMq p St.ok 0 0).wake))) ∧
    ((u.gal (p.arg % 32)).fenced = true →
      exec (.fence ns) s = .next (kept s ((u.endMq p St.fenced (p.arg % 32) 0).wake))) ∧
    ((u.gal (p.arg % 32)).fenced = false → u.servingWithout (p.arg % 32) < 8 →
      exec (.fence ns) s = .next (kept s ((u.endMq p St.badState u.servingCount 0).wake)))) ∧
  (∀ (s : State) (p : MqPkt) (ns kind n : Nat) (u : State), Turn s 0x8042 p → u = s.mqTake p ns →
    n = p.arg % 64 → kind = p.arg / 64 % 4 → n < unitsOf kind → rsvBad p.words 2 31 26 = none →
    (p.arg / 256 % 4 = 0 → exec (.unitReset ns) s = .next (kept s (((if kind = 0
      then (u.setQuiesced kind n true).spillGal n else u.setQuiesced kind n true).endMq p St.ok 0 0).wake))) ∧
    (p.arg / 256 % 4 = 2 → exec (.unitReset ns) s =
      .next (kept s (((u.setQuiesced kind n false).endMq p St.ok 0 0).wake))) ∧
    (p.arg / 256 % 4 = 1 → u.unitQuiesced kind n = true → u.unitIdle kind n = true →
      (kind = 0 → (u.gal n).fenced = false ∧ (u.gal n).enabled = true) → (kind = 2 → u.rbits Reg.RC_PIN 3 0 = 0) →
      exec (.unitReset ns) s = .next (kept s ((((u.bkCount 8).resetUnit kind n).putOp p
        (.unitReset kind n (u.unitReady kind))).wake)))) ∧
  (∀ (s : State) (p : MqPkt) (ns : Nat) (u : State), Turn s 0x8043 p → u = s.mqTake p ns →
    (u.err.drain = .drained → exec (.drain ns) s = .next (kept s ((u.endMq p St.ok 0 0).wake))) ∧
    (u.err.drain ≠ .drained → exec (.drain ns) s = .next (kept s (((u.enterDraining 1).putOp p .drain).wake))))

/-- In its turn, with no failing check in its packet: PERSIST_WRITE of a free word, or of a settings word whose
register would take the value, writes it; REPAIR_MAP_WRITE writes its entries; WEAR_OVERRIDE unlocks a word; FW_LOAD
asks for the image; FW_ACCEPT of a staged image writes it; DEBUG_ENABLE sets the debug scope with a record of code
0x02; REMOTE_RESET starts a warm reset with cause 6; HOST_LOSS_MODE writes word 2; REATTACH of an ATTACHING engine
copies the detach log and goes on from there, and of another ends with ST_BAD_STATE. Without presence
REPAIR_MAP_WRITE, WEAR_OVERRIDE, FW_ACCEPT, DEBUG_ENABLE and REMOTE_RESET end with ST_PRESENCE. -/
def Obligations.ControlPersist : Prop :=
  (∀ (s : State) (p : MqPkt) (ns w : Nat) (u : State), Turn s 0x8050 p → u = s.mqTake p ns →
    w = (uw p.words 2 0).bits 13 0 →
    (640 ≤ w → w < 4096 →
      exec (.persistWrite ns) s = .next (kept s ((u.psPacket p [(w, uw p.words 2 1)]).wake))) ∧
    (∀ v, w < 6 → u.rwpValue w (uw p.words 2 1) = some v →
      exec (.persistWrite ns) s = .next (kept s ((u.psPacket p [(w, v)]).wake))) ∧
    (6 ≤ w → w < 640 ∨ 4096 ≤ w →
      exec (.persistWrite ns) s = .next (kept s ((u.mgEnd p (badAt 32)).wake)))) ∧
  (∀ (s : State) (p : MqPkt) (ns first count : Nat) (u : State), Turn s 0x8051 p → u = s.mqTake p ns →
    u.presence = true → first = (uw p.words 2 0).bits 8 0 → count = (uw p.words 2 0).bits 15 10 →
    rsvBad p.words 8 9 9 = none → rsvBad p.words 8 31 16 = none → 1 ≤ count → count ≤ 55 →
    lenOf p.words = 2 + ceilDiv (count - 7) 8 → first + count ≤ 512 → (∀ j, repairBad p.words (9 + j) = none) →
    exec (.repairMapWrite ns) s = .next (kept s ((u.psPacket p
      ((upto 0 count).map (fun j => (64 + first + j, p.words.getD (9 + j) 0)))).wake))) ∧
  (∀ (s : State) (p : MqPkt) (ns : Nat) (u : State), Turn s 0x8063 p → u = s.mqTake p ns → u.presence = true →
    p.arg < psWords →
    exec (.wearOverride ns) s = .next (kept s ((State.endMq { u with ps := { u.ps with
      unlocked := setIns u.ps.unlocked p.arg } } p St.ok 0 0).wake))) ∧
  (∀ (s : State) (p : MqPkt) (ns : Nat) (u : State), Turn s 0x8060 p → u = s.mqTake p ns → fwLoadBad p.words = none →
    exec (.fwLoad ns) s = .next (kept s ((u.fwAsk p (uw64 p.words 2 0) ((uw p.words 2 2).bits 12 0)).wake))) ∧
  (∀ (s : State) (p : MqPkt) (ns : Nat) (u : State) (img : List Byte), Turn s 0x8061 p → u = s.mqTake p ns →
    u.presence = true → u.boot.staged = some img →
    exec (.fwAccept ns) s = .next (kept s ((u.psPacket p (u.fwWords img)).wake))) ∧
  (∀ (s : State) (p : MqPkt) (ns : Nat) (u : State), Turn s 0x8062 p → u = s.mqTake p ns → u.presence = true →
    rsvBad p.words 2 31 18 = none →
    exec (.debugEnable ns) s = .next (kept s (((State.raise { u with err := { u.err with dbgScope := p.arg % 4 } }
      { code := 0x02, d0 := p.arg % 4 }).endMq p St.ok 0 0).wake))) ∧
  (∀ (s : State) (p : MqPkt) (ns : Nat) (u : State), Turn s 0x8064 p → u = s.mqTake p ns → u.presence = true →
    exec (.remoteReset ns) s = .next (kept s ((u.warmStart 6).wake))) ∧
  (∀ (s : State) (p : MqPkt) (ns : Nat) (u : State), Turn s 0x8070 p → u = s.mqTake p ns →
    exec (.hostLossMode ns) s = .next (kept s ((u.psPacket p [(2, Word.ofNat (p.arg % 4))]).wake))) ∧
  (∀ (s : State) (p : MqPkt) (ns : Nat) (u v : State), Turn s 0x8071 p → u = s.mqTake p ns →
    reattachBad p.words = none →
    (u.xlt.host = .attaching → v = u.logCopy (uw64 p.words 2 0) (u.reattachN p) →
      exec (.reattach ns) s =
        .next (kept s ((v.reattached p (u.reattachN p) v.logUsed ((uw p.words 2 2).bit 8)).wake))) ∧
    (u.xlt.host ≠ .attaching →
      exec (.reattach ns) s = .next (kept s ((u.endMq p St.badState u.xlt.host.code 0).wake)))) ∧
  (∀ (s : State) (p : MqPkt) (ns : Nat) (u : State), u = s.mqTake p ns → u.presence = false →
    (Turn s 0x8051 p → (uw p.words 2 0).bits 15 10 ≠ 0 → (uw p.words 2 0).bits 15 10 ≤ 55 →
      rsvBad p.words 8 9 9 = none → rsvBad p.words 8 31 16 = none →
      lenOf p.words = 2 + ceilDiv ((uw p.words 2 0).bits 15 10 - 7) 8 →
      (uw p.words 2 0).bits 8 0 + (uw p.words 2 0).bits 15 10 ≤ 512 → (∀ j, repairBad p.words (9 + j) = none) →
      exec (.repairMapWrite ns) s = .next (kept s ((u.endMq p St.presence (u.presDetail none) 0).wake))) ∧
    (Turn s 0x8063 p → p.arg < psWords →
      exec (.wearOverride ns) s = .next (kept s ((u.endMq p St.presence (u.presDetail none) 0).wake))) ∧
    (Turn s 0x8062 p → rsvBad p.words 2 31 18 = none →
      exec (.debugEnable ns) s = .next (kept s ((u.endMq p St.presence (u.presDetail none) 0).wake))) ∧
    (Turn s 0x8061 p → exec (.fwAccept ns) s = .next (kept s ((u.endMq p St.presence (u.presDetail none) 0).wake))) ∧
    (Turn s 0x8064 p → exec (.remoteReset ns) s = .next (kept s ((u.endMq p St.presence (u.presDetail none) 0).wake))))

/-- A datapath packet of any opcode (NOP, BAG, BAG_INTERACT, ARRAY_OP, TILE_READ, TILE_WRITE, VEC_CHAIN, UPDATE_BATCH,
SPLIT_REDUCE, COPY, RECHECK, INLINE_WRITE) from the lane, whose LEN is 1 to 8, is taken as tenant 0's while the core
is out of reset, and so is a PACKET message's packet of whatever opcode; with another LEN its COMPLETION message with
ST_BAD_LENGTH goes out; in reset it is lost. The next packet of a ring, of LEN 1 to 8, is taken as the ring's tenant's
with the ring's head as its index: one slot of its completion ring is reserved, and the head moves past it. A LEN of 0
or above 8 halts the ring. With no context free for the tenant the ring waits for one; with fewer than two slots free
every ring bound to that completion ring waits. A ring that does not exist, is not read or has a read under way takes
nothing. After each of these whatever waited goes on, and nothing else changes. -/
def Obligations.PacketArrivals : Prop :=
  (∀ (s : State) (c : Instr) (op q : Nat) (pkt ws : List Word), lanePkt c = some (op, q, pkt) → ws = pktWords op pkt →
    s.inReset = false → 1 ≤ (uw ws 1 0).bits 19 16 → (uw ws 1 0).bits 19 16 ≤ 8 →
    exec c s = .next (kept s ((s.takePkt (.lane q) none 0 0 ws).wake))) ∧
  (∀ (s : State) (c : Instr) (op q : Nat) (pkt ws : List Word), lanePkt c = some (op, q, pkt) → ws = pktWords op pkt →
    s.inReset = false → (uw ws 1 0).bits 19 16 = 0 ∨ 8 < (uw ws 1 0).bits 19 16 →
    exec c s = .next (kept s ((s.packetRec (.lane q) none ws 0 St.badLength (1 + 8 * 256) 0 false).wake))) ∧
  (∀ (s : State) (c : Instr) (op q : Nat) (pkt : List Word), lanePkt c = some (op, q, pkt) → s.inReset = true →
    exec c s = .next (kept s s.wake)) ∧
  (∀ (s : State) (c : Instr) (op n : Nat) (pkt : List Word), dataPkt c = some (op, .ring n, pkt) →
    (∀ r, s.ring n = some r → s.mayRead n r = false ∨ s.ringBusy n = true) → exec c s = .next (kept s s.wake)) ∧
  (∀ (s a b : State) (c : Instr) (op n len : Nat) (pkt ws : List Word) (r : CmdRing) (k : CplRing),
    dataPkt c = some (op, .ring n, pkt) → ws = pktWords op pkt → s.ring n = some r → s.mayRead n r = true →
    s.ringBusy n = false → len = (uw ws 1 0).bits 19 16 → 1 ≤ len → len ≤ 8 → s.ctxFull r.tenant = false →
    mapGet s.conc.cpl r.cq = some k → 2 ≤ k.free →
    a = s.modCmd n (fun r => { r with tail := (r.head + len) % 2 ^ 32, buf := wordsBytes ws }) →
    b = (a.modCpl r.cq (fun k => { k with reserved := k.reserved + 1 })).modCmd n
      (fun r => { r with head := (r.head + len) % 2 ^ 32, buf := r.buf.drop (32 * len) }) →
    exec c s = .next (kept s (((b.takePkt (.ring n) (some r.cq) r.head r.tenant ws).readEnds n).wake))) ∧
  (∀ (s a : State) (c : Instr) (op n : Nat) (pkt ws : List Word) (r : CmdRing), dataPkt c = some (op, .ring n, pkt) →
    ws = pktWords op pkt → s.ring n = some r → s.mayRead n r = true → s.ringBusy n = false →
    a = s.modCmd n (fun r => { r with tail := (r.head + lenOf ws) % 2 ^ 32, buf := wordsBytes ws }) →
    ((uw ws 1 0).bits 19 16 = 0 ∨ 8 < (uw ws 1 0).bits 19 16 →
      exec c s = .next (kept s ((a.haltRing n ((r.head + lenOf ws) % 2 ^ 32) ((uw ws 1 0).bits 15 0)
        (uw ws 1 3).toNat).wake))) ∧
    (1 ≤ (uw ws 1 0).bits 19 16 → (uw ws 1 0).bits 19 16 ≤ 8 → s.ctxFull r.tenant = true →
      exec c s = .next (kept s (((a.modCmd n (fun r => { r with wait := .ctx })).readStops n).wake))) ∧
    (∀ k, 1 ≤ (uw ws 1 0).bits 19 16 → (uw ws 1 0).bits 19 16 ≤ 8 → s.ctxFull r.tenant = false →
      mapGet s.conc.cpl r.cq = some k → k.free < 2 → exec c s = .next (kept s ((a.waitCq r.cq).wake))))

/-- A packet with a failing check is counted in CONC_REJECT_CNT and its record is written with that check's status,
detail and AUX: it takes no context. A datapath packet with none takes a context: an item of its tenant with the
packet's opcode and class, accepted at the open landing, due at that landing plus DEADLINE, nothing admitted, joins
the items under the next sequence number, and a context is spilled where the chip holds too many; a NOP that ORDER
does not hold ends at once with ST_OK. A control packet joins the control queue under the next sequence number while
the queue takes its tenant's packets, and otherwise is counted in CONC_BUSY_CNT and ends with ST_BUSY_RETRY and the
retry-after count. -/
def Obligations.PacketTaking : Prop :=
  (∀ (s : State) (src : PktSrc) (cq : Option Nat) (index t : Nat) (ws : List Word) (e : Ending),
    s.checkPkt t ws = some e →
    s.takePkt src cq index t ws =
      (s.bump Reg.CONC_REJECT_CNT 1).packetRec src cq ws index e.status e.detail e.aux false) ∧
  (∀ (s : State) (src : PktSrc) (cq : Option Nat) (index t : Nat) (ws : List Word), s.checkPkt t ws = none →
    (uw ws 1 0).bits 15 0 < 0x8000 → ∃ (i : Item) (u : State),
      i.seq = s.conc.nextSeq ∧ i.tenant = t ∧ i.hallId = (s.tenant t).hallId ∧ i.src = src ∧ i.cq = cq ∧
      i.index = index ∧ i.words = ws ∧ i.op = (uw ws 1 0).bits 15 0 ∧ i.cls = (uw ws 1 0).bits 21 20 ∧
      i.cls0 = i.cls ∧ i.accLanding = s.hall.landing ∧ i.due = s.hall.landing + (uw ws 1 0).bits 31 24 ∧
      i.spilled = false ∧ i.admitted = false ∧ i.gallery = none ∧ i.chunks = [] ∧ i.ending = none ∧
      u = s.modConc (fun c => { c with items := c.items ++ [i], nextSeq := c.nextSeq + 1 }) ∧
      s.takePkt src cq index t ws = (if (uw ws 1 0).bits 15 0 = 0 && u.orderOk src ws i.seq
        then u.endItem i.seq ⟨St.ok, 0, 0⟩ else u.spillOne.prepare i.seq)) ∧
  (∀ (s : State) (src : PktSrc) (cq : Option Nat) (index t : Nat) (ws : List Word) (p : MqPkt), s.checkPkt t ws = none →
    0x8000 ≤ (uw ws 1 0).bits 15 0 →
    p = ⟨s.conc.nextSeq, t, src, cq, index, ws, s.hall.landing + (uw ws 1 0).bits 31 24⟩ →
    (s.mqTakes t = true → s.takePkt src cq index t ws =
      s.modConc (fun c => Conc.noteMq { c with mq := c.mq ++ [p], nextSeq := c.nextSeq + 1 })) ∧
    (s.mqTakes t = false → s.takePkt src cq index t ws =
      (s.bump Reg.CONC_BUSY_CNT 1).packetRec src cq ws index St.busyRetry s.retryAfter 0 false))

/-- PACKET of a packet of valid LEN, while the core is out of reset, is taken just as a ring's packet is, as tenant
0's, with the same words; its completion record, whatever its status, goes out as a COMPLETION message of the
request's sequence number unless QUIET and ST_OK release it, with the words that a record in a ring has, and no
completion ring changes. -/
def Obligations.LaneCompletions : Prop :=
  (∀ (s : State) (q : Nat) (pkt ws : List Word), ws = pktWords ((pkt.getD 0 0).bits 15 0) pkt → s.inReset = false →
    1 ≤ (uw ws 1 0).bits 19 16 → (uw ws 1 0).bits 19 16 ≤ 8 →
    exec (.packet q pkt) s = .next (kept s ((s.takePkt (.lane q) none 0 0 ws).wake))) ∧
  (∀ (s : State) (q index st dt aux : Nat) (ws : List Word) (d : Bool), ¬ (st = St.ok ∧ (ws.getD 1 0).bit 0 = true) →
    s.packetRec (.lane q) none ws index st dt aux d = { s with outs := s.outs ++ [.lane 4 0 q
      (withPhase (recWords s st ((ws.getD 0 0).bits 15 0) (ws.getD 3 0).toNat 0 index dt aux) false)] })

/-- The ending of a ring's packet with QUIET set and ST_OK changes nothing but the number of slots reserved in its
completion ring, which falls by one. The ending with any other status, or of a packet without QUIET, writes its record
into the completion ring. -/
def Obligations.QuietRecords : Prop :=
  (∀ (s : State) (n q index dt aux : Nat) (ws : List Word) (d : Bool), (ws.getD 1 0).bit 0 = true →
    s.packetRec (.ring n) (some q) ws index St.ok dt aux d =
      s.modCpl q (fun r => { r with reserved := r.reserved - 1 })) ∧
  (∀ (s : State) (n q index st dt aux : Nat) (ws : List Word) (d : Bool),
    st ≠ St.ok ∨ (ws.getD 1 0).bit 0 = false →
    s.packetRec (.ring n) (some q) ws index st dt aux d =
      s.putRec q (recWords s st ((ws.getD 0 0).bits 15 0) (ws.getD 3 0).toNat n index dt aux) true
        ((ws.getD 1 0).bit 1) d)

/-- A record's eight words are STATUS and OPCODE, TAG, RING, INDEX, DETAIL, LANDING and AUX. It is written, with PHASE
set on even passes of the ring, as 32 bytes at the slot that the count of written records names; that count goes up by
one, and a held slot is reserved no more; a ring in engine memory is written there, one in host memory of an attached
engine by an access of 32 bytes. A message follows at once where one is called for or COALESCE is reached, and not
otherwise. A record for a host-memory ring of an engine that is not attached goes to the detach log. -/
def Obligations.CompletionRecords : Prop :=
  (∀ (s : State) (st op tag n index dt aux : Nat), recWords s st op tag n index dt aux =
    [Word.ofNat (st + op * 65536), Word.ofNat tag, Word.ofNat n, Word.ofNat index, Word.ofNat dt,
      Word.ofNat (dt / 2 ^ 32), Word.ofNat s.hall.landing, Word.ofNat (aux % 65536)]) ∧
  (∀ (s u v : State) (n : Nat) (ws : List Word) (held msg d : Bool) (r : CplRing) (full : Bool) (bs : List Byte) (at_ : Nat),
    mapGet s.conc.cpl n = some r →
    u = (if held then s.modCpl n (fun r => { r with reserved := r.reserved - 1 }) else s) →
    (r.engine = false → s.xlt.host ≠ .attached → d = false →
      s.putRec n ws held msg d = u.detachLog (withPhase ws false) n 0) ∧
    (r.engine = true ∨ s.xlt.host = .attached ∨ d = true →
      bs = wordsBytes (withPhase ws (r.written / 2 ^ r.log2 % 2 == 0)) →
      at_ = r.base + 32 * (r.written % 2 ^ r.log2) →
      full = (r.coalesce != 0 && decide (r.sinceMsg + 1 ≥ r.coalesce)) →
      v = u.modCpl n (fun r => { r with
        written := (r.written + 1) % 2 ^ 32, sinceMsg := if full || r.coalesce == 0 then 0 else r.sinceMsg + 1 }) →
      (r.engine = true → msg = true ∨ full = true →
        s.putRec n ws held msg d = (v.engWrite at_ bs).sendMsix ((v.engWrite at_ bs).cplVector n r)) ∧
      (r.engine = true → msg = false → full = false → s.putRec n ws held msg d = v.engWrite at_ bs) ∧
      (∀ w x, r.engine = false →
        v.hostAcc reqConc r.tenant at_ 32 (some bs) (.record n none (msg || full)) false = (w, x) →
        s.putRec n ws held msg d =
          if x = .committed ∧ (msg || full) = true then w.sendMsix (w.cplVector n r) else w)))

/-- TENANT_DESTROY, in its turn, of a tenant that holds a command or completion ring, a context or a table ends with
ST_BAD_STATE and removes nothing. Its DETAIL is a free value (log 5). -/
def Obligations.TenantDestroyRefused : Prop :=
  ∀ (s : State) (p : MqPkt) (ns : Nat) (u : State) (e : TenEntry), Turn s 0x8002 p → u = s.mqTake p ns →
    u.tenOf (p.arg % 4096) = some e →
    (∃ x ∈ u.conc.cmd, x.2.tenant = p.arg % 4096) ∨ (∃ x ∈ u.conc.cpl, x.2.tenant = p.arg % 4096) ∨
      (∃ i ∈ u.conc.items, i.tenant = p.arg % 4096) ∨ (∃ x ∈ u.dir.tables, x.2.owner = e.hallId) →
    ∃ d, exec (.tenantDestroy ns) s = .next (kept s ((u.endMq p St.badState d 0).draw.wake))

/-- A write of ENG_PROFILE with SEL 3 by RWP_REGISTER_WRITE, or by REGISTER_WRITE of 4 bytes, changes nothing at all:
the register, the store's words and their write counts stay. PERSIST_WRITE of word 0 with SEL 3, in its turn, ends
with ST_BAD_FIELD and writes nothing. -/
def Obligations.ProfileCodeThree : Prop :=
  (∀ (s : State) (w : Word), w.bits 1 0 = 3 → exec (.rwpRegisterWrite Reg.ENG_PROFILE w) s = .next s) ∧
  (∀ (s : State) (w : Word), w.bits 1 0 = 3 → exec (.registerWrite Reg.ENG_PROFILE 4 w.toNat) s = .next s) ∧
  (∀ (s : State) (p : MqPkt) (ns : Nat), Turn s 0x8050 p → (uw p.words 2 0).bits 13 0 = 0 →
    (uw p.words 2 1).bits 1 0 = 3 → exec (.persistWrite ns) s =
      .next (kept s (((s.mqTake p ns).endMq p (badAt 36).status (badAt 36).detail (badAt 36).aux).wake)))

/-- Whatever code of whatever format a NaN comes from, a conversion of it to BF16, FP16, FP32, FP8_E4M3 or FP8_E5M2
gives the one code the rule states, and each of these codes is itself a NaN of its format. -/
def Obligations.CanonicalNan : Prop :=
  (∀ (f : FFmt) (code : Nat), f.decode code = .nan →
    (OutFmt.conv .bf16 (f.decode code)).code = 0x7FC0 ∧ (OutFmt.conv .fp16 (f.decode code)).code = 0x7E00 ∧
    (OutFmt.conv .fp32 (f.decode code)).code = 0x7FC00000 ∧ (OutFmt.conv .e4m3 (f.decode code)).code = 0x7F ∧
    (OutFmt.conv .e5m2 (f.decode code)).code = 0x7E) ∧
  fBF16.decode 0x7FC0 = .nan ∧ fFP16.decode 0x7E00 = .nan ∧ fFP32.decode 0x7FC00000 = .nan ∧
  fE4M3.decode 0x7F = .nan ∧ fE5M2.decode 0x7E = .nan

/-- A record's first words hold SEQ, the code with its unit, the DRAINING, REPLACE and injected marks, the landing,
the engine's ID and state of synchronisation, TABLE and TENANT, ADDR and the four data words, and SUPPRESSED. Raising
an event of a class other than 1 writes its record into the log at SEQ mod 1,024, adds 1 to SEQ, and sets the bit of
its class in ERR_PEND. An event of class 1 whose key was recorded less than 1 ms ago writes no record: it adds 1 to
that key's count and to ERR_SUPPRESS_CNT; 1 ms or more afterwards it writes one that counts those suppressed. -/
def Obligations.ErrorRecords : Prop :=
  (∀ (s : State) (e : Ev) (n : Nat), s.recordWords e n =
    [Word.ofNat s.err.seq,
      Word.ofNat (e.code + e.kind * 2 ^ 8 + e.unit * 2 ^ 12 + b2n (s.err.drain != .none) * 2 ^ 18 +
        b2n s.replace * 2 ^ 19 + b2n e.injected * 2 ^ 20),
      Word.ofNat s.hall.landing, Word.ofNat (s.hall.landing / 2 ^ 32),
      Word.ofNat (s.engineId + b2n ((s.reg Reg.ZP_ID).bit 18) * 2 ^ 18 + s.hall.sync.code * 2 ^ 19),
      Word.ofNat (e.table + e.tenant * 2 ^ 16), Word.ofNat e.addr, Word.ofNat (e.addr / 2 ^ 32), Word.ofNat e.d0,
      Word.ofNat e.d1, Word.ofNat e.d2, Word.ofNat e.d3, Word.ofNat n, Word.ofNat (min s.phaseNs 0xFFFF), 0, 0]) ∧
  (∀ (s : State) (e : Ev), e.code / 16 ≠ 1 → e.code < 256 →
    (s.raise e).err.log = mapSet s.err.log (s.err.seq % 1024) (s.recordWords e 0) ∧
    (s.raise e).err.seq = s.err.seq + 1 ∧ (s.raise e).err.supp = s.err.supp ∧
    (s.raise e).reg Reg.ERR_PEND = s.reg Reg.ERR_PEND ||| Word.ofNat (2 ^ (e.code / 16))) ∧
  (∀ (s : State) (e : Ev) (at_ n : Nat), e.code / 16 = 1 →
    s.err.supp.find? (fun x => x.1 == e.code && x.2.1 == e.kind && x.2.2.1 == e.unit) =
      some (e.code, e.kind, e.unit, at_, n) →
    (s.now < at_ + 1000000 → s.raise e = State.bump { s with err := { s.err with
      supp := s.err.supp.filter (fun x => !(x.1 == e.code && x.2.1 == e.kind && x.2.2.1 == e.unit)) ++
        [(e.code, e.kind, e.unit, at_, n + 1)] } } Reg.ERR_SUPPRESS_CNT 1) ∧
    (at_ + 1000000 ≤ s.now → (s.raise e).err.log = mapSet s.err.log (s.err.seq % 1024) (s.recordWords e n) ∧
      (s.raise e).err.seq = s.err.seq + 1))

/-- In a state whose memory has its canonical form, reading the range that has just been stored gives the bytes
stored, every byte outside it reads as before, the memory keeps its canonical form, and nothing but memory changes.
What a byte that nothing has written reads as is the model's choice (log 8). -/
def Obligations.StairwellBytes : Prop :=
  ∀ (s : State) (off : Nat) (bs : List Byte), Memory.wf s.stw.mem = true →
    (s.memStore off bs).memBytes off bs.length = bs ∧
    (∀ a, a < off ∨ off + bs.length ≤ a → cellGet (s.memStore off bs).stw.mem a = cellGet s.stw.mem a) ∧
    Memory.wf (s.memStore off bs).stw.mem = true ∧
    ∃ m, s.memStore off bs = { s with stw := { s.stw with mem := m } }

/-- After reset every register reads the value its field table gives; the engine stands alone at landing 0 with
flights of 50 reference cycles; the profile in force is CABINET; no ring, table, grant, held tile, cached line,
translation or waiting kite exists, tenant 0 alone is valid with SHARE 1, the row cache is being invalidated, the
ports are dark, galleries 0 to 15 and no others are enabled, the error log is empty, and no command waits. That every
domain is then out of reset, and the values the tables do not give, are the model's choices (logs 2, 3). -/
def Obligations.ResetState : Prop :=
  (∀ k, State.reset.reg k = regReset k) ∧ State.reset.hall.sync = .standalone ∧ State.reset.hall.landing = 0 ∧
  State.reset.hall.len = 50 ∧ State.reset.active = 2 ∧ State.reset.conc.cmd = [] ∧ State.reset.conc.cpl = [] ∧
  State.reset.conc.items = [] ∧ State.reset.dir.tables = [] ∧ State.reset.dir.grants = [] ∧ State.reset.tiles = [] ∧
  State.reset.rc.lines = [] ∧ State.reset.rc.init = true ∧ State.reset.xlt.tlb = [] ∧ State.reset.kite.tethers = [] ∧
  (State.reset.tenant 0).valid = true ∧ (State.reset.tenant 0).share = 1 ∧
  (∀ t, t ≠ 0 → (State.reset.tenant t).valid = false) ∧ (∀ p ∈ State.reset.zp.ports, p.lit = false) ∧
  (∀ g, (State.reset.gal g).enabled = decide (g < 16)) ∧ State.reset.err.log = [] ∧ State.reset.pending = []

/-- The state after reset has memory in its canonical form, the units that the part is built with, and no persistent
word past its write limit. -/
def Obligations.SaneReset : Prop :=
  Sane State.reset

/-- For every command c and state s, a step of s with c at the front of its queue is exec of c on s with the queue's
rest. The queue is the model's own form. -/
def Obligations.StepRunsFront : Prop :=
  ∀ (c : Instr) (s : State) (rest : List Instr), s.pending = c :: rest → step s = exec c { s with pending := rest }

/-- With no command waiting a step answers a next state that differs in the engine's own count of time alone, which is
10 ns on, one reference cycle. That time passes so is the model's choice (log 1). -/
def Obligations.IdleStep : Prop :=
  ∀ (s : State), s.pending = [] → step s = .next { s with now := s.now + 10 }

/-- Whatever command runs in whatever state, when exec answers a next state the engine's time there is no earlier and
the queue of waiting commands is the one from before. Both are the model's own form (log 1). -/
def Obligations.TimeAndQueue : Prop :=
  ∀ (c : Instr) (s t : State), exec c s = .next t → s.now ≤ t.now ∧ t.pending = s.pending

/-- From every state with memory in its canonical form, the columns, galleries, copy channels, ports and pins that the
part is built with, and no persistent word written more than 1,000,000 times, every step that answers a next state
answers one of the same kind. -/
def Obligations.StepKeepsSane : Prop :=
  ∀ (s t : State), Sane s → step s = .next t → Sane t

/-- None of the 145 other commands - packets, control opcodes, kites, links, memory, the row cache, copies,
translation, faults - changes the profile in force, the register latches and held halves, the hall's time and flight
length, the reset sequence, presence, the backup domain or the lane's waiting reads, in any sane state. -/
def Obligations.ServingFrame : Prop :=
  ∀ (c : Instr) (s t : State), serves c = true → Sane s → exec c s = .next t →
    t.active = s.active ∧ t.latch = s.latch ∧ t.heldLo = s.heldLo ∧ t.hall = s.hall ∧ t.rst = s.rst ∧
      t.pres = s.pres ∧ t.bk = s.bk ∧ t.laneReqs = s.laneReqs

end
end

