-- ==== Sys2Proof/Laws/Memory.lean ====
section
/-! SUPPORT. Laws of the sparse maps and of stairwell memory: a read after a store gives the bytes stored, a store leaves
every other byte alone, and every store keeps the canonical form. -/
namespace Sys2Proof.Laws

open Sys2Proof.Machine

/-- Every key of a map is above a number: the map may follow that key. -/
def above {α : Type} (a : Nat) : SMap α → Prop
  | [] => True
  | (c, _) :: _ => a < c

theorem above_of_lt {α : Type} {a b : Nat} {m : SMap α} (h : above b m) (hab : a < b) : above a m := by
  cases m with
  | nil => trivial
  | cons x r => exact Nat.lt_trans hab h

/-- The canonical form, entry by entry. -/
theorem Memory.wf_cons {a : Nat} {b : Byte} {m : List Host.Cell} :
    Memory.wf ((a, b) :: m) = true ↔ b ≠ memDefault ∧ above a m ∧ Memory.wf m = true := by
  cases m with
  | nil => simp [Memory.wf, above]
  | cons x r =>
    obtain ⟨c, d⟩ := x
    simp [Memory.wf, above, and_assoc]

theorem above_mapDel {α : Type} {a : Nat} {m : SMap α} (h : above a m)
    (hr : ∀ c d r, m = (c, d) :: r → above c r) (k : Nat) : above a (mapDel m k) := by
  cases m with
  | nil => exact h
  | cons x r =>
    obtain ⟨c, d⟩ := x
    unfold mapDel
    split
    · exact above_of_lt (hr c d r rfl) h
    · exact h

theorem above_mapSet {α : Type} {a k : Nat} {v : α} {m : SMap α} (h : above a m) (hk : a < k) :
    above a (mapSet m k v) := by
  cases m with
  | nil => exact hk
  | cons x r =>
    obtain ⟨c, d⟩ := x
    unfold mapSet
    split
    · exact hk
    · split
      · exact hk
      · exact h

/-- Removing an entry keeps the canonical form. -/
theorem wf_mapDel {m : List Host.Cell} (h : Memory.wf m = true) (k : Nat) : Memory.wf (mapDel m k) = true := by
  induction m with
  | nil => exact h
  | cons x r ih =>
    obtain ⟨c, d⟩ := x
    obtain ⟨hd, ha, hr⟩ := Memory.wf_cons.1 h
    unfold mapDel
    split
    · exact hr
    · refine Memory.wf_cons.2 ⟨hd, above_mapDel ha ?_ k, ih hr⟩
      rintro c' d' r' rfl
      exact (Memory.wf_cons.1 hr).2.1

/-- Setting an entry to a byte other than the default keeps the canonical form. -/
theorem wf_mapSet {m : List Host.Cell} (h : Memory.wf m = true) (k : Nat) {v : Byte} (hv : v ≠ memDefault) :
    Memory.wf (mapSet m k v) = true := by
  induction m with
  | nil => exact Memory.wf_cons.2 ⟨hv, trivial, rfl⟩
  | cons x r ih =>
    obtain ⟨c, d⟩ := x
    obtain ⟨hd, ha, hr⟩ := Memory.wf_cons.1 h
    unfold mapSet
    split
    · exact Memory.wf_cons.2 ⟨hv, by assumption, h⟩
    · split
      · rename_i e
        subst e
        exact Memory.wf_cons.2 ⟨hv, ha, hr⟩
      · exact Memory.wf_cons.2 ⟨hd, above_mapSet ha (by omega), ih hr⟩

/-- Storing a byte keeps the canonical form. -/
theorem wf_cellPut {m : List Host.Cell} (h : Memory.wf m = true) (a : Nat) (b : Byte) :
    Memory.wf (cellPut m a b) = true := by
  unfold cellPut
  split
  · exact wf_mapDel h a
  · exact wf_mapSet h a (by assumption)

/-- Storing bytes keeps the canonical form. -/
theorem wf_cellsPut {m : List Host.Cell} (h : Memory.wf m = true) (a : Nat) (bs : List Byte) :
    Memory.wf (cellsPut m a bs) = true := by
  induction bs generalizing m a with
  | nil => exact h
  | cons b r ih => exact ih (wf_cellPut h a b) (a + 1)

/-- Dropping every entry that fails a test keeps the canonical form. -/
theorem wf_filter {m : List Host.Cell} (h : Memory.wf m = true) (p : Host.Cell → Bool) :
    Memory.wf (m.filter p) = true := by
  induction m with
  | nil => exact h
  | cons x r ih =>
    obtain ⟨c, d⟩ := x
    obtain ⟨hd, ha, hr⟩ := Memory.wf_cons.1 h
    rw [List.filter_cons]
    split
    · refine Memory.wf_cons.2 ⟨hd, ?_, ih hr⟩
      have : ∀ (l : List Host.Cell) (n : Nat), above n l → Memory.wf l = true → above n (l.filter p) := by
        intro l
        induction l with
        | nil => intro n h _; exact h
        | cons y q ihq =>
          intro n hn hw
          obtain ⟨e, f⟩ := y
          obtain ⟨_, ha', hw'⟩ := Memory.wf_cons.1 hw
          rw [List.filter_cons]
          split
          · exact hn
          · exact ihq n (above_of_lt ha' hn) hw'
      exact this r c ha hr
    · exact ih hr

theorem mapGet_mapSet_self {α : Type} (m : SMap α) (k : Nat) (v : α) : mapGet (mapSet m k v) k = some v := by
  induction m with
  | nil => simp [mapSet, mapGet]
  | cons x r ih =>
    obtain ⟨c, d⟩ := x
    unfold mapSet
    split
    · simp [mapGet]
    · split
      · simp [mapGet]
      · simp only [mapGet, ih]
        split <;> simp_all

theorem mapGet_mapSet_ne {α : Type} (m : SMap α) {k j : Nat} (v : α) (h : j ≠ k) :
    mapGet (mapSet m k v) j = mapGet m j := by
  induction m with
  | nil => simp [mapSet, mapGet]; omega
  | cons x r ih =>
    obtain ⟨c, d⟩ := x
    unfold mapSet
    split
    · simp only [mapGet]
      split
      · omega
      · rfl
    · split
      · rename_i e
        subst e
        simp only [mapGet]
        split
        · omega
        · rfl
      · simp only [mapGet, ih]

theorem mapGet_mapDel_ne {α : Type} (m : SMap α) {k j : Nat} (h : j ≠ k) : mapGet (mapDel m k) j = mapGet m j := by
  induction m with
  | nil => rfl
  | cons x r ih =>
    obtain ⟨c, d⟩ := x
    unfold mapDel
    split
    · simp only [mapGet]
      split
      · omega
      · rfl
    · simp only [mapGet, ih]

theorem mapGet_above {m : List Host.Cell} {a k : Nat} (h : above a m) (hw : Memory.wf m = true) (hk : k ≤ a) :
    mapGet m k = none := by
  induction m generalizing a with
  | nil => rfl
  | cons x r ih =>
    obtain ⟨c, d⟩ := x
    have hc : a < c := h
    simp only [mapGet]
    split
    · omega
    · exact ih (Memory.wf_cons.1 hw).2.1 (Memory.wf_cons.1 hw).2.2 (by omega)

theorem mapGet_mapDel_self {m : List Host.Cell} (hw : Memory.wf m = true) (k : Nat) : mapGet (mapDel m k) k = none := by
  induction m with
  | nil => rfl
  | cons x r ih =>
    obtain ⟨c, d⟩ := x
    obtain ⟨_, ha, hr⟩ := Memory.wf_cons.1 hw
    unfold mapDel
    split
    · rename_i e
      subst e
      exact mapGet_above ha hr (Nat.le_refl _)
    · rename_i e
      simp only [mapGet, e, if_false]
      exact ih hr

/-- A read of a stored byte gives it. -/
theorem cellGet_cellPut_self {m : List Host.Cell} (hw : Memory.wf m = true) (a : Nat) (b : Byte) :
    cellGet (cellPut m a b) a = b := by
  unfold cellGet cellPut
  split
  · rename_i e
    rw [mapGet_mapDel_self hw, e]; rfl
  · rw [mapGet_mapSet_self]; rfl

/-- A store leaves every other byte alone. -/
theorem cellGet_cellPut_ne (m : List Host.Cell) {a c : Nat} (b : Byte) (h : c ≠ a) :
    cellGet (cellPut m a b) c = cellGet m c := by
  unfold cellGet cellPut
  split
  · rw [mapGet_mapDel_ne m h]
  · rw [mapGet_mapSet_ne m b h]

/-- Stored bytes leave every byte outside them alone. -/
theorem cellGet_cellsPut_out (m : List Host.Cell) (a : Nat) (bs : List Byte) {c : Nat}
    (h : c < a ∨ a + bs.length ≤ c) : cellGet (cellsPut m a bs) c = cellGet m c := by
  induction bs generalizing m a with
  | nil => rfl
  | cons b r ih =>
    simp only [List.length_cons] at h
    unfold cellsPut
    rw [ih (cellPut m a b) (a + 1) (by omega), cellGet_cellPut_ne m b (by omega)]

/-- A read of stored bytes gives them. -/
theorem cellGet_cellsPut_in {m : List Host.Cell} (hw : Memory.wf m = true) (a : Nat) (bs : List Byte) {i : Nat}
    (h : i < bs.length) : cellGet (cellsPut m a bs) (a + i) = bs[i] := by
  induction bs generalizing m a i with
  | nil => simp at h
  | cons b r ih =>
    cases i with
    | zero =>
      unfold cellsPut
      rw [cellGet_cellsPut_out _ _ _ (by omega), Nat.add_zero, cellGet_cellPut_self hw]; rfl
    | succ n =>
      unfold cellsPut
      have e : a + (n + 1) = (a + 1) + n := by omega
      rw [e, ih (wf_cellPut hw a b) (a + 1) (by simpa using h)]; rfl

end Sys2Proof.Laws
end

