-- ==== Sys2Proof/Laws/Keep.lean ====
section
/-! SUPPORT. What an operation keeps: the parts that the invariant speaks of stay `Sound`, and a base state's parts that
serving leaves alone stay as they were. The lemmas here say how such facts pass through a definition's shapes. -/
namespace Sys2Proof.Laws

set_option linter.unusedSimpArgs false
set_option linter.unusedTactic false
set_option linter.unreachableTactic false

open Sys2Proof Sys2Proof.Machine Sys2Proof.Config Sys2Proof.Safety

/-- The parts of a state that the invariant speaks of are `Sound`, and the parts that serving work leaves alone are those
of a base state: the profile in force, the latches of R6 and R7, hall time, the reset controller, presence and the seal,
the backup domain, and the lane reads not yet answered. -/
def HeldParts (b : State) (stw : Stw) (gals : List Gal) (cpy : List Chan) (zp : Zp) (pins : List Pin) (ps : Ps)
    (active : Nat) (latch heldLo : SMap Word) (hall : Hall) (rst : Rst) (pres : Pres) (bk : Bk)
    (laneReqs : List (Nat × Nat)) : Prop :=
  Sound stw gals cpy zp pins ps ∧ active = b.active ∧ latch = b.latch ∧ heldLo = b.heldLo ∧ hall = b.hall ∧
    rst = b.rst ∧ pres = b.pres ∧ bk = b.bk ∧ laneReqs = b.laneReqs

/-- The parts of a state, against a base state. -/
def Held (b s : State) : Prop :=
  HeldParts b s.stw s.gals s.cpy s.zp s.pins s.ps s.active s.latch s.heldLo s.hall s.rst s.pres s.bk s.laneReqs

theorem Held.self {s : State} (h : Sane s) : Held s s := ⟨h, rfl, rfl, rfl, rfl, rfl, rfl, rfl, rfl⟩

theorem Held.sane {b s : State} (h : Held b s) : Sane s := h.1

theorem Held.trans {a b s : State} (h : Held a b) (k : Held b s) : Held a s :=
  ⟨k.1, k.2.1.trans h.2.1, k.2.2.1.trans h.2.2.1, k.2.2.2.1.trans h.2.2.2.1, k.2.2.2.2.1.trans h.2.2.2.2.1,
    k.2.2.2.2.2.1.trans h.2.2.2.2.2.1, k.2.2.2.2.2.2.1.trans h.2.2.2.2.2.2.1,
    k.2.2.2.2.2.2.2.1.trans h.2.2.2.2.2.2.2.1, k.2.2.2.2.2.2.2.2.trans h.2.2.2.2.2.2.2.2⟩

/-- The invariant, once a state is written out. -/
theorem Sane_mk {now active regs latch heldLo hall flt conc dir gals tiles rc stw kite zp xlt cpy rst pins pres bk ps boot
    selftest err laneReqs outs freeSeq pending} :
    Sane (State.mk now active regs latch heldLo hall flt conc dir gals tiles rc stw kite zp xlt cpy rst pins pres bk ps
      boot selftest err laneReqs outs freeSeq pending) = Sound stw gals cpy zp pins ps := rfl

theorem Held_mk {b : State} {now active regs latch heldLo hall flt conc dir gals tiles rc stw kite zp xlt cpy rst pins
    pres bk ps boot selftest err laneReqs outs freeSeq pending} :
    Held b (State.mk now active regs latch heldLo hall flt conc dir gals tiles rc stw kite zp xlt cpy rst pins pres bk ps
      boot selftest err laneReqs outs freeSeq pending) =
    HeldParts b stw gals cpy zp pins ps active latch heldLo hall rst pres bk laneReqs := rfl

theorem Sound_of {s : State} (h : Sane s) : Sound s.stw s.gals s.cpy s.zp s.pins s.ps := h

theorem Held_of {b s : State} (h : Held b s) :
    HeldParts b s.stw s.gals s.cpy s.zp s.pins s.ps s.active s.latch s.heldLo s.hall s.rst s.pres s.bk s.laneReqs := h

theorem Sane_ite {c : Prop} [Decidable c] {a b : State} (ha : Sane a) (hb : Sane b) : Sane (if c then a else b) := by
  split <;> assumption

theorem Held_ite {z : State} {c : Prop} [Decidable c] {a b : State} (ha : Held z a) (hb : Held z b) :
    Held z (if c then a else b) := by
  split <;> assumption

theorem Sane_ite1 {α : Type} {c : Prop} [Decidable c] {a b : State × α} (ha : Sane a.1) (hb : Sane b.1) :
    Sane (if c then a else b).1 := by
  split <;> assumption

theorem Held_ite1 {z : State} {α : Type} {c : Prop} [Decidable c] {a b : State × α} (ha : Held z a.1) (hb : Held z b.1) :
    Held z (if c then a else b).1 := by
  split <;> assumption

theorem Sane_foldl {α : Type} {f : State → α → State} {l : List α} {s : State} (hf : ∀ z x, Sane z → Sane (f z x))
    (h : Sane s) : Sane (l.foldl f s) := by
  induction l generalizing s with
  | nil => exact h
  | cons x r ih => exact ih (hf s x h)

theorem Held_foldl {b : State} {α : Type} {f : State → α → State} {l : List α} {s : State}
    (hf : ∀ z x, Held b z → Held b (f z x)) (h : Held b s) : Held b (l.foldl f s) := by
  induction l generalizing s with
  | nil => exact h
  | cons x r ih => exact ih (hf s x h)

theorem Sane_foldl1 {α β : Type} {f : State × β → α → State × β} {l : List α} {s : State × β}
    (hf : ∀ z x, Sane z.1 → Sane (f z x).1) (h : Sane s.1) : Sane (l.foldl f s).1 := by
  induction l generalizing s with
  | nil => exact h
  | cons x r ih => exact ih (hf s x h)

theorem Held_foldl1 {b : State} {α β : Type} {f : State × β → α → State × β} {l : List α} {s : State × β}
    (hf : ∀ z x, Held b z.1 → Held b (f z x).1) (h : Held b s.1) : Held b (l.foldl f s).1 := by
  induction l generalizing s with
  | nil => exact h
  | cons x r ih => exact ih (hf s x h)

theorem Sane_fst {α : Type} {x : State × α} {z : State} {y : α} (e : x = (z, y)) (h : Sane x.1) : Sane z := by
  rw [e] at h; exact h

theorem Held_fst {b : State} {α : Type} {x : State × α} {z : State} {y : α} (e : x = (z, y)) (h : Held b x.1) :
    Held b z := by
  rw [e] at h; exact h

theorem length_updAt {α : Type} (l : List α) (i : Nat) (f : α → α) : (updAt l i f).length = l.length := by
  induction l generalizing i with
  | nil => rfl
  | cons x r ih => cases i with
    | zero => rfl
    | succ n => simp [updAt, ih]

theorem length_upto (a n : Nat) : (upto a n).length = n := by
  induction n generalizing a with
  | zero => rfl
  | succ k ih => simp [upto, ih]

/-! ### One part of a sound state changed -/

theorem Sound_gals {stw gals cpy zp pins ps} {g : List Gal} (h : Sound stw gals cpy zp pins ps)
    (e : g.length = gals.length) : Sound stw g cpy zp pins ps :=
  ⟨h.1, h.2.1, e.trans h.2.2.1, h.2.2.2⟩

theorem Sound_cpy {stw gals cpy zp pins ps} {g : List Chan} (h : Sound stw gals cpy zp pins ps)
    (e : g.length = cpy.length) : Sound stw gals g zp pins ps :=
  ⟨h.1, h.2.1, h.2.2.1, e.trans h.2.2.2.1, h.2.2.2.2⟩

theorem Sound_zp {stw gals cpy zp pins ps} {g : Zp} (h : Sound stw gals cpy zp pins ps)
    (e : g.ports.length = zp.ports.length) : Sound stw gals cpy g pins ps :=
  ⟨h.1, h.2.1, h.2.2.1, h.2.2.2.1, e.trans h.2.2.2.2.1, h.2.2.2.2.2⟩

theorem Sound_pins {stw gals cpy zp pins ps} {g : List Pin} (h : Sound stw gals cpy zp pins ps)
    (e : g.length = pins.length) : Sound stw gals cpy zp g ps :=
  ⟨h.1, h.2.1, h.2.2.1, h.2.2.2.1, h.2.2.2.2.1, e.trans h.2.2.2.2.2.1, h.2.2.2.2.2.2⟩

theorem Sound_ps {stw gals cpy zp pins ps} {g : Ps} (h : Sound stw gals cpy zp pins ps)
    (e : g.counts = ps.counts) : Sound stw gals cpy zp pins g :=
  ⟨h.1, h.2.1, h.2.2.1, h.2.2.2.1, h.2.2.2.2.1, h.2.2.2.2.2.1, e ▸ h.2.2.2.2.2.2⟩

theorem Sound_stw {stw gals cpy zp pins ps} {g : Stw} (h : Sound stw gals cpy zp pins ps)
    (e : g.mem = stw.mem) (k : g.cols.length = stw.cols.length) : Sound g gals cpy zp pins ps :=
  ⟨e ▸ h.1, k.trans h.2.1, h.2.2⟩

theorem Sound_mem {m p c gals cpy zp pins ps} {q a b} (h : Sound ⟨m, p, c⟩ gals cpy zp pins ps) :
    Sound ⟨cellsPut m a b, q, c⟩ gals cpy zp pins ps :=
  ⟨wf_cellsPut h.1 a b, h.2⟩

theorem Sound_filter {m p c gals cpy zp pins ps} {q f} (h : Sound ⟨m, p, c⟩ gals cpy zp pins ps) :
    Sound ⟨m.filter f, q, c⟩ gals cpy zp pins ps :=
  ⟨wf_filter h.1 f, h.2⟩

theorem Sound_eta {stw gals cpy zp pins ps} (h : Sound stw gals cpy zp pins ps) :
    Sound ⟨stw.mem, stw.poison, stw.cols⟩ gals cpy zp pins ps := h

section
variable {b : State} {stw : Stw} {gals : List Gal} {cpy : List Chan} {zp : Zp} {pins : List Pin} {ps : Ps} {ac : Nat}
  {la he : SMap Word} {ha : Hall} {rs : Rst} {pr : Pres} {bk : Bk} {lr : List (Nat × Nat)}

theorem Held_gals {g : List Gal} (h : HeldParts b stw gals cpy zp pins ps ac la he ha rs pr bk lr)
    (e : g.length = gals.length) : HeldParts b stw g cpy zp pins ps ac la he ha rs pr bk lr := ⟨Sound_gals h.1 e, h.2⟩

theorem Held_cpy {g : List Chan} (h : HeldParts b stw gals cpy zp pins ps ac la he ha rs pr bk lr)
    (e : g.length = cpy.length) : HeldParts b stw gals g zp pins ps ac la he ha rs pr bk lr := ⟨Sound_cpy h.1 e, h.2⟩

theorem Held_zp {g : Zp} (h : HeldParts b stw gals cpy zp pins ps ac la he ha rs pr bk lr)
    (e : g.ports.length = zp.ports.length) : HeldParts b stw gals cpy g pins ps ac la he ha rs pr bk lr :=
  ⟨Sound_zp h.1 e, h.2⟩

theorem Held_pins {g : List Pin} (h : HeldParts b stw gals cpy zp pins ps ac la he ha rs pr bk lr)
    (e : g.length = pins.length) : HeldParts b stw gals cpy zp g ps ac la he ha rs pr bk lr := ⟨Sound_pins h.1 e, h.2⟩

theorem Held_ps {g : Ps} (h : HeldParts b stw gals cpy zp pins ps ac la he ha rs pr bk lr)
    (e : g.counts = ps.counts) : HeldParts b stw gals cpy zp pins g ac la he ha rs pr bk lr := ⟨Sound_ps h.1 e, h.2⟩

theorem Held_stw {g : Stw} (h : HeldParts b stw gals cpy zp pins ps ac la he ha rs pr bk lr)
    (e : g.mem = stw.mem) (k : g.cols.length = stw.cols.length) :
    HeldParts b g gals cpy zp pins ps ac la he ha rs pr bk lr := ⟨Sound_stw h.1 e k, h.2⟩

theorem Held_mem {m p c q a d} (h : HeldParts b ⟨m, p, c⟩ gals cpy zp pins ps ac la he ha rs pr bk lr) :
    HeldParts b ⟨cellsPut m a d, q, c⟩ gals cpy zp pins ps ac la he ha rs pr bk lr := ⟨Sound_mem h.1, h.2⟩

theorem Held_filter {m p c q f} (h : HeldParts b ⟨m, p, c⟩ gals cpy zp pins ps ac la he ha rs pr bk lr) :
    HeldParts b ⟨m.filter f, q, c⟩ gals cpy zp pins ps ac la he ha rs pr bk lr := ⟨Sound_filter h.1, h.2⟩

theorem Held_eta (h : HeldParts b stw gals cpy zp pins ps ac la he ha rs pr bk lr) :
    HeldParts b ⟨stw.mem, stw.poison, stw.cols⟩ gals cpy zp pins ps ac la he ha rs pr bk lr := h

end

/-- The invariant of a state that there may be. -/
def SaneO (o : Option State) : Prop := ∀ t, o = some t → Sane t

theorem SaneO_none : SaneO none := fun _ e => by cases e

theorem SaneO_some {s : State} (h : Sane s) : SaneO (some s) := fun _ e => by cases e; exact h

theorem SaneO_ite {c : Prop} [Decidable c] {a b : Option State} (ha : SaneO a) (hb : SaneO b) :
    SaneO (if c then a else b) := by
  split <;> assumption

theorem SaneO_get {o : Option State} {t : State} (e : o = some t) (h : SaneO o) : Sane t := h t e

theorem Sane_id {s : State} (h : Sane s) : Sane s := h

theorem Held_id {b s : State} (h : Held b s) : Held b s := h

theorem keep_cut {p q : Prop} (hp : p) (h : p → q) : q := h hp

/-- A function that keeps the parts against every base keeps the invariant. -/
theorem Sane_by {s t : State} (k : Held s s → Held s t) (h : Sane s) : Sane t := (k (Held.self h)).sane

end Sys2Proof.Laws
end

