-- ==== Sys2Proof/Laws/KeepUnits.lean ====
section
/-! SUPPORT. What the operations of registers, errors, memory, the row cache, translation, budgets, records and kites
keep, one lemma each. -/
namespace Sys2Proof.Laws

set_option linter.unusedSimpArgs false
set_option linter.unusedTactic false
set_option linter.unreachableTactic false

open Sys2Proof Sys2Proof.Machine Sys2Proof.Config Sys2Proof.Safety

/-! ### Ops -/

theorem keep_State_setReg {b0 : State} {s : State} {key : Nat} {w : Word} (h : Held b0 s) :
    Held b0 (State.setReg s key w) := by
  unfold State.setReg
  repeat' with_reducible first
    | assumption | intro _ | apply Held_ite | apply Held_ite1 | (simp -zeta -beta -iota -proj only [Held_mk])
    | apply Held_of | split | (dsimp only)

theorem keep_State_bump {b0 : State} {s : State} {key n : Nat} (h : Held b0 s) :
    Held b0 (State.bump s key n) := by
  unfold State.bump
  repeat' with_reducible first
    | assumption | intro _ | apply keep_State_setReg | split | (dsimp only)

theorem keep_State_emit {b0 : State} {s : State} {o : Out} (h : Held b0 s) :
    Held b0 (State.emit s o) := by
  unfold State.emit
  repeat' with_reducible first
    | assumption | intro _ | (simp -zeta -beta -iota -proj only [Held_mk]) | apply Held_of | split | (dsimp only)

theorem keep_State_draw {b0 : State} {s : State} (h : Held b0 s) :
    Held b0 (State.draw s) := by
  unfold State.draw
  repeat' with_reducible first
    | assumption | intro _ | (simp -zeta -beta -iota -proj only [Held_mk]) | apply Held_of | split | (dsimp only)

theorem keep_State_modGal {b0 : State} {s : State} {n : Nat} {f : Gal → Gal} (h : Held b0 s) :
    Held b0 (State.modGal s n f) := by
  unfold State.modGal
  repeat' with_reducible first
    | assumption | intro _ | (simp -zeta -beta -iota -proj only [Held_mk])
    | refine Held_gals (Held_of ?_) (by simp [length_updAt]; done) | apply Held_of | split | (dsimp only)

theorem keep_State_modCol {b0 : State} {s : State} {k : Nat} {f : Col → Col} (h : Held b0 s) :
    Held b0 (State.modCol s k f) := by
  unfold State.modCol
  repeat' with_reducible first
    | assumption | intro _ | (simp -zeta -beta -iota -proj only [Held_mk])
    | refine Held_stw (Held_of ?_) rfl (by simp [length_updAt]; done) | refine Held_mem (Held_eta (Held_of ?_))
    | apply Held_of | split | (dsimp only)

theorem keep_State_hostRecord {b0 : State} {s : State} {cls : Nat} {ws : List Word} (h : Held b0 s) :
    Held b0 (State.hostRecord s cls ws) := by
  unfold State.hostRecord
  repeat' with_reducible first
    | assumption | intro _ | apply keep_State_emit | apply keep_State_bump | apply Held_ite | apply Held_ite1
    | (apply Held_id; extract_lets -underBinder +onlyGivenNames y; first | (refine keep_cut (p := Held b0 y) ?_ fun _ => ?_; unfold y; clear y; rotate_left; clear_value y) | clear_value y)
    | split | (dsimp only)

theorem keep_State_putRecord {b0 : State} {s : State} {e : Ev} {suppressed : Nat} (h : Held b0 s) :
    Held b0 (State.putRecord s e suppressed) := by
  unfold State.putRecord
  repeat' with_reducible first
    | assumption | intro _ | apply keep_State_hostRecord | apply keep_State_bump | apply keep_State_setReg
    | apply Held_ite | apply Held_ite1 | (simp -zeta -beta -iota -proj only [Held_mk])
    | (apply Held_id; extract_lets -underBinder +onlyGivenNames y; first | (refine keep_cut (p := Held b0 y) ?_ fun _ => ?_; unfold y; clear y; rotate_left; clear_value y) | clear_value y)
    | apply Held_of | split | (dsimp only)

theorem keep_State_raise {b0 : State} {s : State} {e : Ev} (h : Held b0 s) :
    Held b0 (State.raise s e) := by
  unfold State.raise
  repeat' with_reducible first
    | assumption | intro _ | apply keep_State_putRecord | apply keep_State_bump | apply Held_ite | apply Held_ite1
    | (simp -zeta -beta -iota -proj only [Held_mk])
    | (apply Held_id; extract_lets -underBinder +onlyGivenNames y; first | (refine keep_cut (p := Held b0 y) ?_ fun _ => ?_; unfold y; clear y; rotate_left; clear_value y) | clear_value y)
    | apply Held_of | split | (dsimp only)

theorem keep_State_memStore {b0 : State} {s : State} {off : Nat} {bs : List Byte} (h : Held b0 s) :
    Held b0 (State.memStore s off bs) := by
  unfold State.memStore
  repeat' with_reducible first
    | assumption | intro _ | (simp -zeta -beta -iota -proj only [Held_mk])
    | refine Held_stw (Held_of ?_) rfl (by simp [length_updAt]; done) | refine Held_mem (Held_eta (Held_of ?_))
    | apply Held_of | split | (dsimp only)

theorem keep_State_due {b0 : State} {s : State} {t : Nat} (h : Held b0 s) :
    Held b0 (State.due s t) := by
  unfold State.due
  repeat' with_reducible first
    | assumption | intro _ | (simp -zeta -beta -iota -proj only [Held_mk]) | apply Held_of | split | (dsimp only)

/-! ### Persist -/

theorem counts_mapSet {m : SMap Nat} {k n : Nat} (h : ∀ x ∈ m, x.2 ≤ psLimit) (hn : n ≤ psLimit) :
    ∀ x ∈ mapSet m k n, x.2 ≤ psLimit := by
  induction m with
  | nil => simpa [mapSet] using hn
  | cons y r ih =>
    obtain ⟨a, b⟩ := y
    simp only [List.mem_cons, forall_eq_or_imp] at h
    unfold mapSet
    split
    · simp only [List.mem_cons, forall_eq_or_imp]; exact ⟨hn, h.1, h.2⟩
    · split
      · simp only [List.mem_cons, forall_eq_or_imp]; exact ⟨hn, h.2⟩
      · simp only [List.mem_cons, forall_eq_or_imp]; exact ⟨h.1, ih h.2⟩

theorem counts_mapDel {m : SMap Nat} {k : Nat} (h : ∀ x ∈ m, x.2 ≤ psLimit) : ∀ x ∈ mapDel m k, x.2 ≤ psLimit := by
  induction m with
  | nil => exact h
  | cons y r ih =>
    obtain ⟨a, b⟩ := y
    simp only [List.mem_cons, forall_eq_or_imp] at h
    unfold mapDel
    split
    · exact h.2
    · simp only [List.mem_cons, forall_eq_or_imp]; exact ⟨h.1, ih h.2⟩

/-- Counts at most the limit stay so when one is put at most the limit. -/
theorem counts_mapPut {m : SMap Nat} {k n : Nat} (h : ∀ x ∈ m, x.2 ≤ psLimit) (hn : n ≤ psLimit) :
    ∀ x ∈ mapPut m k n, x.2 ≤ psLimit := by
  unfold mapPut
  split
  · exact counts_mapDel h
  · exact counts_mapSet h hn

theorem Held_counts {b0 s : State} (h : Held b0 s) : ∀ x ∈ s.ps.counts, x.2 ≤ psLimit := h.1.2.2.2.2.2.2

theorem keep_State_modPs {b0 s : State} {f : Ps → Ps} (h : Held b0 s) (e : (f s.ps).counts = s.ps.counts) :
    Held b0 (s.modPs f) := Held_ps h e

theorem sane_State_modPs {s : State} {f : Ps → Ps} (h : Sane s) (e : (f s.ps).counts = s.ps.counts) :
    Sane (s.modPs f) := Sound_ps h e

theorem keep_modPs_le {b0 s : State} {f : Ps → Ps} (h : Held b0 s) (e : ∀ x ∈ (f s.ps).counts, x.2 ≤ psLimit) :
    Held b0 (s.modPs f) :=
  ⟨⟨h.1.1, h.1.2.1, h.1.2.2.1, h.1.2.2.2.1, h.1.2.2.2.2.1, h.1.2.2.2.2.2.1, e⟩, h.2⟩

theorem keep_State_psPut {b0 : State} {s : State} {w : Nat} {v : Word} {engine : Bool} (h : Held b0 s) :
    Held b0 (State.psPut s w v engine) := by
  unfold State.psPut
  repeat' with_reducible first
    | assumption | intro _ | apply keep_State_modPs | rfl
    | (apply Held_id; extract_lets -underBinder +onlyGivenNames y; first | (refine keep_cut (p := Held b0 y) ?_ fun _ => ?_; unfold y; clear y; rotate_left; clear_value y) | clear_value y)
    | split | (dsimp only)

theorem keep_State_psDone {b0 s : State} (h : Held b0 s) : Held b0 (State.psDone s) := by
  unfold State.psDone
  split
  · exact h
  · exact keep_modPs_le h (counts_mapPut (Held_counts h) (Nat.min_le_left _ _))

theorem keep_State_psRegister {b0 : State} {s : State} {w : Nat} {v : Word} (h : Held b0 s) :
    Held b0 (State.psRegister s w v).1 := by
  unfold State.psRegister
  repeat' with_reducible first
    | assumption | intro _ | apply keep_State_psPut | apply keep_State_modPs | rfl | split | (dsimp only)

theorem keep_State_psEngine {b0 : State} {s : State} {v : Word} {kind unit : Nat} (h : Held b0 s) :
    Held b0 (State.psEngine s v kind unit) := by
  unfold State.psEngine
  repeat' with_reducible first
    | assumption | intro _ | apply keep_State_psPut | apply keep_State_raise | apply hf1 | apply hf2 | apply hf3
    | apply hf4 | apply hf5 | (simp -zeta -beta -iota -proj only [Held_mk])
    | (apply Held_id; extract_lets -underBinder +onlyGivenNames y; first | (refine keep_cut (p := Held b0 y) ?_ fun _ => ?_; unfold y; clear y; rotate_left; clear_value y) | (refine keep_cut (p := ∀ z, Held b0 z → Held b0 (y z)) ?_ fun hf1 => ?_; unfold y; clear y; rotate_left; clear_value y) | (refine keep_cut (p := ∀ z a, Held b0 z → Held b0 (y z a)) ?_ fun hf2 => ?_; unfold y; clear y; rotate_left; clear_value y) | (refine keep_cut (p := ∀ z a b, Held b0 z → Held b0 (y z a b)) ?_ fun hf3 => ?_; unfold y; clear y; rotate_left; clear_value y) | (refine keep_cut (p := ∀ a, Held b0 (y a)) ?_ fun hf4 => ?_; unfold y; clear y; rotate_left; clear_value y) | (refine keep_cut (p := ∀ a b, Held b0 (y a b)) ?_ fun hf5 => ?_; unfold y; clear y; rotate_left; clear_value y) | clear_value y)
    | apply Held_of | split | (dsimp only)

theorem keep_State_setReplace {b0 : State} {s : State} (h : Held b0 s) :
    Held b0 (State.setReplace s) := by
  unfold State.setReplace
  repeat' with_reducible first
    | assumption | intro _ | apply keep_State_psEngine | apply keep_State_setReg
    | (apply Held_id; extract_lets -underBinder +onlyGivenNames y; first | (refine keep_cut (p := Held b0 y) ?_ fun _ => ?_; unfold y; clear y; rotate_left; clear_value y) | clear_value y)
    | split | (dsimp only)

/-! ### Operands -/

theorem keep_State_modTable {b0 : State} {s : State} {t : Nat} {f : Table → Table} (h : Held b0 s) :
    Held b0 (State.modTable s t f) := by
  unfold State.modTable
  repeat' with_reducible first
    | assumption | intro _ | (simp -zeta -beta -iota -proj only [Held_mk]) | apply Held_of | split | (dsimp only)

/-! ### RowCache -/

theorem keep_State_modRc {b0 : State} {s : State} {f : RCache → RCache} (h : Held b0 s) :
    Held b0 (State.modRc s f) := by
  unfold State.modRc
  repeat' with_reducible first
    | assumption | intro _ | (simp -zeta -beta -iota -proj only [Held_mk]) | apply Held_of | split | (dsimp only)

theorem keep_State_rcTouch {b0 : State} {s : State} {slice set way : Nat} (h : Held b0 s) :
    Held b0 (State.rcTouch s slice set way) := by
  unfold State.rcTouch
  repeat' with_reducible first
    | assumption | intro _ | apply keep_State_modRc
    | (apply Held_id; extract_lets -underBinder +onlyGivenNames y; first | (refine keep_cut (p := Held b0 y) ?_ fun _ => ?_; unfold y; clear y; rotate_left; clear_value y) | clear_value y)
    | split | (dsimp only)

theorem keep_State_rcLookup {b0 : State} {s : State} {cls : Nat} {t : Tag} (h : Held b0 s) :
    Held b0 (State.rcLookup s cls t).1 := by
  unfold State.rcLookup
  repeat' with_reducible first
    | assumption | intro _ | apply keep_State_rcTouch
    | (apply Held_id; extract_lets -underBinder +onlyGivenNames y; first | (refine keep_cut (p := Held b0 y) ?_ fun _ => ?_; unfold y; clear y; rotate_left; clear_value y) | clear_value y)
    | split | (dsimp only)

theorem keep_State_rcAlloc {b0 : State} {s : State} {cls q : Nat} {t : Tag} {data : List Byte} (h : Held b0 s) :
    Held b0 (State.rcAlloc s cls q t data) := by
  unfold State.rcAlloc
  repeat' with_reducible first
    | assumption | intro _ | apply keep_State_rcTouch | apply keep_State_modRc | apply keep_State_bump
    | apply Held_ite | apply Held_ite1
    | (apply Held_id; extract_lets -underBinder +onlyGivenNames y; first | (refine keep_cut (p := Held b0 y) ?_ fun _ => ?_; unfold y; clear y; rotate_left; clear_value y) | (refine keep_cut (p := Held b0 y.1) ?_ fun _ => ?_; unfold y; clear y; rotate_left; clear_value y) | clear_value y)
    | split | (dsimp only)

theorem keep_State_rcProbe1 {b0 : State} {s : State} {key salt off : Nat} {bs : List Byte} (h : Held b0 s) :
    Held b0 (State.rcProbe1 s key salt off bs) := by
  unfold State.rcProbe1
  repeat' with_reducible first
    | assumption | intro _ | apply keep_State_modRc | apply keep_State_bump | apply Held_ite | apply Held_ite1
    | (apply Held_id; extract_lets -underBinder +onlyGivenNames y; first | (refine keep_cut (p := Held b0 y) ?_ fun _ => ?_; unfold y; clear y; rotate_left; clear_value y) | clear_value y)
    | apply Held_foldl | apply Held_foldl1 | split | (dsimp only)

theorem keep_State_rcWithhold {b0 : State} {s : State} {p : Tag → Bool} (h : Held b0 s) :
    Held b0 (State.rcWithhold s p) := by
  unfold State.rcWithhold
  repeat' with_reducible first
    | assumption | intro _ | apply keep_State_modRc | apply Held_ite | apply Held_ite1 | split | (dsimp only)

theorem keep_State_rcWriteLine {b0 : State} {s : State} {line off : Nat} {bs : List Byte} (h : Held b0 s) :
    Held b0 (State.rcWriteLine s line off bs) := by
  unfold State.rcWriteLine
  repeat' with_reducible first
    | assumption | intro _ | apply keep_State_rcWithhold | apply keep_State_rcProbe1 | apply Held_ite
    | apply Held_ite1
    | (apply Held_id; extract_lets -underBinder +onlyGivenNames y; first | (refine keep_cut (p := Held b0 y) ?_ fun _ => ?_; unfold y; clear y; rotate_left; clear_value y) | clear_value y)
    | apply Held_foldl | apply Held_foldl1 | split | (dsimp only)

theorem keep_State_mntStart {b0 : State} {s : State} {m : Mnt} (h : Held b0 s) :
    Held b0 (State.mntStart s m) := by
  unfold State.mntStart
  repeat' with_reducible first
    | assumption | intro _ | apply keep_State_rcWithhold | apply keep_State_modRc
    | (apply Held_id; extract_lets -underBinder +onlyGivenNames y; first | (refine keep_cut (p := Held b0 y) ?_ fun _ => ?_; unfold y; clear y; rotate_left; clear_value y) | clear_value y)
    | split | (dsimp only)

theorem keep_State_mntQueue {b0 : State} {s : State} {op : MntOp} {engine head : Bool} (h : Held b0 s) :
    Held b0 (State.mntQueue s op engine head).1 := by
  unfold State.mntQueue
  repeat' with_reducible first
    | assumption | intro _ | apply keep_State_mntStart | apply keep_State_modRc | apply Held_ite | apply Held_ite1
    | (apply Held_id; extract_lets -underBinder +onlyGivenNames y; first | (refine keep_cut (p := Held b0 y) ?_ fun _ => ?_; unfold y; clear y; rotate_left; clear_value y) | clear_value y)
    | split | (dsimp only)

theorem keep_State_mntSoft {b0 : State} {s : State} {op : MntOp} (h : Held b0 s) :
    Held b0 (State.mntSoft s op) := by
  unfold State.mntSoft
  repeat' with_reducible first
    | assumption | intro _ | apply keep_State_mntQueue | apply keep_State_setReg | apply Held_ite | apply Held_ite1
    | split | (dsimp only)

theorem keep_State_sliceError {b0 : State} {s : State} {slice : Nat} (h : Held b0 s) :
    Held b0 (State.sliceError s slice) := by
  unfold State.sliceError
  repeat' with_reducible first
    | assumption | intro _ | apply keep_State_modRc | apply keep_State_raise | apply Held_ite | apply Held_ite1
    | (apply Held_id; extract_lets -underBinder +onlyGivenNames y; first | (refine keep_cut (p := Held b0 y) ?_ fun _ => ?_; unfold y; clear y; rotate_left; clear_value y) | clear_value y)
    | split | (dsimp only)

theorem keep_State_rcUe {b0 : State} {s : State} {cls : Nat} {t : Tag} (h : Held b0 s) :
    Held b0 (State.rcUe s cls t) := by
  unfold State.rcUe
  repeat' with_reducible first
    | assumption | intro _ | apply keep_State_sliceError | apply keep_State_modRc | apply keep_State_raise
    | apply keep_State_bump
    | (apply Held_id; extract_lets -underBinder +onlyGivenNames y; first | (refine keep_cut (p := Held b0 y) ?_ fun _ => ?_; unfold y; clear y; rotate_left; clear_value y) | (refine keep_cut (p := Held b0 y.1) ?_ fun _ => ?_; unfold y; clear y; rotate_left; clear_value y) | clear_value y)
    | split | (dsimp only)

theorem keep_State_rcTagParity {b0 : State} {s : State} {cls : Nat} {t : Tag} (h : Held b0 s) :
    Held b0 (State.rcTagParity s cls t) := by
  unfold State.rcTagParity
  repeat' with_reducible first
    | assumption | intro _ | apply keep_State_sliceError | apply keep_State_modRc | apply keep_State_raise
    | apply keep_State_bump
    | (apply Held_id; extract_lets -underBinder +onlyGivenNames y; first | (refine keep_cut (p := Held b0 y) ?_ fun _ => ?_; unfold y; clear y; rotate_left; clear_value y) | clear_value y)
    | split | (dsimp only)

theorem keep_State_pinRead {b0 : State} {s : State} {o n : Nat} (h : Held b0 s) :
    Held b0 (State.pinRead s o n).1 := by
  unfold State.pinRead
  repeat' with_reducible first
    | assumption | intro _ | apply keep_State_bump | apply Held_ite | apply Held_ite1
    | (apply Held_id; extract_lets -underBinder +onlyGivenNames y; first | (refine keep_cut (p := Held b0 y) ?_ fun _ => ?_; unfold y; clear y; rotate_left; clear_value y) | clear_value y)
    | split | (dsimp only)

theorem keep_State_pinWrite {b0 : State} {s : State} {o : Nat} {bs : List Byte} (h : Held b0 s) :
    Held b0 (State.pinWrite s o bs) := by
  unfold State.pinWrite
  repeat' with_reducible first
    | assumption | intro _ | apply keep_State_modRc | apply keep_State_bump | apply Held_ite | apply Held_ite1
    | (apply Held_id; extract_lets -underBinder +onlyGivenNames y; first | (refine keep_cut (p := Held b0 y) ?_ fun _ => ?_; unfold y; clear y; rotate_left; clear_value y) | clear_value y)
    | apply Held_foldl | apply Held_foldl1 | split | (dsimp only)

theorem keep_State_pinUe {b0 : State} {s : State} {o : Nat} (h : Held b0 s) :
    Held b0 (State.pinUe s o) := by
  unfold State.pinUe
  repeat' with_reducible first
    | assumption | intro _ | apply keep_State_modRc | apply keep_State_raise | apply keep_State_bump
    | (apply Held_id; extract_lets -underBinder +onlyGivenNames y; first | (refine keep_cut (p := Held b0 y) ?_ fun _ => ?_; unfold y; clear y; rotate_left; clear_value y) | clear_value y)
    | split | (dsimp only)

/-! ### Memory -/

theorem keep_State_countActs {b0 : State} {s : State} {off n : Nat} (h : Held b0 s) :
    Held b0 (State.countActs s off n) := by
  unfold State.countActs
  repeat' with_reducible first
    | assumption | intro _ | apply keep_State_bump | apply Held_ite | apply Held_ite1 | apply Held_foldl
    | apply Held_foldl1 | split | (dsimp only)

theorem keep_State_drawTokens {b0 : State} {s : State} {k part n : Nat} (h : Held b0 s) :
    Held b0 (State.drawTokens s k part n) := by
  unfold State.drawTokens
  repeat' with_reducible first
    | assumption | intro _ | apply keep_State_modCol | apply Held_ite | apply Held_ite1 | split | (dsimp only)

theorem keep_State_takeTokens {b0 : State} {s : State} {off n part : Nat} (h : Held b0 s) :
    Held b0 (State.takeTokens s off n part).1 := by
  unfold State.takeTokens
  repeat' with_reducible first
    | assumption | intro _ | apply keep_State_drawTokens | apply keep_State_modCol | apply keep_State_bump
    | (apply Held_id; extract_lets -underBinder +onlyGivenNames y; first | (refine keep_cut (p := Held b0 y) ?_ fun _ => ?_; unfold y; clear y; rotate_left; clear_value y) | clear_value y)
    | apply Held_foldl | apply Held_foldl1 | split | (dsimp only)

theorem keep_State_drawRange {b0 : State} {s : State} {off n part : Nat} (h : Held b0 s) :
    Held b0 (State.drawRange s off n part) := by
  unfold State.drawRange
  repeat' with_reducible first
    | assumption | intro _ | apply keep_State_drawTokens | apply Held_ite | apply Held_ite1 | apply Held_foldl
    | apply Held_foldl1 | split | (dsimp only)

theorem keep_State_requestDrain {b0 : State} {s : State} {cause : Nat} (h : Held b0 s) :
    Held b0 (State.requestDrain s cause) := by
  unfold State.requestDrain
  repeat' with_reducible first
    | assumption | intro _ | apply Held_ite | apply Held_ite1 | (simp -zeta -beta -iota -proj only [Held_mk])
    | apply Held_of | split | (dsimp only)

theorem keep_State_enterDraining {b0 : State} {s : State} {cause : Nat} (h : Held b0 s) :
    Held b0 (State.enterDraining s cause) := by
  unfold State.enterDraining
  repeat' with_reducible first
    | assumption | intro _ | apply Held_ite | apply Held_ite1 | (simp -zeta -beta -iota -proj only [Held_mk])
    | apply Held_of | split | (dsimp only)

theorem keep_State_forceDrain {b0 : State} {s : State} {cause : Nat} (h : Held b0 s) :
    Held b0 (State.forceDrain s cause) := by
  unfold State.forceDrain
  repeat' with_reducible first
    | assumption | intro _ | apply keep_State_enterDraining | apply keep_State_raise | apply Held_ite
    | apply Held_ite1 | split | (dsimp only)

theorem keep_State_capacityCheck {b0 : State} {s : State} (h : Held b0 s) :
    Held b0 (State.capacityCheck s) := by
  unfold State.capacityCheck
  repeat' with_reducible first
    | assumption | intro _ | apply keep_State_requestDrain | apply keep_State_raise | apply Held_ite
    | apply Held_ite1
    | (apply Held_id; extract_lets -underBinder +onlyGivenNames y; first | (refine keep_cut (p := Held b0 y) ?_ fun _ => ?_; unfold y; clear y; rotate_left; clear_value y) | clear_value y)
    | split | (dsimp only)

theorem keep_State_retirePage {b0 : State} {s : State} {k packed why : Nat} (h : Held b0 s) :
    Held b0 (State.retirePage s k packed why) := by
  unfold State.retirePage
  repeat' with_reducible first
    | assumption | intro _ | apply keep_State_capacityCheck | apply keep_State_raise | apply keep_State_modCol
    | apply Held_ite | apply Held_ite1 | (simp -zeta -beta -iota -proj only [Held_mk])
    | (apply Held_id; extract_lets -underBinder +onlyGivenNames y; first | (refine keep_cut (p := Held b0 y) ?_ fun _ => ?_; unfold y; clear y; rotate_left; clear_value y) | clear_value y)
    | apply Held_of | split | (dsimp only)

theorem keep_State_takeSpare {b0 : State} {s : State} {k packed : Nat} (h : Held b0 s) :
    Held b0 (State.takeSpare s k packed).1 := by
  unfold State.takeSpare
  repeat' with_reducible first
    | assumption | intro _ | apply keep_State_retirePage | apply keep_State_modCol | apply Held_ite
    | apply Held_ite1
    | (apply Held_id; extract_lets -underBinder +onlyGivenNames y; first | (refine keep_cut (p := Held b0 y) ?_ fun _ => ?_; unfold y; clear y; rotate_left; clear_value y) | clear_value y)
    | split | (dsimp only)

theorem keep_State_modKite {b0 : State} {s : State} {f : Kites → Kites} (h : Held b0 s) :
    Held b0 (State.modKite s f) := by
  unfold State.modKite
  repeat' with_reducible first
    | assumption | intro _ | (simp -zeta -beta -iota -proj only [Held_mk]) | apply Held_of | split | (dsimp only)

theorem keep_State_modServed {b0 : State} {s : State} {id : Nat} {f : Served → Served} (h : Held b0 s) :
    Held b0 (State.modServed s id f) := by
  unfold State.modServed
  repeat' with_reducible first
    | assumption | intro _ | apply keep_State_modKite | apply Held_ite | apply Held_ite1 | split | (dsimp only)

theorem keep_State_lineStore {b0 : State} {s : State} {off : Nat} {bs : List Byte} (h : Held b0 s) :
    Held b0 (State.lineStore s off bs) := by
  unfold State.lineStore
  repeat' with_reducible first
    | assumption | intro _ | apply keep_State_rcWriteLine | apply keep_State_memStore | split | (dsimp only)

theorem keep_State_noteErrAddr {b0 : State} {s : State} {line : Nat} {ue : Bool} (h : Held b0 s) :
    Held b0 (State.noteErrAddr s line ue) := by
  unfold State.noteErrAddr
  repeat' with_reducible first
    | assumption | intro _ | apply keep_State_setReg
    | (apply Held_id; extract_lets -underBinder +onlyGivenNames y; first | (refine keep_cut (p := Held b0 y) ?_ fun _ => ?_; unfold y; clear y; rotate_left; clear_value y) | clear_value y)
    | split | (dsimp only)

theorem keep_State_addElem {b0 : State} {s : State} {table : Nat} {d : Delta} (h : Held b0 s) :
    Held b0 (State.addElem s table d).1 := by
  unfold State.addElem
  repeat' with_reducible first
    | assumption | intro _ | apply keep_State_lineStore | apply keep_State_modKite | apply Held_ite
    | apply Held_ite1
    | (apply Held_id; extract_lets -underBinder +onlyGivenNames y; first | (refine keep_cut (p := Held b0 y) ?_ fun _ => ?_; unfold y; clear y; rotate_left; clear_value y) | (refine keep_cut (p := Held b0 y.1) ?_ fun _ => ?_; unfold y; clear y; rotate_left; clear_value y) | clear_value y)
    | split | (dsimp only)

theorem keep_State_addLine {b0 : State} {s : State} {c : CombLine} (h : Held b0 s) :
    Held b0 (State.addLine s c) := by
  unfold State.addLine
  repeat' with_reducible first
    | assumption | intro _ | apply keep_State_addElem | apply keep_State_modServed | apply keep_State_modKite
    | apply keep_State_drawTokens | apply keep_State_bump
    | (apply Held_id; extract_lets -underBinder +onlyGivenNames y; first | (refine keep_cut (p := Held b0 y) ?_ fun _ => ?_; unfold y; clear y; rotate_left; clear_value y) | clear_value y)
    | refine Held_fst (by assumption) ?_ | apply Held_foldl | apply Held_foldl1 | split | (dsimp only)

theorem keep_State_failLine {b0 : State} {s : State} {c : CombLine} (h : Held b0 s) :
    Held b0 (State.failLine s c) := by
  unfold State.failLine
  repeat' with_reducible first
    | assumption | intro _ | apply keep_State_modServed | apply keep_State_modKite | apply keep_State_bump
    | (apply Held_id; extract_lets -underBinder +onlyGivenNames y; first | (refine keep_cut (p := Held b0 y) ?_ fun _ => ?_; unfold y; clear y; rotate_left; clear_value y) | clear_value y)
    | apply Held_foldl | apply Held_foldl1 | split | (dsimp only)

theorem keep_State_flushLine {b0 : State} {s : State} {line : Nat} (h : Held b0 s) :
    Held b0 (State.flushLine s line) := by
  unfold State.flushLine
  repeat' with_reducible first
    | assumption | intro _ | apply keep_State_failLine | apply keep_State_addLine | apply keep_State_bump
    | apply Held_ite | apply Held_ite1
    | (apply Held_id; extract_lets -underBinder +onlyGivenNames y; first | (refine keep_cut (p := Held b0 y) ?_ fun _ => ?_; unfold y; clear y; rotate_left; clear_value y) | clear_value y)
    | split | (dsimp only)

theorem keep_State_flushPage {b0 : State} {s : State} {page : Nat} (h : Held b0 s) :
    Held b0 (State.flushPage s page) := by
  unfold State.flushPage
  repeat' with_reducible first
    | assumption | intro _ | apply keep_State_flushLine | apply Held_foldl | apply Held_foldl1 | split
    | (dsimp only)

theorem keep_State_candidate {b0 : State} {s : State} {k packed : Nat} (h : Held b0 s) :
    Held b0 (State.candidate s k packed) := by
  unfold State.candidate
  repeat' with_reducible first
    | assumption | intro _ | apply keep_State_flushPage | apply keep_State_takeSpare | apply keep_State_raise
    | apply keep_State_modCol | apply Held_ite | apply Held_ite1
    | (apply Held_id; extract_lets -underBinder +onlyGivenNames y; first | (refine keep_cut (p := Held b0 y) ?_ fun _ => ?_; unfold y; clear y; rotate_left; clear_value y) | clear_value y)
    | refine Held_fst (by assumption) ?_ | split | (dsimp only)

theorem keep_State_lineCe {b0 : State} {s : State} {line : Nat} (h : Held b0 s) :
    Held b0 (State.lineCe s line) := by
  unfold State.lineCe
  repeat' with_reducible first
    | assumption | intro _ | apply keep_State_candidate | apply keep_State_noteErrAddr | apply keep_State_modCol
    | apply keep_State_bump | apply Held_ite | apply Held_ite1
    | (apply Held_id; extract_lets -underBinder +onlyGivenNames y; first | (refine keep_cut (p := Held b0 y) ?_ fun _ => ?_; unfold y; clear y; rotate_left; clear_value y) | clear_value y)
    | split | (dsimp only)

theorem keep_State_lineUe {b0 : State} {s : State} {line : Nat} (h : Held b0 s) :
    Held b0 (State.lineUe s line) := by
  unfold State.lineUe
  repeat' with_reducible first
    | assumption | intro _ | apply keep_State_candidate | apply keep_State_noteErrAddr | apply keep_State_raise
    | apply keep_State_bump | (simp -zeta -beta -iota -proj only [Held_mk])
    | (apply Held_id; extract_lets -underBinder +onlyGivenNames y; first | (refine keep_cut (p := Held b0 y) ?_ fun _ => ?_; unfold y; clear y; rotate_left; clear_value y) | clear_value y)
    | refine Held_stw (Held_of ?_) rfl (by simp [length_updAt]; done) | refine Held_mem (Held_eta (Held_of ?_))
    | apply Held_of | split | (dsimp only)

theorem keep_State_intrude {b0 : State} {s : State} {off n : Nat} (h : Held b0 s) :
    Held b0 (State.intrude s off n) := by
  unfold State.intrude
  repeat' with_reducible first
    | assumption | intro _ | apply keep_State_setReg | apply Held_ite | apply Held_ite1 | apply Held_foldl
    | apply Held_foldl1 | split | (dsimp only)

theorem keep_State_stwRead {b0 : State} {s : State} {off n : Nat} {ecc : Ecc} (h : Held b0 s) :
    Held b0 (State.stwRead s off n ecc).1 := by
  unfold State.stwRead
  repeat' with_reducible first
    | assumption | intro _ | apply keep_State_intrude | apply keep_State_lineUe | apply keep_State_lineCe
    | apply keep_State_flushLine | apply keep_State_countActs | apply hf1 | apply hf2 | apply hf3 | apply hf4
    | apply hf5 | apply Held_ite | apply Held_ite1
    | (apply Held_id; extract_lets -underBinder +onlyGivenNames y; first | (refine keep_cut (p := Held b0 y) ?_ fun _ => ?_; unfold y; clear y; rotate_left; clear_value y) | (refine keep_cut (p := Held b0 y.1) ?_ fun _ => ?_; unfold y; clear y; rotate_left; clear_value y) | (refine keep_cut (p := ∀ z, Held b0 z → Held b0 (y z)) ?_ fun hf1 => ?_; unfold y; clear y; rotate_left; clear_value y) | (refine keep_cut (p := ∀ z a, Held b0 z → Held b0 (y z a)) ?_ fun hf2 => ?_; unfold y; clear y; rotate_left; clear_value y) | (refine keep_cut (p := ∀ z a b, Held b0 z → Held b0 (y z a b)) ?_ fun hf3 => ?_; unfold y; clear y; rotate_left; clear_value y) | (refine keep_cut (p := ∀ a, Held b0 (y a)) ?_ fun hf4 => ?_; unfold y; clear y; rotate_left; clear_value y) | (refine keep_cut (p := ∀ a b, Held b0 (y a b)) ?_ fun hf5 => ?_; unfold y; clear y; rotate_left; clear_value y) | clear_value y)
    | apply Held_foldl | apply Held_foldl1 | split | (dsimp only)

theorem keep_State_stwWriteLine {b0 : State} {s : State} {off : Nat} {bs : List Byte} (h : Held b0 s) :
    Held b0 (State.stwWriteLine s off bs) := by
  unfold State.stwWriteLine
  repeat' with_reducible first
    | assumption | intro _ | apply keep_State_flushLine | apply keep_State_lineStore | apply Held_ite
    | apply Held_ite1 | (simp -zeta -beta -iota -proj only [Held_mk])
    | (apply Held_id; extract_lets -underBinder +onlyGivenNames y; first | (refine keep_cut (p := Held b0 y) ?_ fun _ => ?_; unfold y; clear y; rotate_left; clear_value y) | clear_value y)
    | refine Held_stw (Held_of ?_) rfl (by simp [length_updAt]; done) | refine Held_mem (Held_eta (Held_of ?_))
    | apply Held_of | split | (dsimp only)

theorem keep_stwWriteGo {b0 : State} {s : State} {off : Nat} {bs : List Byte} {fuel : Nat} (h : Held b0 s) :
    Held b0 (stwWriteGo s off bs fuel) := by
  induction fuel generalizing s off bs with
  | zero =>
    unfold stwWriteGo
    repeat' with_reducible first
      | assumption | intro _ | apply keep_State_stwWriteLine | apply Held_ite | apply Held_ite1
      | (apply Held_id; extract_lets -underBinder +onlyGivenNames y; first | (refine keep_cut (p := Held b0 y) ?_ fun _ => ?_; unfold y; clear y; rotate_left; clear_value y) | clear_value y)
      | split | (dsimp only)
  | succ k ih =>
    unfold stwWriteGo
    repeat' with_reducible first
      | assumption | intro _ | apply ih | apply keep_State_stwWriteLine | apply Held_ite | apply Held_ite1
      | (apply Held_id; extract_lets -underBinder +onlyGivenNames y; first | (refine keep_cut (p := Held b0 y) ?_ fun _ => ?_; unfold y; clear y; rotate_left; clear_value y) | clear_value y)
      | split | (dsimp only)

theorem keep_State_stwWrite {b0 : State} {s : State} {off : Nat} {bs : List Byte} (h : Held b0 s) :
    Held b0 (State.stwWrite s off bs) := by
  unfold State.stwWrite
  repeat' with_reducible first
    | assumption | intro _ | apply keep_stwWriteGo | apply keep_State_intrude | apply keep_State_countActs
    | apply Held_ite | apply Held_ite1 | split | (dsimp only)

theorem keep_State_engRead {b0 : State} {s : State} {off n : Nat} {ecc : Ecc} (h : Held b0 s) :
    Held b0 (State.engRead s off n ecc).1 := by
  unfold State.engRead
  repeat' with_reducible first
    | assumption | intro _ | apply keep_State_stwRead | apply keep_State_pinUe | apply keep_State_pinRead
    | apply keep_State_draw | apply keep_State_bump | apply Held_ite | apply Held_ite1
    | (apply Held_id; extract_lets -underBinder +onlyGivenNames y; first | (refine keep_cut (p := Held b0 y) ?_ fun _ => ?_; unfold y; clear y; rotate_left; clear_value y) | (refine keep_cut (p := Held b0 y.1) ?_ fun _ => ?_; unfold y; clear y; rotate_left; clear_value y) | clear_value y)
    | refine Held_fst (by assumption) ?_ | split | (dsimp only)

theorem keep_State_engWrite {b0 : State} {s : State} {off : Nat} {bs : List Byte} (h : Held b0 s) :
    Held b0 (State.engWrite s off bs) := by
  unfold State.engWrite
  repeat' with_reducible first
    | assumption | intro _ | apply keep_State_stwWrite | apply keep_State_pinWrite | apply Held_ite
    | apply Held_ite1 | split | (dsimp only)

/-! ### Translate -/

theorem keep_State_modXlt {b0 : State} {s : State} {f : Xlt → Xlt} (h : Held b0 s) :
    Held b0 (State.modXlt s f) := by
  unfold State.modXlt
  repeat' with_reducible first
    | assumption | intro _ | (simp -zeta -beta -iota -proj only [Held_mk]) | apply Held_of | split | (dsimp only)

theorem keep_State_sendMsix {b0 : State} {s : State} {v : Nat} (h : Held b0 s) :
    Held b0 (State.sendMsix s v) := by
  unfold State.sendMsix
  repeat' with_reducible first
    | assumption | intro _ | apply keep_State_emit | apply Held_ite | apply Held_ite1 | split | (dsimp only)

theorem keep_State_tlbUse {b0 : State} {s : State} {e : Tlb} {req : Nat} (h : Held b0 s) :
    Held b0 (State.tlbUse s e req) := by
  unfold State.tlbUse
  repeat' with_reducible first
    | assumption | intro _ | apply keep_State_modXlt | split | (dsimp only)

theorem keep_State_tlbLook {b0 : State} {s : State} {pasid page req : Nat} (h : Held b0 s) :
    Held b0 (State.tlbLook s pasid page req) := by
  unfold State.tlbLook
  repeat' with_reducible first
    | assumption | intro _ | apply keep_State_tlbUse | apply keep_State_bump | apply Held_ite | apply Held_ite1
    | (apply Held_id; extract_lets -underBinder +onlyGivenNames y; first | (refine keep_cut (p := Held b0 y) ?_ fun _ => ?_; unfold y; clear y; rotate_left; clear_value y) | clear_value y)
    | split | (dsimp only)

theorem keep_State_tlbInsert {b0 : State} {s : State} {e : Tlb} (h : Held b0 s) :
    Held b0 (State.tlbInsert s e) := by
  unfold State.tlbInsert
  repeat' with_reducible first
    | assumption | intro _ | apply keep_State_modXlt | apply Held_ite | apply Held_ite1
    | (apply Held_id; extract_lets -underBinder +onlyGivenNames y; first | (refine keep_cut (p := Held b0 y) ?_ fun _ => ?_; unfold y; clear y; rotate_left; clear_value y) | clear_value y)
    | split | (dsimp only)

theorem keep_atsPump {b0 : State} {s : State} {fuel : Nat} (h : Held b0 s) :
    Held b0 (atsPump s fuel) := by
  induction fuel generalizing s with
  | zero =>
    unfold atsPump
    repeat' with_reducible first
      | assumption | intro _ | apply keep_State_modXlt | apply keep_State_emit | apply keep_State_bump
      | apply Held_ite | apply Held_ite1
      | (apply Held_id; extract_lets -underBinder +onlyGivenNames y; first | (refine keep_cut (p := Held b0 y) ?_ fun _ => ?_; unfold y; clear y; rotate_left; clear_value y) | clear_value y)
      | split | (dsimp only)
  | succ k ih =>
    unfold atsPump
    repeat' with_reducible first
      | assumption | intro _ | apply ih | apply keep_State_modXlt | apply keep_State_emit | apply keep_State_bump
      | apply Held_ite | apply Held_ite1
      | (apply Held_id; extract_lets -underBinder +onlyGivenNames y; first | (refine keep_cut (p := Held b0 y) ?_ fun _ => ?_; unfold y; clear y; rotate_left; clear_value y) | clear_value y)
      | split | (dsimp only)

theorem keep_State_atsAsk {b0 : State} {s : State} {pasid page : Nat} {write prefetch afterPri : Bool} {req : Nat}
    (h : Held b0 s) :
    Held b0 (State.atsAsk s pasid page write prefetch afterPri req) := by
  unfold State.atsAsk
  repeat' with_reducible first
    | assumption | intro _ | apply keep_atsPump | apply keep_State_modXlt | apply Held_ite | apply Held_ite1
    | (apply Held_id; extract_lets -underBinder +onlyGivenNames y; first | (refine keep_cut (p := Held b0 y) ?_ fun _ => ?_; unfold y; clear y; rotate_left; clear_value y) | clear_value y)
    | split | (dsimp only)

theorem keep_priPump {b0 : State} {s : State} {fuel : Nat} (h : Held b0 s) :
    Held b0 (priPump s fuel) := by
  induction fuel generalizing s with
  | zero =>
    unfold priPump
    repeat' with_reducible first
      | assumption | intro _ | apply keep_State_modXlt | apply keep_State_emit | apply keep_State_bump
      | apply Held_ite | apply Held_ite1
      | (apply Held_id; extract_lets -underBinder +onlyGivenNames y; first | (refine keep_cut (p := Held b0 y) ?_ fun _ => ?_; unfold y; clear y; rotate_left; clear_value y) | clear_value y)
      | split | (dsimp only)
  | succ k ih =>
    unfold priPump
    repeat' with_reducible first
      | assumption | intro _ | apply ih | apply keep_State_modXlt | apply keep_State_emit | apply keep_State_bump
      | apply Held_ite | apply Held_ite1
      | (apply Held_id; extract_lets -underBinder +onlyGivenNames y; first | (refine keep_cut (p := Held b0 y) ?_ fun _ => ?_; unfold y; clear y; rotate_left; clear_value y) | clear_value y)
      | split | (dsimp only)

theorem keep_State_priAsk {b0 : State} {s : State} {pasid page : Nat} {write : Bool} (h : Held b0 s) :
    Held b0 (State.priAsk s pasid page write) := by
  unfold State.priAsk
  repeat' with_reducible first
    | assumption | intro _ | apply keep_priPump | apply keep_State_modXlt | apply Held_ite | apply Held_ite1
    | (apply Held_id; extract_lets -underBinder +onlyGivenNames y; first | (refine keep_cut (p := Held b0 y) ?_ fun _ => ?_; unfold y; clear y; rotate_left; clear_value y) | clear_value y)
    | split | (dsimp only)

theorem keep_State_pageFails {b0 : State} {s : State} {pasid page : Nat} {write perm : Bool} (h : Held b0 s) :
    Held b0 (State.pageFails s pasid page write perm) := by
  unfold State.pageFails
  repeat' with_reducible first
    | assumption | intro _ | apply keep_State_modXlt | apply Held_ite | apply Held_ite1 | split | (dsimp only)

theorem keep_State_dropAcc {b0 : State} {s : State} {id : Nat} (h : Held b0 s) :
    Held b0 (State.dropAcc s id) := by
  unfold State.dropAcc
  repeat' with_reducible first
    | assumption | intro _ | apply keep_State_modXlt | split | (dsimp only)

theorem keep_State_accIssue {b0 : State} {s : State} {a : HAcc} (h : Held b0 s) :
    Held b0 (State.accIssue s a).1 := by
  unfold State.accIssue
  repeat' with_reducible first
    | assumption | intro _ | apply keep_State_dropAcc | apply keep_State_modXlt | apply keep_State_emit
    | apply Held_ite | apply Held_ite1
    | (apply Held_id; extract_lets -underBinder +onlyGivenNames y; first | (refine keep_cut (p := Held b0 y) ?_ fun _ => ?_; unfold y; clear y; rotate_left; clear_value y) | clear_value y)
    | apply Held_foldl | apply Held_foldl1 | split | (dsimp only)

theorem keep_State_accTry {b0 : State} {s : State} {a : HAcc} (h : Held b0 s) :
    Held b0 (State.accTry s a).1 := by
  unfold State.accTry
  repeat' with_reducible first
    | assumption | intro _ | apply keep_State_accIssue | apply keep_State_dropAcc | apply keep_State_atsAsk
    | apply keep_State_bump | apply hf1 | apply hf2 | apply hf3 | apply hf4 | apply hf5 | apply Held_ite
    | apply Held_ite1
    | (apply Held_id; extract_lets -underBinder +onlyGivenNames y; first | (refine keep_cut (p := Held b0 y) ?_ fun _ => ?_; unfold y; clear y; rotate_left; clear_value y) | (refine keep_cut (p := Held b0 y.1) ?_ fun _ => ?_; unfold y; clear y; rotate_left; clear_value y) | (refine keep_cut (p := ∀ z, Held b0 z → Held b0 (y z)) ?_ fun hf1 => ?_; unfold y; clear y; rotate_left; clear_value y) | (refine keep_cut (p := ∀ z a, Held b0 z → Held b0 (y z a)) ?_ fun hf2 => ?_; unfold y; clear y; rotate_left; clear_value y) | (refine keep_cut (p := ∀ z a b, Held b0 z → Held b0 (y z a b)) ?_ fun hf3 => ?_; unfold y; clear y; rotate_left; clear_value y) | (refine keep_cut (p := ∀ a, Held b0 (y a)) ?_ fun hf4 => ?_; unfold y; clear y; rotate_left; clear_value y) | (refine keep_cut (p := ∀ a b, Held b0 (y a b)) ?_ fun hf5 => ?_; unfold y; clear y; rotate_left; clear_value y) | clear_value y)
    | refine Held_ps (Held_of ?_) rfl | apply Held_foldl | apply Held_foldl1 | split | (dsimp only)

theorem keep_State_hostTile {b0 : State} {s : State} {req tenant addr len : Nat} {write : Option (List Byte)} {more : List (Nat × List Byte)} {purpose : HPurpose} {noPri : Bool}
    (h : Held b0 s) :
    Held b0 (State.hostTile s req tenant addr len write more purpose noPri).1 := by
  unfold State.hostTile
  repeat' with_reducible first
    | assumption | intro _ | apply keep_State_accTry | apply keep_State_tlbLook | apply keep_State_modXlt
    | (apply Held_id; extract_lets -underBinder +onlyGivenNames y; first | (refine keep_cut (p := Held b0 y) ?_ fun _ => ?_; unfold y; clear y; rotate_left; clear_value y) | (refine keep_cut (p := Held b0 y.1) ?_ fun _ => ?_; unfold y; clear y; rotate_left; clear_value y) | clear_value y)
    | apply Held_foldl | apply Held_foldl1 | split | (dsimp only)

theorem keep_State_hostAcc {b0 : State} {s : State} {req tenant addr len : Nat} {write : Option (List Byte)} {purpose : HPurpose} {noPri : Bool}
    (h : Held b0 s) :
    Held b0 (State.hostAcc s req tenant addr len write purpose noPri).1 := by
  unfold State.hostAcc
  repeat' with_reducible first
    | assumption | intro _ | apply keep_State_hostTile | split | (dsimp only)

theorem keep_State_prefetchXl {b0 : State} {s : State} {pasid req base len : Nat} {stride : Int} (h : Held b0 s) :
    Held b0 (State.prefetchXl s pasid req base len stride) := by
  unfold State.prefetchXl
  repeat' with_reducible first
    | assumption | intro _ | apply keep_State_atsAsk | apply Held_ite | apply Held_ite1
    | (apply Held_id; extract_lets -underBinder +onlyGivenNames y; first | (refine keep_cut (p := Held b0 y) ?_ fun _ => ?_; unfold y; clear y; rotate_left; clear_value y) | clear_value y)
    | apply Held_foldl | apply Held_foldl1 | split | (dsimp only)

theorem keep_State_detect {b0 : State} {s : State} {key : Nat} {pasid : Option Nat} {req base len : Nat}
    (h : Held b0 s) :
    Held b0 (State.detect s key pasid req base len) := by
  unfold State.detect
  repeat' with_reducible first
    | assumption | intro _ | apply keep_State_prefetchXl | apply keep_State_modXlt | apply Held_ite
    | apply Held_ite1
    | (apply Held_id; extract_lets -underBinder +onlyGivenNames y; first | (refine keep_cut (p := Held b0 y) ?_ fun _ => ?_; unfold y; clear y; rotate_left; clear_value y) | clear_value y)
    | split | (dsimp only)

theorem keep_State_hotCount {b0 : State} {s : State} {pasid tenant page table : Nat} {shard : Option Nat}
    (h : Held b0 s) :
    Held b0 (State.hotCount s pasid tenant page table shard) := by
  unfold State.hotCount
  repeat' with_reducible first
    | assumption | intro _ | apply keep_State_modXlt | apply keep_State_bump | apply Held_ite | apply Held_ite1
    | split | (dsimp only)

theorem keep_State_dropPasid {b0 : State} {s : State} {pasid : Nat} (h : Held b0 s) :
    Held b0 (State.dropPasid s pasid) := by
  unfold State.dropPasid
  repeat' with_reducible first
    | assumption | intro _ | apply keep_State_modXlt | split | (dsimp only)

theorem keep_State_detachLog {b0 : State} {s : State} {rec : List Word} {cq kind : Nat} (h : Held b0 s) :
    Held b0 (State.detachLog s rec cq kind) := by
  unfold State.detachLog
  repeat' with_reducible first
    | assumption | intro _ | apply keep_State_modXlt | apply keep_State_stwWrite | apply keep_State_bump
    | apply Held_ite | apply Held_ite1
    | (apply Held_id; extract_lets -underBinder +onlyGivenNames y; first | (refine keep_cut (p := Held b0 y) ?_ fun _ => ?_; unfold y; clear y; rotate_left; clear_value y) | clear_value y)
    | split | (dsimp only)

/-! ### Budget -/

theorem keep_State_modFlt {b0 : State} {s : State} {f : Flight → Flight} (h : Held b0 s) :
    Held b0 (State.modFlt s f) := by
  unfold State.modFlt
  repeat' with_reducible first
    | assumption | intro _ | (simp -zeta -beta -iota -proj only [Held_mk]) | apply Held_of | split | (dsimp only)

theorem keep_State_chargeOrig {b0 : State} {s : State} {c : Charge} {promoted : Bool} (h : Held b0 s) :
    Held b0 (State.chargeOrig s c promoted) := by
  unfold State.chargeOrig
  repeat' with_reducible first
    | assumption | intro _ | apply keep_State_modFlt | apply Held_ite | apply Held_ite1
    | (apply Held_id; extract_lets -underBinder +onlyGivenNames y; first | (refine keep_cut (p := Held b0 y) ?_ fun _ => ?_; unfold y; clear y; rotate_left; clear_value y) | clear_value y)
    | split | (dsimp only)

theorem keep_State_refund {b0 : State} {s : State} {flight : Nat} {promoted : Bool} {c : Charge} (h : Held b0 s) :
    Held b0 (State.refund s flight promoted c) := by
  unfold State.refund
  repeat' with_reducible first
    | assumption | intro _ | apply keep_State_modFlt | apply Held_ite | apply Held_ite1
    | (apply Held_id; extract_lets -underBinder +onlyGivenNames y; first | (refine keep_cut (p := Held b0 y) ?_ fun _ => ?_; unfold y; clear y; rotate_left; clear_value y) | clear_value y)
    | split | (dsimp only)

theorem keep_State_settle {b0 : State} {s : State} {flight : Nat} {acts : List Nat} (h : Held b0 s) :
    Held b0 (State.settle s flight acts) := by
  unfold State.settle
  repeat' with_reducible first
    | assumption | intro _ | apply keep_State_modFlt | apply Held_ite | apply Held_ite1
    | (apply Held_id; extract_lets -underBinder +onlyGivenNames y; first | (refine keep_cut (p := Held b0 y) ?_ fun _ => ?_; unfold y; clear y; rotate_left; clear_value y) | clear_value y)
    | split | (dsimp only)

theorem keep_State_chargeServed {b0 : State} {s : State} {acts : List Nat} {fab : Nat} (h : Held b0 s) :
    Held b0 (State.chargeServed s acts fab) := by
  unfold State.chargeServed
  repeat' with_reducible first
    | assumption | intro _ | apply keep_State_modFlt
    | (apply Held_id; extract_lets -underBinder +onlyGivenNames y; first | (refine keep_cut (p := Held b0 y) ?_ fun _ => ?_; unfold y; clear y; rotate_left; clear_value y) | clear_value y)
    | split | (dsimp only)

theorem keep_State_noteRefused {b0 : State} {s : State} {r : Res} (h : Held b0 s) :
    Held b0 (State.noteRefused s r) := by
  unfold State.noteRefused
  repeat' with_reducible first
    | assumption | intro _ | apply keep_State_modFlt | split | (dsimp only)

theorem keep_State_lagAdd {b0 : State} {s : State} {due : Nat} (h : Held b0 s) :
    Held b0 (State.lagAdd s due) := by
  unfold State.lagAdd
  repeat' with_reducible first
    | assumption | intro _ | apply keep_State_modFlt | apply keep_State_due | apply Held_ite | apply Held_ite1
    | (apply Held_id; extract_lets -underBinder +onlyGivenNames y; first | (refine keep_cut (p := Held b0 y) ?_ fun _ => ?_; unfold y; clear y; rotate_left; clear_value y) | clear_value y)
    | split | (dsimp only)

/-! ### Records -/

theorem keep_State_modConc {b0 : State} {s : State} {f : Conc → Conc} (h : Held b0 s) :
    Held b0 (State.modConc s f) := by
  unfold State.modConc
  repeat' with_reducible first
    | assumption | intro _ | (simp -zeta -beta -iota -proj only [Held_mk]) | apply Held_of | split | (dsimp only)

theorem keep_State_modCpl {b0 : State} {s : State} {n : Nat} {f : CplRing → CplRing} (h : Held b0 s) :
    Held b0 (State.modCpl s n f) := by
  unfold State.modCpl
  repeat' with_reducible first
    | assumption | intro _ | apply keep_State_modConc | split | (dsimp only)

theorem keep_State_modCmd {b0 : State} {s : State} {n : Nat} {f : CmdRing → CmdRing} (h : Held b0 s) :
    Held b0 (State.modCmd s n f) := by
  unfold State.modCmd
  repeat' with_reducible first
    | assumption | intro _ | apply keep_State_modConc | split | (dsimp only)

theorem keep_State_putRec {b0 : State} {s : State} {n : Nat} {ws : List Word} {held msg direct : Bool}
    (h : Held b0 s) :
    Held b0 (State.putRec s n ws held msg direct) := by
  unfold State.putRec
  repeat' with_reducible first
    | assumption | intro _ | apply keep_State_modCpl | apply keep_State_detachLog | apply keep_State_hostAcc
    | apply keep_State_sendMsix | apply keep_State_engWrite | apply Held_ite | apply Held_ite1
    | (apply Held_id; extract_lets -underBinder +onlyGivenNames y; first | (refine keep_cut (p := Held b0 y) ?_ fun _ => ?_; unfold y; clear y; rotate_left; clear_value y) | clear_value y)
    | refine Held_fst (by assumption) ?_ | split | (dsimp only)

theorem keep_State_packetRec {b0 : State} {s : State} {src : PktSrc} {cq : Option Nat} {words : List Word} {index status detail aux : Nat} {direct : Bool}
    (h : Held b0 s) :
    Held b0 (State.packetRec s src cq words index status detail aux direct) := by
  unfold State.packetRec
  repeat' with_reducible first
    | assumption | intro _ | apply keep_State_putRec | apply keep_State_modCpl | apply keep_State_emit
    | apply Held_ite | apply Held_ite1
    | (apply Held_id; extract_lets -underBinder +onlyGivenNames y; first | (refine keep_cut (p := Held b0 y) ?_ fun _ => ?_; unfold y; clear y; rotate_left; clear_value y) | clear_value y)
    | split | (dsimp only)

theorem keep_State_modItem {b0 : State} {s : State} {seq : Nat} {f : Item → Item} (h : Held b0 s) :
    Held b0 (State.modItem s seq f) := by
  unfold State.modItem
  repeat' with_reducible first
    | assumption | intro _ | apply keep_State_modConc | apply Held_ite | apply Held_ite1 | split | (dsimp only)

theorem keep_State_chargeSpill {b0 : State} {s : State} {seq : Nat} (h : Held b0 s) :
    Held b0 (State.chargeSpill s seq) := by
  unfold State.chargeSpill
  repeat' with_reducible first
    | assumption | intro _ | apply keep_State_chargeServed | apply Held_ite | apply Held_ite1 | split
    | (dsimp only)

theorem keep_State_spillStore {b0 : State} {s : State} {seq : Nat} (h : Held b0 s) :
    Held b0 (State.spillStore s seq) := by
  unfold State.spillStore
  repeat' with_reducible first
    | assumption | intro _ | apply keep_State_stwWrite | apply keep_State_draw | split | (dsimp only)

theorem keep_State_spillOne {b0 : State} {s : State} (h : Held b0 s) :
    Held b0 (State.spillOne s) := by
  unfold State.spillOne
  repeat' with_reducible first
    | assumption | intro _ | apply keep_State_spillStore | apply keep_State_chargeSpill | apply keep_State_modItem
    | apply Held_ite | apply Held_ite1
    | (apply Held_id; extract_lets -underBinder +onlyGivenNames y; first | (refine keep_cut (p := Held b0 y) ?_ fun _ => ?_; unfold y; clear y; rotate_left; clear_value y) | clear_value y)
    | split | (dsimp only)

theorem keep_State_restoreOne {b0 : State} {s : State} (h : Held b0 s) :
    Held b0 (State.restoreOne s) := by
  unfold State.restoreOne
  repeat' with_reducible first
    | assumption | intro _ | apply keep_State_chargeSpill | apply keep_State_modItem | apply keep_State_stwRead
    | apply Held_ite | apply Held_ite1
    | (apply Held_id; extract_lets -underBinder +onlyGivenNames y; first | (refine keep_cut (p := Held b0 y) ?_ fun _ => ?_; unfold y; clear y; rotate_left; clear_value y) | clear_value y)
    | refine Held_fst (by assumption) ?_ | split | (dsimp only)

theorem keep_State_copyEnded {b0 : State} {s : State} {seq : Nat} {ws : List Word} (h : Held b0 s) :
    Held b0 (State.copyEnded s seq ws) := by
  unfold State.copyEnded
  repeat' with_reducible first
    | assumption | intro _ | apply keep_State_sendMsix | apply keep_State_setReg | apply Held_ite | apply Held_ite1
    | (simp -zeta -beta -iota -proj only [Held_mk])
    | (apply Held_id; extract_lets -underBinder +onlyGivenNames y; first | (refine keep_cut (p := Held b0 y) ?_ fun _ => ?_; unfold y; clear y; rotate_left; clear_value y) | clear_value y)
    | refine Held_cpy (Held_of ?_) (by simp [length_updAt]; done) | apply Held_of | split | (dsimp only)

theorem keep_State_endItem {b0 : State} {s : State} {seq : Nat} {e : Ending} (h : Held b0 s) :
    Held b0 (State.endItem s seq e) := by
  unfold State.endItem
  repeat' with_reducible first
    | assumption | intro _ | apply keep_State_copyEnded | apply keep_State_restoreOne | apply keep_State_packetRec
    | apply keep_State_modConc | apply keep_State_lagAdd | apply keep_State_due | apply keep_State_bump
    | apply Held_ite | apply Held_ite1 | (simp -zeta -beta -iota -proj only [Held_mk])
    | (apply Held_id; extract_lets -underBinder +onlyGivenNames y; first | (refine keep_cut (p := Held b0 y) ?_ fun _ => ?_; unfold y; clear y; rotate_left; clear_value y) | clear_value y)
    | refine Held_gals (Held_of ?_) (by simp [length_updAt]; done) | apply Held_of
    | refine Held_fst (by assumption) ?_ | split | (dsimp only)

theorem keep_State_endMq {b0 : State} {s : State} {p : MqPkt} {status detail aux : Nat} (h : Held b0 s) :
    Held b0 (State.endMq s p status detail aux) := by
  unfold State.endMq
  repeat' with_reducible first
    | assumption | intro _ | apply keep_State_packetRec | apply keep_State_due | apply keep_State_bump
    | apply Held_ite | apply Held_ite1
    | (apply Held_id; extract_lets -underBinder +onlyGivenNames y; first | (refine keep_cut (p := Held b0 y) ?_ fun _ => ?_; unfold y; clear y; rotate_left; clear_value y) | clear_value y)
    | refine Held_fst (by assumption) ?_ | split | (dsimp only)

theorem keep_State_endSched {b0 : State} {s : State} {p : MqPkt} {named : Bool} {landing status detail : Nat}
    (h : Held b0 s) :
    Held b0 (State.endSched s p named landing status detail) := by
  unfold State.endSched
  repeat' with_reducible first
    | assumption | intro _ | apply keep_State_endMq | apply keep_State_packetRec | apply keep_State_bump
    | apply Held_ite | apply Held_ite1
    | (apply Held_id; extract_lets -underBinder +onlyGivenNames y; first | (refine keep_cut (p := Held b0 y) ?_ fun _ => ?_; unfold y; clear y; rotate_left; clear_value y) | clear_value y)
    | refine Held_fst (by assumption) ?_ | split | (dsimp only)

theorem keep_State_touchSlot {b0 : State} {s : State} {table slot : Nat} (h : Held b0 s) :
    Held b0 (State.touchSlot s table slot) := by
  unfold State.touchSlot
  repeat' with_reducible first
    | assumption | intro _ | apply keep_State_modTable | split | (dsimp only)

/-! ### Kite -/

theorem keep_State_modPort {b0 : State} {s : State} {p : Nat} {f : Port → Port} (h : Held b0 s) :
    Held b0 (State.modPort s p f) := by
  unfold State.modPort
  repeat' with_reducible first
    | assumption | intro _ | (simp -zeta -beta -iota -proj only [Held_mk])
    | refine Held_zp (Held_of ?_) (by simp [length_updAt]; done) | apply Held_of | split | (dsimp only)

theorem keep_State_putPort {b0 : State} {s : State} {p : Nat} {f : Frame} {transit : Bool} (h : Held b0 s) :
    Held b0 (State.putPort s p f transit) := by
  unfold State.putPort
  repeat' with_reducible first
    | assumption | intro _ | apply keep_State_modPort | apply keep_State_emit | apply Held_ite | apply Held_ite1
    | (apply Held_id; extract_lets -underBinder +onlyGivenNames y; first | (refine keep_cut (p := Held b0 y) ?_ fun _ => ?_; unfold y; clear y; rotate_left; clear_value y) | clear_value y)
    | split | (dsimp only)

theorem keep_State_send {b0 : State} {s : State} {f : Frame} {transit : Bool} (h : Held b0 s) :
    Held b0 (State.send s f transit).1 := by
  unfold State.send
  repeat' with_reducible first
    | assumption | intro _ | apply keep_State_putPort | apply keep_State_emit | apply keep_State_bump
    | apply Held_ite | apply Held_ite1 | split | (dsimp only)

theorem keep_State_sendAnswer {b0 : State} {s : State} {f : Frame} (h : Held b0 s) :
    Held b0 (State.sendAnswer s f) := by
  unfold State.sendAnswer
  repeat' with_reducible first
    | assumption | intro _ | apply keep_State_send | apply keep_State_bump | apply Held_ite | apply Held_ite1
    | (apply Held_id; extract_lets -underBinder +onlyGivenNames y; first | (refine keep_cut (p := Held b0 y) ?_ fun _ => ?_; unfold y; clear y; rotate_left; clear_value y) | clear_value y)
    | refine Held_fst (by assumption) ?_ | split | (dsimp only)

theorem keep_State_unroutable {b0 : State} {s : State} {f : Frame} (h : Held b0 s) :
    Held b0 (State.unroutable s f) := by
  unfold State.unroutable
  repeat' with_reducible first
    | assumption | intro _ | apply keep_State_sendAnswer | apply keep_State_bump | apply Held_ite | apply Held_ite1
    | (apply Held_id; extract_lets -underBinder +onlyGivenNames y; first | (refine keep_cut (p := Held b0 y) ?_ fun _ => ?_; unfold y; clear y; rotate_left; clear_value y) | clear_value y)
    | split | (dsimp only)

theorem keep_State_replyServed {b0 : State} {s : State} {f : Frame} (h : Held b0 s) :
    Held b0 (State.replyServed s f) := by
  unfold State.replyServed
  repeat' with_reducible first
    | assumption | intro _ | apply keep_State_sendAnswer | apply keep_State_chargeServed | split | (dsimp only)

theorem keep_State_forward {b0 : State} {s : State} {f : Frame} {dst : Nat} (h : Held b0 s) :
    Held b0 (State.forward s f dst) := by
  unfold State.forward
  repeat' with_reducible first
    | assumption | intro _ | apply keep_State_unroutable | apply keep_State_send | apply keep_State_chargeServed
    | apply keep_State_bump | apply Held_ite | apply Held_ite1
    | (apply Held_id; extract_lets -underBinder +onlyGivenNames y; first | (refine keep_cut (p := Held b0 y) ?_ fun _ => ?_; unfold y; clear y; rotate_left; clear_value y) | clear_value y)
    | refine Held_fst (by assumption) ?_ | split | (dsimp only)

theorem keep_takeSlot {b0 s : State} {dst : Nat} {owner : TethOwner} {z y} (e : s.takeSlot dst owner = some (z, y))
    (h : Held b0 s) : Held b0 z := by
  unfold State.takeSlot at e
  dsimp only at e
  split at e
  · cases e
  · split at e
    · cases e
    · cases e; exact h

theorem keep_State_sendKite {b0 : State} {s : State} {f : Frame} {owner : TethOwner} (h : Held b0 s) :
    Held b0 (State.sendKite s f owner).1 := by
  unfold State.sendKite
  repeat' with_reducible first
    | assumption | intro _ | refine keep_takeSlot (by assumption) ?_ | apply keep_State_send
    | apply keep_State_modKite | apply keep_State_bump | apply Held_ite | apply Held_ite1
    | (apply Held_id; extract_lets -underBinder +onlyGivenNames y; first | (refine keep_cut (p := Held b0 y) ?_ fun _ => ?_; unfold y; clear y; rotate_left; clear_value y) | clear_value y)
    | split | (dsimp only)

theorem keep_State_holdSlot {b0 : State} {s : State} {slot : Nat} (h : Held b0 s) :
    Held b0 (State.holdSlot s slot) := by
  unfold State.holdSlot
  repeat' with_reducible first
    | assumption | intro _ | apply keep_State_modKite | split | (dsimp only)

theorem keep_State_quarSlot {b0 : State} {s : State} {slot : Nat} (h : Held b0 s) :
    Held b0 (State.quarSlot s slot) := by
  unfold State.quarSlot
  repeat' with_reducible first
    | assumption | intro _ | apply keep_State_modKite | split | (dsimp only)

theorem keep_State_letGo {b0 : State} {s : State} {seq : Nat} (h : Held b0 s) :
    Held b0 (State.letGo s seq) := by
  unfold State.letGo
  repeat' with_reducible first
    | assumption | intro _ | apply keep_State_modXlt | apply keep_State_modKite | apply keep_State_modRc
    | apply Held_ite | apply Held_ite1
    | (apply Held_id; extract_lets -underBinder +onlyGivenNames y; first | (refine keep_cut (p := Held b0 y) ?_ fun _ => ?_; unfold y; clear y; rotate_left; clear_value y) | clear_value y)
    | split | (dsimp only)

theorem keep_State_failItem {b0 : State} {s : State} {seq : Nat} {e : Ending} (h : Held b0 s) :
    Held b0 (State.failItem s seq e) := by
  unfold State.failItem
  repeat' with_reducible first
    | assumption | intro _ | apply keep_State_letGo | apply keep_State_endItem
    | (apply Held_id; extract_lets -underBinder +onlyGivenNames y; first | (refine keep_cut (p := Held b0 y) ?_ fun _ => ?_; unfold y; clear y; rotate_left; clear_value y) | (refine keep_cut (p := Held b0 y.1) ?_ fun _ => ?_; unfold y; clear y; rotate_left; clear_value y) | clear_value y)
    | split | (dsimp only)

theorem keep_State_injected {b0 : State} {s : State} {gal : Option Nat} {rows : List (List Byte)} (h : Held b0 s) :
    Held b0 (State.injected s gal rows).1 := by
  unfold State.injected
  repeat' with_reducible first
    | assumption | intro _ | apply keep_State_draw | apply Held_ite | apply Held_ite1
    | (simp -zeta -beta -iota -proj only [Held_mk]) | apply Held_of | split | (dsimp only)

theorem keep_State_injectedOne {b0 : State} {s : State} {gal : Option Nat} {bs : List Byte} (h : Held b0 s) :
    Held b0 (State.injectedOne s gal bs).1 := by
  unfold State.injectedOne
  repeat' with_reducible first
    | assumption | intro _ | apply keep_State_injected
    | (apply Held_id; extract_lets -underBinder +onlyGivenNames y; first | (refine keep_cut (p := Held b0 y) ?_ fun _ => ?_; unfold y; clear y; rotate_left; clear_value y) | clear_value y)
    | refine Held_fst (by assumption) ?_ | split | (dsimp only)

theorem keep_State_countLoad {b0 : State} {s : State} {table shard reads updates : Nat} (h : Held b0 s) :
    Held b0 (State.countLoad s table shard reads updates) := by
  unfold State.countLoad
  repeat' with_reducible first
    | assumption | intro _ | apply keep_State_modTable
    | (apply Held_id; extract_lets -underBinder +onlyGivenNames y; first | (refine keep_cut (p := Held b0 y) ?_ fun _ => ?_; unfold y; clear y; rotate_left; clear_value y) | clear_value y)
    | split | (dsimp only)

end Sys2Proof.Laws
end

