-- ==== Sys2Proof/Laws/KeepWork.lean ====
section
/-! SUPPORT. What the operations of the work of packets and the serving of kites
keep, one lemma each. -/
namespace Sys2Proof.Laws

set_option linter.unusedSimpArgs false
set_option linter.unusedTactic false
set_option linter.unreachableTactic false

open Sys2Proof Sys2Proof.Machine Sys2Proof.Config Sys2Proof.Safety

/-! ### Bag -/

theorem keep_State_modBag {b0 : State} {s : State} {seq k : Nat} {f : BagRun → BagRun} (h : Held b0 s) :
    Held b0 (State.modBag s seq k f) := by
  unfold State.modBag
  repeat' with_reducible first
    | assumption | intro _ | apply keep_State_modItem | split | (dsimp only)

theorem keep_State_lookRow {b0 : State} {s : State} {cls : Nat} {tags : List Tag} (h : Held b0 s) :
    Held b0 (State.lookRow s cls tags).1 := by
  unfold State.lookRow
  repeat' with_reducible first
    | assumption | intro _ | apply keep_State_rcLookup | apply keep_State_bump | apply Held_ite | apply Held_ite1
    | (apply Held_id; extract_lets -underBinder +onlyGivenNames y; first | (refine keep_cut (p := Held b0 y) ?_ fun _ => ?_; unfold y; clear y; rotate_left; clear_value y) | (refine keep_cut (p := Held b0 y.1) ?_ fun _ => ?_; unfold y; clear y; rotate_left; clear_value y) | clear_value y)
    | refine Held_fst (by assumption) ?_ | apply Held_foldl | apply Held_foldl1 | split | (dsimp only)

theorem keep_State_missLine {b0 : State} {s : State} {cls ways : Nat} {t : Tag} {waiter : Nat × Nat} (h : Held b0 s) :
    Held b0 (State.missLine s cls ways t waiter) := by
  unfold State.missLine
  repeat' with_reducible first
    | assumption | intro _ | apply keep_State_modRc | apply keep_State_bump | apply Held_ite | apply Held_ite1
    | (apply Held_id; extract_lets -underBinder +onlyGivenNames y; first | (refine keep_cut (p := Held b0 y) ?_ fun _ => ?_; unfold y; clear y; rotate_left; clear_value y) | clear_value y)
    | split | (dsimp only)

theorem keep_State_missDone {b0 : State} {s : State} {id : Nat} (h : Held b0 s) :
    Held b0 (State.missDone s id) := by
  unfold State.missDone
  repeat' with_reducible first
    | assumption | intro _ | apply keep_State_modRc | apply Held_ite | apply Held_ite1
    | (apply Held_id; extract_lets -underBinder +onlyGivenNames y; first | (refine keep_cut (p := Held b0 y) ?_ fun _ => ?_; unfold y; clear y; rotate_left; clear_value y) | clear_value y)
    | split | (dsimp only)

theorem keep_State_fillLine {b0 : State} {s : State} {m : RcMiss} {data : List Byte} (h : Held b0 s) :
    Held b0 (State.fillLine s m data) := by
  unfold State.fillLine
  repeat' with_reducible first
    | assumption | intro _ | apply keep_State_rcAlloc | apply keep_State_bump | apply Held_ite | apply Held_ite1
    | (apply Held_id; extract_lets -underBinder +onlyGivenNames y; first | (refine keep_cut (p := Held b0 y) ?_ fun _ => ?_; unfold y; clear y; rotate_left; clear_value y) | (refine keep_cut (p := Held b0 y.1) ?_ fun _ => ?_; unfold y; clear y; rotate_left; clear_value y) | clear_value y)
    | split | (dsimp only)

theorem keep_State_fillRow {b0 : State} {s : State} {waiter : Nat × Nat} {pre : Nat} {data : List Byte}
    (h : Held b0 s) :
    Held b0 (State.fillRow s waiter pre data) := by
  unfold State.fillRow
  repeat' with_reducible first
    | assumption | intro _ | apply keep_State_fillLine | apply keep_State_missDone | apply keep_State_draw
    | (apply Held_id; extract_lets -underBinder +onlyGivenNames y; first | (refine keep_cut (p := Held b0 y) ?_ fun _ => ?_; unfold y; clear y; rotate_left; clear_value y) | (refine keep_cut (p := Held b0 y.1) ?_ fun _ => ?_; unfold y; clear y; rotate_left; clear_value y) | clear_value y)
    | apply Held_foldl | apply Held_foldl1 | split | (dsimp only)

theorem keep_State_resolveRow {b0 : State} {s : State} {i : Item} {k chunk : Nat} {t : Table} {bd : Bind} {acc : Res3} {row : Nat} {pos : List Nat}
    (h : Held b0 s) :
    Held b0 (State.resolveRow s i k chunk t bd acc row pos).1 := by
  unfold State.resolveRow
  repeat' with_reducible first
    | assumption | intro _ | apply keep_State_missLine | apply keep_State_lookRow | apply keep_State_countLoad
    | apply keep_State_bump | apply Held_ite | apply Held_ite1
    | (apply Held_id; extract_lets -underBinder +onlyGivenNames y; first | (refine keep_cut (p := Held b0 y) ?_ fun _ => ?_; unfold y; clear y; rotate_left; clear_value y) | (refine keep_cut (p := Held b0 y.1) ?_ fun _ => ?_; unfold y; clear y; rotate_left; clear_value y) | clear_value y)
    | refine Held_fst (by assumption) ?_ | apply Held_foldl | apply Held_foldl1 | split | (dsimp only)

theorem keep_sendGathers {b0 : State} {s : State} {i : Item} {k chunk : Nat} {bd : Bind} {lst : List (Nat × Nat × List Nat)}
    (h : Held b0 s) :
    Held b0 (sendGathers s i k chunk bd lst) := by
  induction lst generalizing s i k chunk bd with
  | nil =>
    unfold sendGathers
    repeat' with_reducible first
      | assumption | intro _ | apply keep_State_failItem | apply keep_State_sendKite | apply Held_ite
      | apply Held_ite1
      | (apply Held_id; extract_lets -underBinder +onlyGivenNames y; first | (refine keep_cut (p := Held b0 y) ?_ fun _ => ?_; unfold y; clear y; rotate_left; clear_value y) | clear_value y)
      | refine Held_fst (by assumption) ?_ | split | (dsimp only)
  | cons x r ih =>
    unfold sendGathers
    repeat' with_reducible first
      | assumption | intro _ | apply ih | apply keep_State_failItem | apply keep_State_sendKite | apply Held_ite
      | apply Held_ite1
      | (apply Held_id; extract_lets -underBinder +onlyGivenNames y; first | (refine keep_cut (p := Held b0 y) ?_ fun _ => ?_; unfold y; clear y; rotate_left; clear_value y) | clear_value y)
      | refine Held_fst (by assumption) ?_ | split | (dsimp only)

theorem keep_State_issueBalloon {b0 : State} {s : State} {seq k : Nat} {t : Table} {bd : Bind} {slots : List RowSlot}
    (h : Held b0 s) :
    Held b0 (State.issueBalloon s seq k t bd slots) := by
  unfold State.issueBalloon
  repeat' with_reducible first
    | assumption | intro _ | apply keep_State_failItem | apply keep_State_hotCount | apply keep_State_hostAcc
    | apply Held_ite | apply Held_ite1
    | (apply Held_id; extract_lets -underBinder +onlyGivenNames y; first | (refine keep_cut (p := Held b0 y) ?_ fun _ => ?_; unfold y; clear y; rotate_left; clear_value y) | (refine keep_cut (p := Held b0 y.1) ?_ fun _ => ?_; unfold y; clear y; rotate_left; clear_value y) | clear_value y)
    | refine Held_fst (by assumption) ?_ | apply Held_foldl | apply Held_foldl1 | split | (dsimp only)

theorem keep_State_resolveChunk {b0 : State} {s : State} {seq k chunk : Nat} (h : Held b0 s) :
    Held b0 (State.resolveChunk s seq k chunk) := by
  unfold State.resolveChunk
  repeat' with_reducible first
    | assumption | intro _ | apply keep_State_issueBalloon | apply keep_sendGathers | apply keep_State_resolveRow
    | apply keep_State_modBag | apply keep_State_modItem | apply keep_State_settle | apply keep_State_refund
    | apply keep_State_bump | apply Held_ite | apply Held_ite1
    | (apply Held_id; extract_lets -underBinder +onlyGivenNames y; first | (refine keep_cut (p := Held b0 y) ?_ fun _ => ?_; unfold y; clear y; rotate_left; clear_value y) | clear_value y)
    | refine Held_fst (by assumption) ?_ | apply Held_foldl | apply Held_foldl1 | split | (dsimp only)

theorem keep_State_takeList {b0 : State} {s : State} {seq k first : Nat} {data : List Byte} (h : Held b0 s) :
    Held b0 (State.takeList s seq k first data) := by
  unfold State.takeList
  repeat' with_reducible first
    | assumption | intro _ | apply keep_State_modBag | apply keep_State_failItem | apply Held_ite | apply Held_ite1
    | (apply Held_id; extract_lets -underBinder +onlyGivenNames y; first | (refine keep_cut (p := Held b0 y) ?_ fun _ => ?_; unfold y; clear y; rotate_left; clear_value y) | clear_value y)
    | apply Held_foldl | apply Held_foldl1 | split | (dsimp only)

theorem keep_State_takeWts {b0 : State} {s : State} {seq k first : Nat} {data : List Byte} (h : Held b0 s) :
    Held b0 (State.takeWts s seq k first data) := by
  unfold State.takeWts
  repeat' with_reducible first
    | assumption | intro _ | apply keep_State_modBag | apply Held_foldl | apply Held_foldl1 | split | (dsimp only)

theorem keep_State_listReady {b0 : State} {s : State} {seq k first : Nat} (h : Held b0 s) :
    Held b0 (State.listReady s seq k first) := by
  unfold State.listReady
  repeat' with_reducible first
    | assumption | intro _ | apply keep_State_resolveChunk | apply Held_ite | apply Held_ite1 | split
    | (dsimp only)

theorem keep_State_readLists {b0 : State} {s : State} {seq k : Nat} {c : Chunk} (h : Held b0 s) :
    Held b0 (State.readLists s seq k c) := by
  unfold State.readLists
  repeat' with_reducible first
    | assumption | intro _ | apply keep_State_listReady | apply keep_State_takeList | apply keep_State_failItem
    | apply keep_State_hostAcc | apply keep_State_engRead | apply Held_ite | apply Held_ite1
    | (apply Held_id; extract_lets -underBinder +onlyGivenNames y; first | (refine keep_cut (p := Held b0 y) ?_ fun _ => ?_; unfold y; clear y; rotate_left; clear_value y) | clear_value y)
    | refine Held_fst (by assumption) ?_ | split | (dsimp only)

theorem keep_State_failChunk {b0 : State} {s : State} {seq : Nat} {c : Chunk} {e : Ending} (h : Held b0 s) :
    Held b0 (State.failChunk s seq c e) := by
  unfold State.failChunk
  repeat' with_reducible first
    | assumption | intro _ | apply keep_State_failItem | apply keep_State_refund | split | (dsimp only)

theorem keep_State_startBagChunk {b0 : State} {s : State} {seq k : Nat} {c : Chunk} (h : Held b0 s) :
    Held b0 (State.startBagChunk s seq k c) := by
  unfold State.startBagChunk
  repeat' with_reducible first
    | assumption | intro _ | apply keep_State_failChunk | apply keep_State_readLists | apply keep_State_modBag
    | apply keep_State_modItem | apply Held_ite | apply Held_ite1
    | (apply Held_id; extract_lets -underBinder +onlyGivenNames y; first | (refine keep_cut (p := Held b0 y) ?_ fun _ => ?_; unfold y; clear y; rotate_left; clear_value y) | clear_value y)
    | split | (dsimp only)

theorem keep_State_rowGot {b0 : State} {s : State} {seq k : Nat} {sl : RowSlot} {src : RowSrc} {data : List Byte}
    (h : Held b0 s) :
    Held b0 (State.rowGot s seq k sl src data) := by
  unfold State.rowGot
  repeat' with_reducible first
    | assumption | intro _ | apply keep_State_modBag | apply keep_State_modItem | apply Held_ite | apply Held_ite1
    | (apply Held_id; extract_lets -underBinder +onlyGivenNames y; first | (refine keep_cut (p := Held b0 y) ?_ fun _ => ?_; unfold y; clear y; rotate_left; clear_value y) | clear_value y)
    | split | (dsimp only)

theorem keep_State_linePart {b0 : State} {s : State} {seq place key : Nat} {line : List Byte} (h : Held b0 s) :
    Held b0 (State.linePart s seq place key line) := by
  unfold State.linePart
  repeat' with_reducible first
    | assumption | intro _ | apply keep_State_rowGot | apply keep_State_modBag | apply Held_ite | apply Held_ite1
    | (apply Held_id; extract_lets -underBinder +onlyGivenNames y; first | (refine keep_cut (p := Held b0 y) ?_ fun _ => ?_; unfold y; clear y; rotate_left; clear_value y) | clear_value y)
    | split | (dsimp only)

theorem keep_State_rowArrive {b0 : State} {s : State} {seq place : Nat} {r : RowRead} (h : Held b0 s) :
    Held b0 (State.rowArrive s seq place r) := by
  unfold State.rowArrive
  repeat' with_reducible first
    | assumption | intro _ | apply keep_State_rowGot | apply keep_State_issueBalloon | apply keep_sendGathers
    | apply keep_State_resolveRow | apply keep_State_fillRow | apply keep_State_modBag | apply keep_State_failItem
    | apply keep_State_dropAcc | apply keep_State_engRead | apply keep_State_takeTokens
    | apply keep_State_rcTagParity | apply keep_State_rcUe | apply keep_State_bump | apply Held_ite
    | apply Held_ite1
    | (apply Held_id; extract_lets -underBinder +onlyGivenNames y; first | (refine keep_cut (p := Held b0 y) ?_ fun _ => ?_; unfold y; clear y; rotate_left; clear_value y) | (refine keep_cut (p := Held b0 y.1) ?_ fun _ => ?_; unfold y; clear y; rotate_left; clear_value y) | clear_value y)
    | refine Held_fst (by assumption) ?_ | split | (dsimp only)

theorem keep_State_statWrite {b0 : State} {s : State} {table : Nat} {fig : Nat × Nat × Nat} (h : Held b0 s) :
    Held b0 (State.statWrite s table fig) := by
  unfold State.statWrite
  repeat' with_reducible first
    | assumption | intro _ | apply keep_State_stwWrite | apply hf1 | apply hf2 | apply hf3 | apply hf4 | apply hf5
    | apply Held_ite | apply Held_ite1
    | (apply Held_id; extract_lets -underBinder +onlyGivenNames y; first | (refine keep_cut (p := Held b0 y) ?_ fun _ => ?_; unfold y; clear y; rotate_left; clear_value y) | (refine keep_cut (p := ∀ z, Held b0 z → Held b0 (y z)) ?_ fun hf1 => ?_; unfold y; clear y; rotate_left; clear_value y) | (refine keep_cut (p := ∀ z a, Held b0 z → Held b0 (y z a)) ?_ fun hf2 => ?_; unfold y; clear y; rotate_left; clear_value y) | (refine keep_cut (p := ∀ z a b, Held b0 z → Held b0 (y z a b)) ?_ fun hf3 => ?_; unfold y; clear y; rotate_left; clear_value y) | (refine keep_cut (p := ∀ a, Held b0 (y a)) ?_ fun hf4 => ?_; unfold y; clear y; rotate_left; clear_value y) | (refine keep_cut (p := ∀ a b, Held b0 (y a b)) ?_ fun hf5 => ?_; unfold y; clear y; rotate_left; clear_value y) | clear_value y)
    | split | (dsimp only)

theorem keep_State_statBag {b0 : State} {s : State} {gal table mabs : Nat} {sat : Bool} (h : Held b0 s) :
    Held b0 (State.statBag s gal table mabs sat) := by
  unfold State.statBag
  repeat' with_reducible first
    | assumption | intro _ | apply keep_State_statWrite | apply keep_State_modGal | apply keep_State_draw
    | apply Held_ite | apply Held_ite1
    | (apply Held_id; extract_lets -underBinder +onlyGivenNames y; first | (refine keep_cut (p := Held b0 y) ?_ fun _ => ?_; unfold y; clear y; rotate_left; clear_value y) | clear_value y)
    | refine Held_fst (by assumption) ?_ | split | (dsimp only)

theorem keep_State_bagWritten {b0 : State} {s : State} {seq : Nat} (h : Held b0 s) :
    Held b0 (State.bagWritten s seq) := by
  unfold State.bagWritten
  repeat' with_reducible first
    | assumption | intro _ | apply keep_State_endItem | apply keep_State_modItem | apply Held_ite | apply Held_ite1
    | (apply Held_id; extract_lets -underBinder +onlyGivenNames y; first | (refine keep_cut (p := Held b0 y) ?_ fun _ => ?_; unfold y; clear y; rotate_left; clear_value y) | clear_value y)
    | split | (dsimp only)

theorem keep_writeTiles {b0 : State} {s : State} {seq gal tenant dest : Nat} {lst : List (Nat × List Byte)}
    (h : Held b0 s) :
    Held b0 (writeTiles s seq gal tenant dest lst) := by
  induction lst generalizing s seq gal tenant dest with
  | nil =>
    unfold writeTiles
    repeat' with_reducible first
      | assumption | intro _ | apply keep_State_bagWritten | apply keep_State_failItem | apply keep_State_hostAcc
      | apply Held_ite | apply Held_ite1
      | (apply Held_id; extract_lets -underBinder +onlyGivenNames y; first | (refine keep_cut (p := Held b0 y) ?_ fun _ => ?_; unfold y; clear y; rotate_left; clear_value y) | (refine keep_cut (p := Held b0 y.1) ?_ fun _ => ?_; unfold y; clear y; rotate_left; clear_value y) | clear_value y)
      | refine Held_fst (by assumption) ?_ | split | (dsimp only)
  | cons x r ih =>
    unfold writeTiles
    repeat' with_reducible first
      | assumption | intro _ | apply ih | apply keep_State_bagWritten | apply keep_State_failItem
      | apply keep_State_hostAcc | apply Held_ite | apply Held_ite1
      | (apply Held_id; extract_lets -underBinder +onlyGivenNames y; first | (refine keep_cut (p := Held b0 y) ?_ fun _ => ?_; unfold y; clear y; rotate_left; clear_value y) | (refine keep_cut (p := Held b0 y.1) ?_ fun _ => ?_; unfold y; clear y; rotate_left; clear_value y) | clear_value y)
      | refine Held_fst (by assumption) ?_ | split | (dsimp only)

theorem keep_State_deliver {b0 : State} {s : State} {seq : Nat} (h : Held b0 s) :
    Held b0 (State.deliver s seq) := by
  unfold State.deliver
  repeat' with_reducible first
    | assumption | intro _ | apply keep_writeTiles | apply keep_State_injectedOne | apply keep_State_endItem
    | apply keep_State_modItem | apply keep_State_modXlt | apply keep_State_engWrite | apply keep_State_emit
    | apply Held_ite | apply Held_ite1
    | (apply Held_id; extract_lets -underBinder +onlyGivenNames y; first | (refine keep_cut (p := Held b0 y) ?_ fun _ => ?_; unfold y; clear y; rotate_left; clear_value y) | clear_value y)
    | refine Held_fst (by assumption) ?_ | split | (dsimp only)

theorem keep_State_settleBag {b0 : State} {s : State} {seq k : Nat} (h : Held b0 s) :
    Held b0 (State.settleBag s seq k) := by
  unfold State.settleBag
  repeat' with_reducible first
    | assumption | intro _ | apply keep_State_deliver | apply keep_State_modBag | apply Held_ite | apply Held_ite1
    | (apply Held_id; extract_lets -underBinder +onlyGivenNames y; first | (refine keep_cut (p := Held b0 y) ?_ fun _ => ?_; unfold y; clear y; rotate_left; clear_value y) | clear_value y)
    | split | (dsimp only)

theorem keep_State_widenWritten {b0 : State} {s : State} {seq k off : Nat} (h : Held b0 s) :
    Held b0 (State.widenWritten s seq k off) := by
  unfold State.widenWritten
  repeat' with_reducible first
    | assumption | intro _ | apply keep_State_settleBag | apply keep_State_modBag | apply keep_State_bump | split
    | (dsimp only)

theorem keep_State_widenLost {b0 : State} {s : State} {seq k : Nat} (h : Held b0 s) :
    Held b0 (State.widenLost s seq k) := by
  unfold State.widenLost
  repeat' with_reducible first
    | assumption | intro _ | apply keep_State_settleBag | apply keep_State_bump | split | (dsimp only)

theorem keep_State_widenHead {b0 : State} {s : State} {seq k : Nat} {ctl : List Byte} (h : Held b0 s) :
    Held b0 (State.widenHead s seq k ctl) := by
  unfold State.widenHead
  repeat' with_reducible first
    | assumption | intro _ | apply keep_State_widenLost | apply keep_State_widenWritten | apply keep_State_failItem
    | apply keep_State_hostTile | apply Held_ite | apply Held_ite1
    | (apply Held_id; extract_lets -underBinder +onlyGivenNames y; first | (refine keep_cut (p := Held b0 y) ?_ fun _ => ?_; unfold y; clear y; rotate_left; clear_value y) | clear_value y)
    | refine Held_fst (by assumption) ?_ | split | (dsimp only)

theorem keep_State_widenOrSettle {b0 : State} {s : State} {seq k : Nat} (h : Held b0 s) :
    Held b0 (State.widenOrSettle s seq k) := by
  unfold State.widenOrSettle
  repeat' with_reducible first
    | assumption | intro _ | apply keep_State_widenHead | apply keep_State_widenLost | apply keep_State_settleBag
    | apply keep_State_failItem | apply keep_State_hostAcc | apply Held_ite | apply Held_ite1
    | (apply Held_id; extract_lets -underBinder +onlyGivenNames y; first | (refine keep_cut (p := Held b0 y) ?_ fun _ => ?_; unfold y; clear y; rotate_left; clear_value y) | clear_value y)
    | refine Held_fst (by assumption) ?_ | split | (dsimp only)

theorem keep_State_startRerun {b0 : State} {s : State} {seq k : Nat} {whole : Bool} (h : Held b0 s) :
    Held b0 (State.startRerun s seq k whole) := by
  unfold State.startRerun
  repeat' with_reducible first
    | assumption | intro _ | apply keep_State_modBag | apply Held_ite | apply Held_ite1 | split | (dsimp only)

theorem keep_State_bagFinish {b0 : State} {s : State} {seq k : Nat} (h : Held b0 s) :
    Held b0 (State.bagFinish s seq k) := by
  unfold State.bagFinish
  repeat' with_reducible first
    | assumption | intro _ | apply keep_State_startRerun | apply keep_State_widenOrSettle
    | apply keep_State_statBag | apply keep_State_modBag | apply keep_State_bump | apply Held_ite | apply Held_ite1
    | (apply Held_id; extract_lets -underBinder +onlyGivenNames y; first | (refine keep_cut (p := Held b0 y) ?_ fun _ => ?_; unfold y; clear y; rotate_left; clear_value y) | clear_value y)
    | refine Held_fst (by assumption) ?_ | split | (dsimp only)

/-! ### GalOps -/

theorem keep_State_setWork {b0 : State} {s : State} {seq : Nat} {w : Work} (h : Held b0 s) :
    Held b0 (State.setWork s seq w) := by
  unfold State.setWork
  repeat' with_reducible first
    | assumption | intro _ | apply keep_State_modItem | split | (dsimp only)

theorem keep_State_chunksDone {b0 : State} {s : State} {seq : Nat} (h : Held b0 s) :
    Held b0 (State.chunksDone s seq) := by
  unfold State.chunksDone
  repeat' with_reducible first
    | assumption | intro _ | apply keep_State_modItem | split | (dsimp only)

theorem keep_State_dropTile {b0 : State} {s : State} {k : Nat} (h : Held b0 s) :
    Held b0 (State.dropTile s k) := by
  unfold State.dropTile
  repeat' with_reducible first
    | assumption | intro _ | (simp -zeta -beta -iota -proj only [Held_mk]) | apply Held_of | split | (dsimp only)

theorem keep_State_putInput {b0 : State} {s : State} {seq key : Nat} {data : List Byte} (h : Held b0 s) :
    Held b0 (State.putInput s seq key data) := by
  unfold State.putInput
  repeat' with_reducible first
    | assumption | intro _ | apply keep_State_modItem | split | (dsimp only)

theorem keep_State_needInput {b0 : State} {s : State} {seq key wh : Nat} {eng : Bool} {addr len : Nat}
    (h : Held b0 s) :
    Held b0 (State.needInput s seq key wh eng addr len) := by
  unfold State.needInput
  repeat' with_reducible first
    | assumption | intro _ | apply keep_State_putInput | apply keep_State_failItem | apply keep_State_detect
    | apply keep_State_hostAcc | apply keep_State_engRead | apply keep_State_drawRange | apply Held_ite
    | apply Held_ite1
    | (apply Held_id; extract_lets -underBinder +onlyGivenNames y; first | (refine keep_cut (p := Held b0 y) ?_ fun _ => ?_; unfold y; clear y; rotate_left; clear_value y) | (refine keep_cut (p := Held b0 y.1) ?_ fun _ => ?_; unfold y; clear y; rotate_left; clear_value y) | clear_value y)
    | refine Held_fst (by assumption) ?_ | split | (dsimp only)

theorem keep_State_readWeightRow {b0 : State} {s : State} {tenant table slot row : Nat} (h : Held b0 s) :
    Held b0 (State.readWeightRow s tenant table slot row).1 := by
  unfold State.readWeightRow
  repeat' with_reducible first
    | assumption | intro _ | apply keep_State_lookRow | apply keep_State_engRead | apply keep_State_stwRead
    | apply keep_State_drawRange | apply keep_State_rcAlloc | apply Held_ite | apply Held_ite1
    | (apply Held_id; extract_lets -underBinder +onlyGivenNames y; first | (refine keep_cut (p := Held b0 y) ?_ fun _ => ?_; unfold y; clear y; rotate_left; clear_value y) | clear_value y)
    | refine Held_fst (by assumption) ?_ | apply Held_foldl | apply Held_foldl1 | split | (dsimp only)

theorem keep_State_readWeights {b0 : State} {s : State} {tenant table slot first n : Nat} (h : Held b0 s) :
    Held b0 (State.readWeights s tenant table slot first n).1 := by
  unfold State.readWeights
  repeat' with_reducible first
    | assumption | intro _ | apply keep_State_readWeightRow | apply Held_ite | apply Held_ite1
    | (apply Held_id; extract_lets -underBinder +onlyGivenNames y; first | (refine keep_cut (p := Held b0 y) ?_ fun _ => ?_; unfold y; clear y; rotate_left; clear_value y) | (refine keep_cut (p := Held b0 y.1) ?_ fun _ => ?_; unfold y; clear y; rotate_left; clear_value y) | clear_value y)
    | refine Held_fst (by assumption) ?_ | apply Held_foldl | apply Held_foldl1 | split | (dsimp only)

theorem keep_State_refundActs {b0 : State} {s : State} {c : Chunk} {pages : List Nat} (h : Held b0 s) :
    Held b0 (State.refundActs s c pages) := by
  unfold State.refundActs
  repeat' with_reducible first
    | assumption | intro _ | apply keep_State_refund
    | (apply Held_id; extract_lets -underBinder +onlyGivenNames y; first | (refine keep_cut (p := Held b0 y) ?_ fun _ => ?_; unfold y; clear y; rotate_left; clear_value y) | clear_value y)
    | split | (dsimp only)

theorem keep_State_clearWork {b0 : State} {s : State} {seq : Nat} (h : Held b0 s) :
    Held b0 (State.clearWork s seq) := by
  unfold State.clearWork
  repeat' with_reducible first
    | assumption | intro _ | apply Held_ite | apply Held_ite1 | (simp -zeta -beta -iota -proj only [Held_mk])
    | refine Held_gals (Held_of ?_) (by simp [length_updAt]; done) | apply Held_of | split | (dsimp only)

theorem keep_State_runDone {b0 : State} {s : State} {seq : Nat} {bytes : List Byte} (h : Held b0 s) :
    Held b0 (State.runDone s seq bytes) := by
  unfold State.runDone
  repeat' with_reducible first
    | assumption | intro _ | apply keep_State_clearWork | apply keep_State_modItem
    | (apply Held_id; extract_lets -underBinder +onlyGivenNames y; first | (refine keep_cut (p := Held b0 y) ?_ fun _ => ?_; unfold y; clear y; rotate_left; clear_value y) | (refine keep_cut (p := Held b0 y.1) ?_ fun _ => ?_; unfold y; clear y; rotate_left; clear_value y) | clear_value y)
    | split | (dsimp only)

theorem keep_State_modTile {b0 : State} {s : State} {key : Nat} {f : Tile → Tile} (h : Held b0 s) :
    Held b0 (State.modTile s key f) := by
  unfold State.modTile
  repeat' with_reducible first
    | assumption | intro _ | (simp -zeta -beta -iota -proj only [Held_mk]) | apply Held_of | split | (dsimp only)

theorem keep_State_chargeTileSpill {b0 : State} {s : State} (h : Held b0 s) :
    Held b0 (State.chargeTileSpill s) := by
  unfold State.chargeTileSpill
  repeat' with_reducible first
    | assumption | intro _ | apply keep_State_modFlt
    | (apply Held_id; extract_lets -underBinder +onlyGivenNames y; first | (refine keep_cut (p := Held b0 y) ?_ fun _ => ?_; unfold y; clear y; rotate_left; clear_value y) | clear_value y)
    | refine Held_cpy (Held_of ?_) (by simp [length_updAt]; done) | split | (dsimp only)

theorem keep_State_tileSpilled {b0 : State} {s : State} {key : Nat} (h : Held b0 s) :
    Held b0 (State.tileSpilled s key) := by
  unfold State.tileSpilled
  repeat' with_reducible first
    | assumption | intro _ | apply keep_State_modTile | apply keep_State_bump | apply Held_ite | apply Held_ite1
    | split | (dsimp only)

theorem keep_State_spillFault {b0 : State} {s : State} {key : Nat} (h : Held b0 s) :
    Held b0 (State.spillFault s key) := by
  unfold State.spillFault
  repeat' with_reducible first
    | assumption | intro _ | apply keep_State_modTile | apply keep_State_bump | split | (dsimp only)

theorem keep_State_spillForSlot {b0 : State} {s : State} {seq : Nat} (h : Held b0 s) :
    Held b0 (State.spillForSlot s seq) := by
  unfold State.spillForSlot
  repeat' with_reducible first
    | assumption | intro _ | apply keep_State_spillFault | apply keep_State_tileSpilled
    | apply keep_State_chargeTileSpill | apply keep_State_modItem | apply keep_State_hostAcc
    | apply keep_State_bump | apply hf1 | apply hf2 | apply hf3 | apply hf4 | apply hf5 | apply Held_ite
    | apply Held_ite1
    | (apply Held_id; extract_lets -underBinder +onlyGivenNames y; first | (refine keep_cut (p := Held b0 y) ?_ fun _ => ?_; unfold y; clear y; rotate_left; clear_value y) | (refine keep_cut (p := Held b0 y.1) ?_ fun _ => ?_; unfold y; clear y; rotate_left; clear_value y) | (refine keep_cut (p := ∀ z, Held b0 z → Held b0 (y z)) ?_ fun hf1 => ?_; unfold y; clear y; rotate_left; clear_value y) | (refine keep_cut (p := ∀ z a, Held b0 z → Held b0 (y z a)) ?_ fun hf2 => ?_; unfold y; clear y; rotate_left; clear_value y) | (refine keep_cut (p := ∀ z a b, Held b0 z → Held b0 (y z a b)) ?_ fun hf3 => ?_; unfold y; clear y; rotate_left; clear_value y) | (refine keep_cut (p := ∀ a, Held b0 (y a)) ?_ fun hf4 => ?_; unfold y; clear y; rotate_left; clear_value y) | (refine keep_cut (p := ∀ a b, Held b0 (y a b)) ?_ fun hf5 => ?_; unfold y; clear y; rotate_left; clear_value y) | clear_value y)
    | refine Held_fst (by assumption) ?_ | apply Held_foldl | apply Held_foldl1 | split | (dsimp only)

theorem keep_State_loadReqs {b0 : State} {s : State} {gal set : Nat} {reqs : List Requant} {sums rsums : List Int}
    (h : Held b0 s) :
    Held b0 (State.loadReqs s gal set reqs sums rsums) := by
  unfold State.loadReqs
  repeat' with_reducible first
    | assumption | intro _ | apply keep_State_modGal | apply Held_foldl | apply Held_foldl1 | split | (dsimp only)

theorem keep_State_arrayDone {b0 : State} {s : State} {seq : Nat} (h : Held b0 s) :
    Held b0 (State.arrayDone s seq) := by
  unfold State.arrayDone
  repeat' with_reducible first
    | assumption | intro _ | apply keep_State_loadReqs | apply keep_State_modTile | apply keep_State_dropTile
    | apply keep_State_endItem | apply keep_State_bump | apply Held_ite | apply Held_ite1
    | (apply Held_id; extract_lets -underBinder +onlyGivenNames y; first | (refine keep_cut (p := Held b0 y) ?_ fun _ => ?_; unfold y; clear y; rotate_left; clear_value y) | (refine keep_cut (p := Held b0 y.1) ?_ fun _ => ?_; unfold y; clear y; rotate_left; clear_value y) | clear_value y)
    | apply Held_foldl | apply Held_foldl1 | split | (dsimp only)

theorem keep_State_arrayExec {b0 : State} {s : State} {seq : Nat} (h : Held b0 s) :
    Held b0 (State.arrayExec s seq) := by
  unfold State.arrayExec
  repeat' with_reducible first
    | assumption | intro _ | apply keep_State_arrayDone | apply keep_State_runDone | apply keep_State_injected
    | apply keep_State_failItem | apply keep_State_modItem | apply keep_State_hostTile | apply keep_State_modXlt
    | apply keep_State_engWrite | apply keep_State_draw | apply keep_State_emit | apply Held_ite | apply Held_ite1
    | (apply Held_id; extract_lets -underBinder +onlyGivenNames y; first | (refine keep_cut (p := Held b0 y) ?_ fun _ => ?_; unfold y; clear y; rotate_left; clear_value y) | (refine keep_cut (p := Held b0 y.1) ?_ fun _ => ?_; unfold y; clear y; rotate_left; clear_value y) | clear_value y)
    | refine Held_fst (by assumption) ?_ | apply Held_foldl | apply Held_foldl1 | split | (dsimp only)

theorem keep_State_failAdmit {b0 : State} {s : State} {seq : Nat} {c : Chunk} {e : Ending} (h : Held b0 s) :
    Held b0 (State.failAdmit s seq c e) := by
  unfold State.failAdmit
  repeat' with_reducible first
    | assumption | intro _ | apply keep_State_failChunk | split | (dsimp only)

theorem keep_State_askRestore {b0 : State} {s : State} {seq key : Nat} (h : Held b0 s) :
    Held b0 (State.askRestore s seq key) := by
  unfold State.askRestore
  repeat' with_reducible first
    | assumption | intro _ | apply keep_State_failItem | apply keep_State_hotCount | apply keep_State_hostAcc
    | apply Held_ite | apply Held_ite1
    | (apply Held_id; extract_lets -underBinder +onlyGivenNames y; first | (refine keep_cut (p := Held b0 y) ?_ fun _ => ?_; unfold y; clear y; rotate_left; clear_value y) | (refine keep_cut (p := Held b0 y.1) ?_ fun _ => ?_; unfold y; clear y; rotate_left; clear_value y) | clear_value y)
    | refine Held_fst (by assumption) ?_ | apply Held_foldl | apply Held_foldl1 | split | (dsimp only)

theorem keep_State_tileRestored {b0 : State} {s : State} {seq key : Nat} {data : List Byte} (h : Held b0 s) :
    Held b0 (State.tileRestored s seq key data) := by
  unfold State.tileRestored
  repeat' with_reducible first
    | assumption | intro _ | apply keep_State_modTile | apply keep_State_modItem | apply keep_State_bump
    | (apply Held_id; extract_lets -underBinder +onlyGivenNames y; first | (refine keep_cut (p := Held b0 y) ?_ fun _ => ?_; unfold y; clear y; rotate_left; clear_value y) | clear_value y)
    | split | (dsimp only)

theorem keep_State_takeTile {b0 : State} {s : State} {seq key town : Nat} {real : Bool} {gal : Nat} (h : Held b0 s) :
    Held b0 (State.takeTile s seq key town real gal) := by
  unfold State.takeTile
  repeat' with_reducible first
    | assumption | intro _ | apply keep_State_askRestore | apply keep_State_modTile | apply keep_State_draw
    | apply Held_ite | apply Held_ite1 | (simp -zeta -beta -iota -proj only [Held_mk])
    | (apply Held_id; extract_lets -underBinder +onlyGivenNames y; first | (refine keep_cut (p := Held b0 y) ?_ fun _ => ?_; unfold y; clear y; rotate_left; clear_value y) | clear_value y)
    | apply Held_of | split | (dsimp only)

theorem keep_State_startArray {b0 : State} {s : State} {seq : Nat} {c : Chunk} (h : Held b0 s) :
    Held b0 (State.startArray s seq c) := by
  unfold State.startArray
  repeat' with_reducible first
    | assumption | intro _ | apply keep_State_takeTile | apply keep_State_failAdmit | apply keep_State_arrayExec
    | apply keep_State_refundActs | apply keep_State_readWeights | apply keep_State_needInput
    | apply keep_State_putInput | apply keep_State_dropTile | apply keep_State_setWork | apply keep_State_failItem
    | apply keep_State_endItem | apply Held_ite | apply Held_ite1
    | (apply Held_id; extract_lets -underBinder +onlyGivenNames y; first | (refine keep_cut (p := Held b0 y) ?_ fun _ => ?_; unfold y; clear y; rotate_left; clear_value y) | (refine keep_cut (p := Held b0 y.1) ?_ fun _ => ?_; unfold y; clear y; rotate_left; clear_value y) | clear_value y)
    | refine Held_fst (by assumption) ?_ | split | (dsimp only)

theorem keep_State_tileDone {b0 : State} {s : State} {seq : Nat} (h : Held b0 s) :
    Held b0 (State.tileDone s seq) := by
  unfold State.tileDone
  repeat' with_reducible first
    | assumption | intro _ | apply keep_State_modTile | apply keep_State_dropTile | apply keep_State_endItem
    | apply Held_ite | apply Held_ite1
    | (apply Held_id; extract_lets -underBinder +onlyGivenNames y; first | (refine keep_cut (p := Held b0 y) ?_ fun _ => ?_; unfold y; clear y; rotate_left; clear_value y) | (refine keep_cut (p := Held b0 y.1) ?_ fun _ => ?_; unfold y; clear y; rotate_left; clear_value y) | clear_value y)
    | split | (dsimp only)

theorem keep_State_tileExec {b0 : State} {s : State} {seq : Nat} (h : Held b0 s) :
    Held b0 (State.tileExec s seq) := by
  unfold State.tileExec
  repeat' with_reducible first
    | assumption | intro _ | apply keep_State_tileDone | apply keep_State_injectedOne | apply keep_State_failItem
    | apply keep_State_modItem | apply keep_State_hostAcc | apply keep_State_engWrite | apply Held_ite
    | apply Held_ite1
    | (apply Held_id; extract_lets -underBinder +onlyGivenNames y; first | (refine keep_cut (p := Held b0 y) ?_ fun _ => ?_; unfold y; clear y; rotate_left; clear_value y) | clear_value y)
    | refine Held_fst (by assumption) ?_ | split | (dsimp only)

theorem keep_State_startTile {b0 : State} {s : State} {seq : Nat} {c : Chunk} (h : Held b0 s) :
    Held b0 (State.startTile s seq c) := by
  unfold State.startTile
  repeat' with_reducible first
    | assumption | intro _ | apply keep_State_tileExec | apply keep_State_takeTile | apply keep_State_failAdmit
    | apply keep_State_needInput | apply Held_ite | apply Held_ite1
    | (apply Held_id; extract_lets -underBinder +onlyGivenNames y; first | (refine keep_cut (p := Held b0 y) ?_ fun _ => ?_; unfold y; clear y; rotate_left; clear_value y) | clear_value y)
    | split | (dsimp only)

theorem keep_State_vecWrite {b0 : State} {s : State} {seq wh addr base : Nat} {bs : List Byte} (h : Held b0 s) :
    Held b0 (State.vecWrite s seq wh addr base bs).1 := by
  unfold State.vecWrite
  repeat' with_reducible first
    | assumption | intro _ | apply keep_State_putInput | apply keep_State_injectedOne | apply keep_State_failItem
    | apply keep_State_modItem | apply keep_State_hostAcc | apply keep_State_engWrite | apply Held_ite
    | apply Held_ite1
    | (apply Held_id; extract_lets -underBinder +onlyGivenNames y; first | (refine keep_cut (p := Held b0 y) ?_ fun _ => ?_; unfold y; clear y; rotate_left; clear_value y) | clear_value y)
    | refine Held_fst (by assumption) ?_ | split | (dsimp only)

theorem keep_State_vecPassDone {b0 : State} {s : State} {seq : Nat} (h : Held b0 s) :
    Held b0 (State.vecPassDone s seq) := by
  unfold State.vecPassDone
  repeat' with_reducible first
    | assumption | intro _ | apply keep_State_setWork
    | (apply Held_id; extract_lets -underBinder +onlyGivenNames y; first | (refine keep_cut (p := Held b0 y) ?_ fun _ => ?_; unfold y; clear y; rotate_left; clear_value y) | clear_value y)
    | split | (dsimp only)

theorem keep_State_vecRed {b0 : State} {s : State} {seq : Nat} (h : Held b0 s) :
    Held b0 (State.vecRed s seq).1 := by
  unfold State.vecRed
  repeat' with_reducible first
    | assumption | intro _ | apply keep_State_vecWrite | apply Held_ite | apply Held_ite1
    | (apply Held_id; extract_lets -underBinder +onlyGivenNames y; first | (refine keep_cut (p := Held b0 y) ?_ fun _ => ?_; unfold y; clear y; rotate_left; clear_value y) | clear_value y)
    | split | (dsimp only)

theorem keep_vecGo {b0 : State} {s : State} {seq fuel : Nat} (h : Held b0 s) :
    Held b0 (vecGo s seq fuel) := by
  induction fuel generalizing s seq with
  | zero =>
    unfold vecGo
    repeat' with_reducible first
      | assumption | intro _ | apply keep_State_vecRed | apply keep_State_vecPassDone | apply keep_State_vecWrite
      | apply keep_State_runDone | apply keep_State_needInput | apply keep_State_endItem | apply Held_ite
      | apply Held_ite1
      | (apply Held_id; extract_lets -underBinder +onlyGivenNames y; first | (refine keep_cut (p := Held b0 y) ?_ fun _ => ?_; unfold y; clear y; rotate_left; clear_value y) | clear_value y)
      | refine Held_fst (by assumption) ?_ | split | (dsimp only)
  | succ k ih =>
    unfold vecGo
    repeat' with_reducible first
      | assumption | intro _ | apply ih | apply keep_State_vecRed | apply keep_State_vecPassDone
      | apply keep_State_vecWrite | apply keep_State_runDone | apply keep_State_needInput
      | apply keep_State_endItem | apply Held_ite | apply Held_ite1
      | (apply Held_id; extract_lets -underBinder +onlyGivenNames y; first | (refine keep_cut (p := Held b0 y) ?_ fun _ => ?_; unfold y; clear y; rotate_left; clear_value y) | clear_value y)
      | refine Held_fst (by assumption) ?_ | split | (dsimp only)

theorem keep_State_vecWritten {b0 : State} {s : State} {seq wh : Nat} (h : Held b0 s) :
    Held b0 (State.vecWritten s seq wh) := by
  unfold State.vecWritten
  repeat' with_reducible first
    | assumption | intro _ | apply keep_vecGo | apply keep_State_vecRed | apply keep_State_vecPassDone
    | apply keep_State_modItem | apply Held_ite | apply Held_ite1
    | (apply Held_id; extract_lets -underBinder +onlyGivenNames y; first | (refine keep_cut (p := Held b0 y) ?_ fun _ => ?_; unfold y; clear y; rotate_left; clear_value y) | clear_value y)
    | refine Held_fst (by assumption) ?_ | split | (dsimp only)

/-! ### Interact -/

theorem keep_State_interactPrep {b0 : State} {s : State} {seq : Nat} (h : Held b0 s) :
    Held b0 (State.interactPrep s seq) := by
  unfold State.interactPrep
  repeat' with_reducible first
    | assumption | intro _ | apply keep_State_needInput | apply keep_State_setWork | apply keep_State_failItem
    | apply Held_ite | apply Held_ite1
    | (apply Held_id; extract_lets -underBinder +onlyGivenNames y; first | (refine keep_cut (p := Held b0 y) ?_ fun _ => ?_; unfold y; clear y; rotate_left; clear_value y) | clear_value y)
    | split | (dsimp only)

theorem keep_State_stageDone {b0 : State} {s : State} {seq : Nat} {vecs : Option (List (List Nat))} {asat aovf : Bool}
    (h : Held b0 s) :
    Held b0 (State.stageDone s seq vecs asat aovf) := by
  unfold State.stageDone
  repeat' with_reducible first
    | assumption | intro _ | apply keep_State_chunksDone | apply keep_State_modItem | split | (dsimp only)

theorem keep_State_buildVec {b0 : State} {s : State} {seq : Nat} (h : Held b0 s) :
    Held b0 (State.buildVec s seq) := by
  unfold State.buildVec
  repeat' with_reducible first
    | assumption | intro _ | apply keep_State_stageDone | apply Held_ite | apply Held_ite1
    | (apply Held_id; extract_lets -underBinder +onlyGivenNames y; first | (refine keep_cut (p := Held b0 y) ?_ fun _ => ?_; unfold y; clear y; rotate_left; clear_value y) | (refine keep_cut (p := Held b0 y.1) ?_ fun _ => ?_; unfold y; clear y; rotate_left; clear_value y) | clear_value y)
    | split | (dsimp only)

theorem keep_State_runLayer {b0 : State} {s : State} {seq n : Nat} (h : Held b0 s) :
    Held b0 (State.runLayer s seq n) := by
  unfold State.runLayer
  repeat' with_reducible first
    | assumption | intro _ | apply keep_State_stageDone | apply keep_State_loadReqs | apply keep_State_failItem
    | apply Held_ite | apply Held_ite1
    | (apply Held_id; extract_lets -underBinder +onlyGivenNames y; first | (refine keep_cut (p := Held b0 y) ?_ fun _ => ?_; unfold y; clear y; rotate_left; clear_value y) | (refine keep_cut (p := Held b0 y.1) ?_ fun _ => ?_; unfold y; clear y; rotate_left; clear_value y) | clear_value y)
    | split | (dsimp only)

theorem keep_State_interactGo {b0 : State} {s : State} {seq : Nat} (h : Held b0 s) :
    Held b0 (State.interactGo s seq) := by
  unfold State.interactGo
  repeat' with_reducible first
    | assumption | intro _ | apply keep_State_runLayer | apply keep_State_buildVec | apply Held_ite
    | apply Held_ite1
    | (apply Held_id; extract_lets -underBinder +onlyGivenNames y; first | (refine keep_cut (p := Held b0 y) ?_ fun _ => ?_; unfold y; clear y; rotate_left; clear_value y) | clear_value y)
    | split | (dsimp only)

theorem keep_State_startStage {b0 : State} {s : State} {seq : Nat} {c : Chunk} (h : Held b0 s) :
    Held b0 (State.startStage s seq c) := by
  unfold State.startStage
  repeat' with_reducible first
    | assumption | intro _ | apply keep_State_interactGo | apply keep_State_stageDone | apply keep_State_failAdmit
    | apply keep_State_refundActs | apply keep_State_readWeights | apply keep_State_needInput
    | apply keep_State_putInput | apply keep_State_setWork | apply keep_State_failItem | apply Held_ite
    | apply Held_ite1
    | (apply Held_id; extract_lets -underBinder +onlyGivenNames y; first | (refine keep_cut (p := Held b0 y) ?_ fun _ => ?_; unfold y; clear y; rotate_left; clear_value y) | clear_value y)
    | refine Held_fst (by assumption) ?_ | split | (dsimp only)

theorem keep_State_interactDone {b0 : State} {s : State} {seq : Nat} (h : Held b0 s) :
    Held b0 (State.interactDone s seq) := by
  unfold State.interactDone
  repeat' with_reducible first
    | assumption | intro _ | apply keep_State_endItem | apply keep_State_bump | apply Held_ite | apply Held_ite1
    | (apply Held_id; extract_lets -underBinder +onlyGivenNames y; first | (refine keep_cut (p := Held b0 y) ?_ fun _ => ?_; unfold y; clear y; rotate_left; clear_value y) | clear_value y)
    | split | (dsimp only)

theorem keep_State_interactFinish {b0 : State} {s : State} {seq : Nat} (h : Held b0 s) :
    Held b0 (State.interactFinish s seq) := by
  unfold State.interactFinish
  repeat' with_reducible first
    | assumption | intro _ | apply keep_State_interactDone | apply keep_State_runDone
    | apply keep_State_injectedOne | apply keep_State_failItem | apply keep_State_modItem
    | apply keep_State_hostAcc | apply keep_State_modXlt | apply keep_State_engWrite | apply keep_State_emit
    | apply Held_ite | apply Held_ite1
    | (apply Held_id; extract_lets -underBinder +onlyGivenNames y; first | (refine keep_cut (p := Held b0 y) ?_ fun _ => ?_; unfold y; clear y; rotate_left; clear_value y) | clear_value y)
    | refine Held_fst (by assumption) ?_ | split | (dsimp only)

/-! ### Update -/

theorem keep_State_setCredit {b0 : State} {s : State} {home credit backoff : Nat} (h : Held b0 s) :
    Held b0 (State.setCredit s home credit backoff) := by
  unfold State.setCredit
  repeat' with_reducible first
    | assumption | intro _ | apply keep_State_modKite | apply keep_State_draw | apply Held_ite | apply Held_ite1
    | (apply Held_id; extract_lets -underBinder +onlyGivenNames y; first | (refine keep_cut (p := Held b0 y) ?_ fun _ => ?_; unfold y; clear y; rotate_left; clear_value y) | clear_value y)
    | split | (dsimp only)

theorem keep_State_combRoom {b0 : State} {s : State} {k : Nat} (h : Held b0 s) :
    Held b0 (State.combRoom s k) := by
  unfold State.combRoom
  repeat' with_reducible first
    | assumption | intro _ | apply keep_State_failLine | apply keep_State_addLine | apply Held_ite
    | apply Held_ite1
    | (apply Held_id; extract_lets -underBinder +onlyGivenNames y; first | (refine keep_cut (p := Held b0 y) ?_ fun _ => ?_; unfold y; clear y; rotate_left; clear_value y) | clear_value y)
    | split | (dsimp only)

theorem keep_State_addDelta {b0 : State} {s : State} {id table : Nat} {d : Delta} (h : Held b0 s) :
    Held b0 (State.addDelta s id table d).1 := by
  unfold State.addDelta
  repeat' with_reducible first
    | assumption | intro _ | apply keep_State_combRoom | apply keep_State_modServed | apply keep_State_modKite
    | apply Held_ite | apply Held_ite1
    | (apply Held_id; extract_lets -underBinder +onlyGivenNames y; first | (refine keep_cut (p := Held b0 y) ?_ fun _ => ?_; unfold y; clear y; rotate_left; clear_value y) | clear_value y)
    | split | (dsimp only)

theorem keep_State_addEntry {b0 : State} {s : State} {id table : Nat} {ds : List Delta} (h : Held b0 s) :
    Held b0 (State.addEntry s id table ds) := by
  unfold State.addEntry
  repeat' with_reducible first
    | assumption | intro _ | apply keep_State_addDelta | apply keep_State_bump | apply Held_ite | apply Held_ite1
    | (apply Held_id; extract_lets -underBinder +onlyGivenNames y; first | (refine keep_cut (p := Held b0 y) ?_ fun _ => ?_; unfold y; clear y; rotate_left; clear_value y) | clear_value y)
    | refine Held_fst (by assumption) ?_ | apply Held_foldl | apply Held_foldl1 | split | (dsimp only)

theorem keep_State_sendDual {b0 : State} {s : State} {id : Nat} {f : Frame} (h : Held b0 s) :
    Held b0 (State.sendDual s id f) := by
  unfold State.sendDual
  repeat' with_reducible first
    | assumption | intro _ | apply keep_State_sendKite | apply keep_State_chargeServed | apply keep_State_modServed
    | apply keep_State_bump
    | (apply Held_id; extract_lets -underBinder +onlyGivenNames y; first | (refine keep_cut (p := Held b0 y) ?_ fun _ => ?_; unfold y; clear y; rotate_left; clear_value y) | clear_value y)
    | refine Held_fst (by assumption) ?_ | split | (dsimp only)

theorem keep_State_kiteAdds {b0 : State} {s : State} {id : Nat} {f : Frame} {t : Table} {m : UpdMsg} (h : Held b0 s) :
    Held b0 (State.kiteAdds s id f t m) := by
  unfold State.kiteAdds
  repeat' with_reducible first
    | assumption | intro _ | apply keep_State_sendDual | apply keep_State_addEntry | apply keep_State_countLoad
    | apply keep_State_modServed | apply keep_State_modKite | apply Held_ite | apply Held_ite1
    | (apply Held_id; extract_lets -underBinder +onlyGivenNames y; first | (refine keep_cut (p := Held b0 y) ?_ fun _ => ?_; unfold y; clear y; rotate_left; clear_value y) | (refine keep_cut (p := Held b0 y.1) ?_ fun _ => ?_; unfold y; clear y; rotate_left; clear_value y) | clear_value y)
    | refine Held_fst (by assumption) ?_ | apply Held_foldl | apply Held_foldl1 | split | (dsimp only)

theorem keep_State_dualRelease {b0 : State} {s : State} {table shard : Nat} {acked : Nat → Bool} (h : Held b0 s) :
    Held b0 (State.dualRelease s table shard acked) := by
  unfold State.dualRelease
  repeat' with_reducible first
    | assumption | intro _ | apply keep_State_sendDual | apply keep_State_modServed | apply keep_State_modKite
    | apply Held_ite | apply Held_ite1
    | (apply Held_id; extract_lets -underBinder +onlyGivenNames y; first | (refine keep_cut (p := Held b0 y) ?_ fun _ => ?_; unfold y; clear y; rotate_left; clear_value y) | clear_value y)
    | apply Held_foldl | apply Held_foldl1 | split | (dsimp only)

theorem keep_State_serveLocal {b0 : State} {s : State} {item : Nat} {f : Frame} (h : Held b0 s) :
    Held b0 (State.serveLocal s item f).1 := by
  unfold State.serveLocal
  repeat' with_reducible first
    | assumption | intro _ | apply keep_State_modKite
    | (apply Held_id; extract_lets -underBinder +onlyGivenNames y; first | (refine keep_cut (p := Held b0 y) ?_ fun _ => ?_; unfold y; clear y; rotate_left; clear_value y) | clear_value y)
    | split | (dsimp only)

theorem keep_State_updFinish {b0 : State} {s : State} {seq : Nat} (h : Held b0 s) :
    Held b0 (State.updFinish s seq) := by
  unfold State.updFinish
  repeat' with_reducible first
    | assumption | intro _ | apply keep_State_endItem | apply Held_ite | apply Held_ite1 | split | (dsimp only)

theorem keep_State_updPrep {b0 : State} {s : State} {seq : Nat} (h : Held b0 s) :
    Held b0 (State.updPrep s seq) := by
  unfold State.updPrep
  repeat' with_reducible first
    | assumption | intro _ | apply keep_State_needInput | apply keep_State_failItem | apply Held_ite
    | apply Held_ite1
    | (apply Held_id; extract_lets -underBinder +onlyGivenNames y; first | (refine keep_cut (p := Held b0 y) ?_ fun _ => ?_; unfold y; clear y; rotate_left; clear_value y) | clear_value y)
    | split | (dsimp only)

theorem keep_State_updChunkDone {b0 : State} {s : State} {seq chunk localN remoteN : Nat} {sat nan : Bool}
    (h : Held b0 s) :
    Held b0 (State.updChunkDone s seq chunk localN remoteN sat nan) := by
  unfold State.updChunkDone
  repeat' with_reducible first
    | assumption | intro _ | apply keep_State_updFinish | apply keep_State_modItem
    | (apply Held_id; extract_lets -underBinder +onlyGivenNames y; first | (refine keep_cut (p := Held b0 y) ?_ fun _ => ?_; unfold y; clear y; rotate_left; clear_value y) | clear_value y)
    | split | (dsimp only)

theorem keep_State_startLocal {b0 : State} {s : State} {seq : Nat} {c : Chunk} {p : UpdPkt} {f : Frame} {k : UpdKite}
    (h : Held b0 s) :
    Held b0 (State.startLocal s seq c p f k) := by
  unfold State.startLocal
  repeat' with_reducible first
    | assumption | intro _ | apply keep_State_serveLocal | apply keep_State_kiteAdds | apply keep_State_addEntry
    | apply keep_State_failItem | apply keep_State_sendKite | apply keep_State_forward | apply keep_State_modKite
    | apply keep_State_bump | apply Held_ite | apply Held_ite1
    | (apply Held_id; extract_lets -underBinder +onlyGivenNames y; first | (refine keep_cut (p := Held b0 y) ?_ fun _ => ?_; unfold y; clear y; rotate_left; clear_value y) | clear_value y)
    | refine Held_fst (by assumption) ?_ | apply Held_foldl | apply Held_foldl1 | split | (dsimp only)

theorem keep_State_startUpd {b0 : State} {s : State} {seq : Nat} {c : Chunk} {ks : List UpdKite} {rebinds : Nat}
    (h : Held b0 s) :
    Held b0 (State.startUpd s seq c ks rebinds) := by
  unfold State.startUpd
  repeat' with_reducible first
    | assumption | intro _ | apply keep_State_startLocal | apply keep_State_updPrep | apply keep_State_refundActs
    | apply keep_State_setWork | apply keep_State_failChunk | apply keep_State_failItem | apply keep_State_sendKite
    | apply keep_State_bump | apply Held_ite | apply Held_ite1
    | (apply Held_id; extract_lets -underBinder +onlyGivenNames y; first | (refine keep_cut (p := Held b0 y) ?_ fun _ => ?_; unfold y; clear y; rotate_left; clear_value y) | clear_value y)
    | refine Held_fst (by assumption) ?_ | split | (dsimp only)

theorem keep_State_arrives {b0 : State} {s : State} {f : Frame} (h : Held b0 s) :
    Held b0 (State.arrives s f).1 := by
  unfold State.arrives
  repeat' with_reducible first
    | assumption | intro _ | apply keep_State_bump | apply Held_ite | apply Held_ite1 | split | (dsimp only)

theorem keep_State_nackSelf {b0 : State} {s : State} {f : Frame} {reason : Nat} (h : Held b0 s) :
    Held b0 (State.nackSelf s f reason) := by
  unfold State.nackSelf
  repeat' with_reducible first
    | assumption | intro _ | apply keep_State_replyServed | split | (dsimp only)

theorem keep_State_ledgerAdd {b0 : State} {s : State} {id tenant : Nat} {m : UpdMsg} (h : Held b0 s) :
    Held b0 (State.ledgerAdd s id tenant m) := by
  unfold State.ledgerAdd
  repeat' with_reducible first
    | assumption | intro _ | apply keep_State_modKite | split | (dsimp only)

theorem keep_State_inboxTake {b0 : State} {s : State} {id : Nat} {f : Frame} (h : Held b0 s) :
    Held b0 (State.inboxTake s id f) := by
  unfold State.inboxTake
  repeat' with_reducible first
    | assumption | intro _ | apply keep_State_touchSlot | apply keep_State_stwWrite | apply keep_State_modKite
    | apply keep_State_draw
    | (apply Held_id; extract_lets -underBinder +onlyGivenNames y; first | (refine keep_cut (p := Held b0 y) ?_ fun _ => ?_; unfold y; clear y; rotate_left; clear_value y) | (refine keep_cut (p := Held b0 y.1) ?_ fun _ => ?_; unfold y; clear y; rotate_left; clear_value y) | clear_value y)
    | apply Held_foldl | apply Held_foldl1 | split | (dsimp only)

theorem keep_State_updArrive {b0 : State} {s : State} {f : Frame} {t : Table} {m : UpdMsg} (h : Held b0 s) :
    Held b0 (State.updArrive s f t m) := by
  unfold State.updArrive
  repeat' with_reducible first
    | assumption | intro _ | apply keep_State_inboxTake | apply keep_State_ledgerAdd | apply keep_State_nackSelf
    | apply keep_State_forward | apply keep_State_replyServed | apply keep_State_modKite | apply keep_State_bump
    | apply Held_ite | apply Held_ite1
    | (apply Held_id; extract_lets -underBinder +onlyGivenNames y; first | (refine keep_cut (p := Held b0 y) ?_ fun _ => ?_; unfold y; clear y; rotate_left; clear_value y) | clear_value y)
    | split | (dsimp only)

theorem keep_State_updCheck {b0 : State} {s : State} {f : Frame} (h : Held b0 s) :
    Held b0 (State.updCheck s f) := by
  unfold State.updCheck
  repeat' with_reducible first
    | assumption | intro _ | apply keep_State_updArrive | apply keep_State_nackSelf | apply keep_State_replyServed
    | apply Held_ite | apply Held_ite1
    | (apply Held_id; extract_lets -underBinder +onlyGivenNames y; first | (refine keep_cut (p := Held b0 y) ?_ fun _ => ?_; unfold y; clear y; rotate_left; clear_value y) | clear_value y)
    | split | (dsimp only)

theorem keep_State_unserve {b0 : State} {s : State} {id : Nat} (h : Held b0 s) :
    Held b0 (State.unserve s id) := by
  unfold State.unserve
  repeat' with_reducible first
    | assumption | intro _ | apply keep_State_modXlt | apply keep_State_modKite | apply keep_State_modRc
    | (apply Held_id; extract_lets -underBinder +onlyGivenNames y; first | (refine keep_cut (p := Held b0 y) ?_ fun _ => ?_; unfold y; clear y; rotate_left; clear_value y) | clear_value y)
    | split | (dsimp only)

theorem keep_State_adderTakeOne {b0 : State} {s : State} (h : Held b0 s) :
    Held b0 (State.adderTakeOne s) := by
  unfold State.adderTakeOne
  repeat' with_reducible first
    | assumption | intro _ | apply keep_State_unserve | apply keep_State_kiteAdds | apply keep_State_forward
    | apply keep_State_chargeServed | apply keep_State_modServed | apply keep_State_modKite | apply Held_ite
    | apply Held_ite1
    | (apply Held_id; extract_lets -underBinder +onlyGivenNames y; first | (refine keep_cut (p := Held b0 y) ?_ fun _ => ?_; unfold y; clear y; rotate_left; clear_value y) | clear_value y)
    | split | (dsimp only)

theorem keep_State_inboxExpire {b0 : State} {s : State} (h : Held b0 s) :
    Held b0 (State.inboxExpire s) := by
  unfold State.inboxExpire
  repeat' with_reducible first
    | assumption | intro _ | apply keep_State_unserve | apply keep_State_modKite | apply keep_State_bump
    | (apply Held_id; extract_lets -underBinder +onlyGivenNames y; first | (refine keep_cut (p := Held b0 y) ?_ fun _ => ?_; unfold y; clear y; rotate_left; clear_value y) | clear_value y)
    | apply Held_foldl | apply Held_foldl1 | split | (dsimp only)

theorem keep_State_updAnswer {b0 : State} {s : State} {id : Nat} (h : Held b0 s) :
    Held b0 (State.updAnswer s id) := by
  unfold State.updAnswer
  repeat' with_reducible first
    | assumption | intro _ | apply keep_State_unserve | apply keep_State_updChunkDone | apply keep_State_failItem
    | apply keep_State_replyServed | apply keep_State_bump | apply Held_ite | apply Held_ite1
    | (apply Held_id; extract_lets -underBinder +onlyGivenNames y; first | (refine keep_cut (p := Held b0 y) ?_ fun _ => ?_; unfold y; clear y; rotate_left; clear_value y) | clear_value y)
    | refine Held_fst (by assumption) ?_ | split | (dsimp only)

theorem keep_State_combFlush {b0 : State} {s : State} {line : Nat} {ecc : Ecc} (h : Held b0 s) :
    Held b0 (State.combFlush s line ecc) := by
  unfold State.combFlush
  repeat' with_reducible first
    | assumption | intro _ | apply keep_State_lineUe | apply keep_State_lineCe | apply keep_State_failLine
    | apply keep_State_addLine | apply Held_ite | apply Held_ite1
    | (apply Held_id; extract_lets -underBinder +onlyGivenNames y; first | (refine keep_cut (p := Held b0 y) ?_ fun _ => ?_; unfold y; clear y; rotate_left; clear_value y) | (refine keep_cut (p := Held b0 y.1) ?_ fun _ => ?_; unfold y; clear y; rotate_left; clear_value y) | clear_value y)
    | split | (dsimp only)

theorem keep_redRead {b0 : State} {s : State} {part n : Nat} {lst : List Nat} (h : Held b0 s) :
    Held b0 (redRead s part n lst).1 := by
  induction lst generalizing s part n with
  | nil =>
    unfold redRead
    repeat' with_reducible first
      | assumption | intro _ | apply keep_State_engRead | apply keep_State_drawRange
      | (apply Held_id; extract_lets -underBinder +onlyGivenNames y; first | (refine keep_cut (p := Held b0 y) ?_ fun _ => ?_; unfold y; clear y; rotate_left; clear_value y) | clear_value y)
      | refine Held_fst (by assumption) ?_ | split | (dsimp only)
  | cons x r ih =>
    unfold redRead
    repeat' with_reducible first
      | assumption | intro _ | apply ih | apply keep_State_engRead | apply keep_State_drawRange
      | (apply Held_id; extract_lets -underBinder +onlyGivenNames y; first | (refine keep_cut (p := Held b0 y) ?_ fun _ => ?_; unfold y; clear y; rotate_left; clear_value y) | clear_value y)
      | refine Held_fst (by assumption) ?_ | split | (dsimp only)

theorem keep_State_reduceDone {b0 : State} {s : State} {i : Item} {next : Nat} {sat : Bool} {ds : List (List Byte)} {bad : Option Nat}
    (h : Held b0 s) :
    Held b0 (State.reduceDone s i next sat ds bad) := by
  unfold State.reduceDone
  repeat' with_reducible first
    | assumption | intro _ | apply keep_State_chunksDone | apply keep_State_setWork | apply keep_State_failItem
    | apply keep_State_endItem | apply keep_State_engWrite | apply keep_State_drawRange | apply Held_ite
    | apply Held_ite1
    | (apply Held_id; extract_lets -underBinder +onlyGivenNames y; first | (refine keep_cut (p := Held b0 y) ?_ fun _ => ?_; unfold y; clear y; rotate_left; clear_value y) | clear_value y)
    | split | (dsimp only)

theorem keep_State_reduceTile {b0 : State} {s : State} {i : Item} {c : Chunk} {next : Nat} {sat : Bool}
    (h : Held b0 s) :
    Held b0 (State.reduceTile s i c next sat) := by
  unfold State.reduceTile
  repeat' with_reducible first
    | assumption | intro _ | apply keep_State_reduceDone | apply keep_redRead | apply keep_State_refundActs
    | (apply Held_id; extract_lets -underBinder +onlyGivenNames y; first | (refine keep_cut (p := Held b0 y) ?_ fun _ => ?_; unfold y; clear y; rotate_left; clear_value y) | (refine keep_cut (p := Held b0 y.1) ?_ fun _ => ?_; unfold y; clear y; rotate_left; clear_value y) | clear_value y)
    | split | (dsimp only)

theorem keep_State_startReduce {b0 : State} {s : State} {seq : Nat} {c : Chunk} (h : Held b0 s) :
    Held b0 (State.startReduce s seq c) := by
  unfold State.startReduce
  repeat' with_reducible first
    | assumption | intro _ | apply keep_State_reduceTile | split | (dsimp only)

/-! ### Copy -/

theorem keep_State_modChan {b0 : State} {s : State} {ch : Nat} {f : Chan → Chan} (h : Held b0 s) :
    Held b0 (State.modChan s ch f) := by
  unfold State.modChan
  repeat' with_reducible first
    | assumption | intro _ | (simp -zeta -beta -iota -proj only [Held_mk])
    | refine Held_cpy (Held_of ?_) (by simp [length_updAt]; done) | apply Held_of | split | (dsimp only)

theorem keep_State_modTileC {b0 : State} {s : State} {seq n : Nat} {f : CpyTile → CpyTile} (h : Held b0 s) :
    Held b0 (State.modTileC s seq n f) := by
  unfold State.modTileC
  repeat' with_reducible first
    | assumption | intro _ | apply keep_State_modItem | split | (dsimp only)

theorem keep_State_cpyMayRead {b0 : State} {s : State} {ch : Nat} {lat : Bool} {beats : Nat} (h : Held b0 s) :
    Held b0 (State.cpyMayRead s ch lat beats).1 := by
  unfold State.cpyMayRead
  repeat' with_reducible first
    | assumption | intro _ | apply keep_State_modChan | apply Held_ite | apply Held_ite1
    | (apply Held_id; extract_lets -underBinder +onlyGivenNames y; first | (refine keep_cut (p := Held b0 y) ?_ fun _ => ?_; unfold y; clear y; rotate_left; clear_value y) | clear_value y)
    | split | (dsimp only)

theorem keep_State_cpyTileFail {b0 : State} {s : State} {seq n : Nat} {e : Ending} (h : Held b0 s) :
    Held b0 (State.cpyTileFail s seq n e) := by
  unfold State.cpyTileFail
  repeat' with_reducible first
    | assumption | intro _ | apply keep_State_modTileC | apply keep_State_modItem | apply Held_ite
    | apply Held_ite1
    | (apply Held_id; extract_lets -underBinder +onlyGivenNames y; first | (refine keep_cut (p := Held b0 y) ?_ fun _ => ?_; unfold y; clear y; rotate_left; clear_value y) | clear_value y)
    | split | (dsimp only)

theorem keep_State_cpyFail {b0 : State} {s : State} {seq : Nat} {e : Ending} (h : Held b0 s) :
    Held b0 (State.cpyFail s seq e) := by
  unfold State.cpyFail
  repeat' with_reducible first
    | assumption | intro _ | apply keep_State_failItem | split | (dsimp only)

theorem keep_State_cpyWritten {b0 : State} {s : State} {seq n : Nat} (h : Held b0 s) :
    Held b0 (State.cpyWritten s seq n) := by
  unfold State.cpyWritten
  repeat' with_reducible first
    | assumption | intro _ | apply keep_State_modTileC | apply keep_State_modItem | apply keep_State_setReg
    | apply Held_ite | apply Held_ite1
    | (apply Held_id; extract_lets -underBinder +onlyGivenNames y; first | (refine keep_cut (p := Held b0 y) ?_ fun _ => ?_; unfold y; clear y; rotate_left; clear_value y) | clear_value y)
    | split | (dsimp only)

theorem keep_State_cpyGot {b0 : State} {s : State} {seq n : Nat} {data : List Byte} (h : Held b0 s) :
    Held b0 (State.cpyGot s seq n data) := by
  unfold State.cpyGot
  repeat' with_reducible first
    | assumption | intro _ | apply keep_State_modTileC | split | (dsimp only)

theorem keep_State_cpyReadTile {b0 : State} {s : State} {ch : Nat} {i : Item} {n : Nat} {t : CpyTile}
    (h : Held b0 s) :
    Held b0 (State.cpyReadTile s ch i n t) := by
  unfold State.cpyReadTile
  repeat' with_reducible first
    | assumption | intro _ | apply keep_State_cpyGot | apply keep_State_cpyTileFail | apply keep_State_modTileC
    | apply keep_State_modItem | apply keep_State_detect | apply keep_State_hostAcc | apply keep_State_engRead
    | apply keep_State_drawRange | apply keep_State_bump | apply Held_ite | apply Held_ite1
    | (apply Held_id; extract_lets -underBinder +onlyGivenNames y; first | (refine keep_cut (p := Held b0 y) ?_ fun _ => ?_; unfold y; clear y; rotate_left; clear_value y) | clear_value y)
    | refine Held_fst (by assumption) ?_ | split | (dsimp only)

theorem keep_State_cpyPiece {b0 : State} {s : State} {i : Item} {n : Nat} {t : CpyTile} (h : Held b0 s) :
    Held b0 (State.cpyPiece s i n t) := by
  unfold State.cpyPiece
  repeat' with_reducible first
    | assumption | intro _ | apply keep_State_cpyTileFail | apply keep_State_modTileC | apply keep_State_sendKite
    | apply Held_ite | apply Held_ite1
    | (apply Held_id; extract_lets -underBinder +onlyGivenNames y; first | (refine keep_cut (p := Held b0 y) ?_ fun _ => ?_; unfold y; clear y; rotate_left; clear_value y) | clear_value y)
    | refine Held_fst (by assumption) ?_ | split | (dsimp only)

theorem keep_State_cpyWriteTile {b0 : State} {s : State} {ch : Nat} {i : Item} {n : Nat} {t : CpyTile}
    (h : Held b0 s) :
    Held b0 (State.cpyWriteTile s ch i n t) := by
  unfold State.cpyWriteTile
  repeat' with_reducible first
    | assumption | intro _ | apply keep_State_cpyWritten | apply keep_State_cpyTileFail | apply keep_State_modTileC
    | apply keep_State_hostAcc | apply keep_State_engWrite | apply keep_State_drawRange
    | (apply Held_id; extract_lets -underBinder +onlyGivenNames y; first | (refine keep_cut (p := Held b0 y) ?_ fun _ => ?_; unfold y; clear y; rotate_left; clear_value y) | clear_value y)
    | refine Held_fst (by assumption) ?_ | split | (dsimp only)

theorem keep_State_cpyStage {b0 : State} {s : State} {seq : Nat} {st : CpyStage} {crc : Word} (h : Held b0 s) :
    Held b0 (State.cpyStage s seq st crc) := by
  unfold State.cpyStage
  repeat' with_reducible first
    | assumption | intro _ | apply keep_State_modItem | split | (dsimp only)

theorem keep_State_cpySmall {b0 : State} {s : State} {ch : Nat} {i : Item} {tile addr : Nat} {bs : List Byte}
    (h : Held b0 s) :
    Held b0 (State.cpySmall s ch i tile addr bs).1 := by
  unfold State.cpySmall
  repeat' with_reducible first
    | assumption | intro _ | apply keep_State_cpyFail | apply keep_State_sendKite | apply keep_State_modItem
    | apply keep_State_hostAcc | apply keep_State_engWrite | apply keep_State_drawRange
    | (apply Held_id; extract_lets -underBinder +onlyGivenNames y; first | (refine keep_cut (p := Held b0 y) ?_ fun _ => ?_; unfold y; clear y; rotate_left; clear_value y) | clear_value y)
    | refine Held_fst (by assumption) ?_ | split | (dsimp only)

theorem keep_State_cpyEnd {b0 : State} {s : State} {i : Item} (h : Held b0 s) :
    Held b0 (State.cpyEnd s i) := by
  unfold State.cpyEnd
  repeat' with_reducible first
    | assumption | intro _ | apply keep_State_endItem | apply Held_ite | apply Held_ite1 | split | (dsimp only)

theorem keep_State_cpyToFlag {b0 : State} {s : State} {ch seq : Nat} {crc : Word} (h : Held b0 s) :
    Held b0 (State.cpyToFlag s ch seq crc) := by
  unfold State.cpyToFlag
  repeat' with_reducible first
    | assumption | intro _ | apply keep_State_cpyEnd | apply keep_State_cpySmall | apply keep_State_cpyStage
    | apply Held_ite | apply Held_ite1
    | (apply Held_id; extract_lets -underBinder +onlyGivenNames y; first | (refine keep_cut (p := Held b0 y) ?_ fun _ => ?_; unfold y; clear y; rotate_left; clear_value y) | clear_value y)
    | refine Held_fst (by assumption) ?_ | split | (dsimp only)

theorem keep_State_cpyNext {b0 : State} {s : State} {ch seq : Nat} {from_ : CpyStage} (h : Held b0 s) :
    Held b0 (State.cpyNext s ch seq from_) := by
  unfold State.cpyNext
  repeat' with_reducible first
    | assumption | intro _ | apply keep_State_cpyToFlag | apply keep_State_cpyEnd | apply keep_State_cpyStage
    | apply keep_State_cpyFail | apply keep_State_modItem | apply keep_State_hostAcc | apply Held_ite
    | apply Held_ite1
    | (apply Held_id; extract_lets -underBinder +onlyGivenNames y; first | (refine keep_cut (p := Held b0 y) ?_ fun _ => ?_; unfold y; clear y; rotate_left; clear_value y) | clear_value y)
    | refine Held_fst (by assumption) ?_ | apply Held_foldl | apply Held_foldl1 | split | (dsimp only)

theorem keep_State_cpyDataDone {b0 : State} {s : State} {ch : Nat} {i : Item} (h : Held b0 s) :
    Held b0 (State.cpyDataDone s ch i) := by
  unfold State.cpyDataDone
  repeat' with_reducible first
    | assumption | intro _ | apply keep_State_cpyNext | apply keep_State_cpySmall | apply keep_State_cpyStage
    | apply keep_State_endItem | apply keep_State_bump | apply Held_ite | apply Held_ite1
    | (apply Held_id; extract_lets -underBinder +onlyGivenNames y; first | (refine keep_cut (p := Held b0 y) ?_ fun _ => ?_; unfold y; clear y; rotate_left; clear_value y) | clear_value y)
    | refine Held_fst (by assumption) ?_ | split | (dsimp only)

theorem keep_State_cpyStart {b0 : State} {s : State} {ch : Nat} {lat : Bool} (h : Held b0 s) :
    Held b0 (State.cpyStart s ch lat) := by
  unfold State.cpyStart
  repeat' with_reducible first
    | assumption | intro _ | apply keep_State_modItem | apply keep_State_bump | apply Held_ite | apply Held_ite1
    | (apply Held_id; extract_lets -underBinder +onlyGivenNames y; first | (refine keep_cut (p := Held b0 y) ?_ fun _ => ?_; unfold y; clear y; rotate_left; clear_value y) | (refine keep_cut (p := Held b0 y.1) ?_ fun _ => ?_; unfold y; clear y; rotate_left; clear_value y) | clear_value y)
    | split | (dsimp only)

theorem keep_State_cpyStep {b0 : State} {s : State} {ch : Nat} {lat : Bool} {i : Item} (h : Held b0 s) :
    Held b0 (State.cpyStep s ch lat i).1 := by
  unfold State.cpyStep
  repeat' with_reducible first
    | assumption | intro _ | apply keep_State_cpyDataDone | apply keep_State_cpyWriteTile
    | apply keep_State_cpyPiece | apply keep_State_cpyReadTile | apply keep_State_cpyMayRead
    | apply keep_State_failItem | apply Held_ite | apply Held_ite1
    | (apply Held_id; extract_lets -underBinder +onlyGivenNames y; first | (refine keep_cut (p := Held b0 y) ?_ fun _ => ?_; unfold y; clear y; rotate_left; clear_value y) | clear_value y)
    | refine Held_fst (by assumption) ?_ | split | (dsimp only)

theorem keep_cpyRun {b0 : State} {s : State} {ch : Nat} {lat : Bool} {fuel : Nat} (h : Held b0 s) :
    Held b0 (cpyRun s ch lat fuel) := by
  induction fuel generalizing s ch lat with
  | zero =>
    unfold cpyRun
    repeat' with_reducible first
      | assumption | intro _ | apply keep_State_cpyStep | apply keep_State_cpyStart | apply Held_ite
      | apply Held_ite1
      | (apply Held_id; extract_lets -underBinder +onlyGivenNames y; first | (refine keep_cut (p := Held b0 y) ?_ fun _ => ?_; unfold y; clear y; rotate_left; clear_value y) | (refine keep_cut (p := Held b0 y.1) ?_ fun _ => ?_; unfold y; clear y; rotate_left; clear_value y) | clear_value y)
      | refine Held_fst (by assumption) ?_ | apply Held_foldl | apply Held_foldl1 | split | (dsimp only)
  | succ k ih =>
    unfold cpyRun
    repeat' with_reducible first
      | assumption | intro _ | apply ih | apply keep_State_cpyStep | apply keep_State_cpyStart | apply Held_ite
      | apply Held_ite1
      | (apply Held_id; extract_lets -underBinder +onlyGivenNames y; first | (refine keep_cut (p := Held b0 y) ?_ fun _ => ?_; unfold y; clear y; rotate_left; clear_value y) | (refine keep_cut (p := Held b0 y.1) ?_ fun _ => ?_; unfold y; clear y; rotate_left; clear_value y) | clear_value y)
      | refine Held_fst (by assumption) ?_ | apply Held_foldl | apply Held_foldl1 | split | (dsimp only)

theorem keep_State_cpyPrefetch {b0 : State} {s : State} {ch : Nat} {lat : Bool} (h : Held b0 s) :
    Held b0 (State.cpyPrefetch s ch lat) := by
  unfold State.cpyPrefetch
  repeat' with_reducible first
    | assumption | intro _ | apply keep_State_cpyMayRead | apply keep_State_putInput | apply keep_State_hostAcc
    | apply keep_State_bump | apply Held_ite | apply Held_ite1
    | (apply Held_id; extract_lets -underBinder +onlyGivenNames y; first | (refine keep_cut (p := Held b0 y) ?_ fun _ => ?_; unfold y; clear y; rotate_left; clear_value y) | (refine keep_cut (p := Held b0 y.1) ?_ fun _ => ?_; unfold y; clear y; rotate_left; clear_value y) | clear_value y)
    | refine Held_fst (by assumption) ?_ | apply Held_foldl | apply Held_foldl1 | split | (dsimp only)

theorem keep_State_cpyPump {b0 : State} {s : State} {ch : Nat} (h : Held b0 s) :
    Held b0 (State.cpyPump s ch) := by
  unfold State.cpyPump
  repeat' with_reducible first
    | assumption | intro _ | apply keep_State_cpyPrefetch | apply keep_cpyRun
    | (apply Held_id; extract_lets -underBinder +onlyGivenNames y; first | (refine keep_cut (p := Held b0 y) ?_ fun _ => ?_; unfold y; clear y; rotate_left; clear_value y) | clear_value y)
    | split | (dsimp only)

theorem keep_State_cpyPumpAll {b0 : State} {s : State} (h : Held b0 s) :
    Held b0 (State.cpyPumpAll s) := by
  unfold State.cpyPumpAll
  repeat' with_reducible first
    | assumption | intro _ | apply keep_State_cpyPump | apply Held_ite | apply Held_ite1
    | (apply Held_id; extract_lets -underBinder +onlyGivenNames y; first | (refine keep_cut (p := Held b0 y) ?_ fun _ => ?_; unfold y; clear y; rotate_left; clear_value y) | clear_value y)
    | apply Held_foldl | apply Held_foldl1 | split | (dsimp only)

theorem keep_State_cpyPrep {b0 : State} {s : State} {seq slot : Nat} (h : Held b0 s) :
    Held b0 (State.cpyPrep s seq slot) := by
  unfold State.cpyPrep
  repeat' with_reducible first
    | assumption | intro _ | apply keep_State_putInput | apply keep_State_failItem | apply keep_State_hostAcc
    | apply keep_State_engRead | apply keep_State_drawRange | apply Held_ite | apply Held_ite1
    | (apply Held_id; extract_lets -underBinder +onlyGivenNames y; first | (refine keep_cut (p := Held b0 y) ?_ fun _ => ?_; unfold y; clear y; rotate_left; clear_value y) | clear_value y)
    | refine Held_fst (by assumption) ?_ | split | (dsimp only)

theorem keep_State_startEntry {b0 : State} {s : State} {seq : Nat} {e : CpyEntry} (h : Held b0 s) :
    Held b0 (State.startEntry s seq e) := by
  unfold State.startEntry
  repeat' with_reducible first
    | assumption | intro _ | apply keep_State_cpyPrep | apply keep_State_cpyPump | apply keep_State_modChan
    | apply keep_State_modItem | apply Held_ite | apply Held_ite1
    | (apply Held_id; extract_lets -underBinder +onlyGivenNames y; first | (refine keep_cut (p := Held b0 y) ?_ fun _ => ?_; unfold y; clear y; rotate_left; clear_value y) | (refine keep_cut (p := Held b0 y.1) ?_ fun _ => ?_; unfold y; clear y; rotate_left; clear_value y) | clear_value y)
    | split | (dsimp only)

theorem keep_State_hallAnswered {b0 : State} {s : State} {seq n off len : Nat} {data : List Byte} (h : Held b0 s) :
    Held b0 (State.hallAnswered s seq n off len data) := by
  unfold State.hallAnswered
  repeat' with_reducible first
    | assumption | intro _ | apply keep_State_cpyNext | apply keep_State_cpyWritten | apply keep_State_modTileC
    | apply keep_State_modItem | apply Held_ite | apply Held_ite1
    | (apply Held_id; extract_lets -underBinder +onlyGivenNames y; first | (refine keep_cut (p := Held b0 y) ?_ fun _ => ?_; unfold y; clear y; rotate_left; clear_value y) | clear_value y)
    | split | (dsimp only)

theorem keep_State_cpyCommitted {b0 : State} {s : State} {seq n : Nat} (h : Held b0 s) :
    Held b0 (State.cpyCommitted s seq n) := by
  unfold State.cpyCommitted
  repeat' with_reducible first
    | assumption | intro _ | apply keep_State_cpyNext | apply keep_State_cpyWritten | apply keep_State_modItem
    | apply Held_ite | apply Held_ite1 | split | (dsimp only)

theorem keep_State_cpyFenced {b0 : State} {s : State} {seq : Nat} (h : Held b0 s) :
    Held b0 (State.cpyFenced s seq) := by
  unfold State.cpyFenced
  repeat' with_reducible first
    | assumption | intro _ | apply keep_State_cpyNext | apply keep_State_modItem | apply Held_ite | apply Held_ite1
    | (apply Held_id; extract_lets -underBinder +onlyGivenNames y; first | (refine keep_cut (p := Held b0 y) ?_ fun _ => ?_; unfold y; clear y; rotate_left; clear_value y) | clear_value y)
    | split | (dsimp only)

theorem keep_State_cpyArrived {b0 : State} {s : State} {seq n : Nat} {data : List Byte} {poison : Bool}
    (h : Held b0 s) :
    Held b0 (State.cpyArrived s seq n data poison) := by
  unfold State.cpyArrived
  repeat' with_reducible first
    | assumption | intro _ | apply keep_State_cpyGot | apply keep_State_cpyTileFail | apply keep_State_modItem
    | apply Held_ite | apply Held_ite1
    | (apply Held_id; extract_lets -underBinder +onlyGivenNames y; first | (refine keep_cut (p := Held b0 y) ?_ fun _ => ?_; unfold y; clear y; rotate_left; clear_value y) | (refine keep_cut (p := Held b0 y.1) ?_ fun _ => ?_; unfold y; clear y; rotate_left; clear_value y) | clear_value y)
    | split | (dsimp only)

theorem keep_State_cpyFault {b0 : State} {s : State} {seq n : Nat} {write perm : Bool} {at_ : Nat} (h : Held b0 s) :
    Held b0 (State.cpyFault s seq n write perm at_) := by
  unfold State.cpyFault
  repeat' with_reducible first
    | assumption | intro _ | apply keep_State_cpyFail | apply keep_State_cpyTileFail | apply Held_ite
    | apply Held_ite1
    | (apply Held_id; extract_lets -underBinder +onlyGivenNames y; first | (refine keep_cut (p := Held b0 y) ?_ fun _ => ?_; unfold y; clear y; rotate_left; clear_value y) | clear_value y)
    | split | (dsimp only)

theorem keep_State_cpyReadErr {b0 : State} {s : State} {a : HAcc} {seq n first : Nat} (h : Held b0 s) :
    Held b0 (State.cpyReadErr s a seq n first) := by
  unfold State.cpyReadErr
  repeat' with_reducible first
    | assumption | intro _ | apply keep_State_cpyPump | apply keep_State_cpyTileFail | apply keep_State_modTileC
    | apply keep_State_modChan | apply keep_State_dropAcc | apply keep_State_raise | apply keep_State_emit
    | apply keep_State_bump | apply Held_ite | apply Held_ite1
    | (apply Held_id; extract_lets -underBinder +onlyGivenNames y; first | (refine keep_cut (p := Held b0 y) ?_ fun _ => ?_; unfold y; clear y; rotate_left; clear_value y) | clear_value y)
    | split | (dsimp only)

theorem keep_State_startInline {b0 : State} {s : State} {seq : Nat} (h : Held b0 s) :
    Held b0 (State.startInline s seq) := by
  unfold State.startInline
  repeat' with_reducible first
    | assumption | intro _ | apply keep_State_failItem | apply keep_State_endItem | apply keep_State_modItem
    | apply keep_State_hostAcc | apply keep_State_engWrite | apply keep_State_drawRange | apply Held_ite
    | apply Held_ite1
    | (apply Held_id; extract_lets -underBinder +onlyGivenNames y; first | (refine keep_cut (p := Held b0 y) ?_ fun _ => ?_; unfold y; clear y; rotate_left; clear_value y) | clear_value y)
    | refine Held_fst (by assumption) ?_ | split | (dsimp only)

/-! ### Served -/

theorem keep_State_drawServed {b0 : State} {s : State} {off n : Nat} (h : Held b0 s) :
    Held b0 (State.drawServed s off n) := by
  unfold State.drawServed
  repeat' with_reducible first
    | assumption | intro _ | apply keep_State_drawTokens | apply Held_ite | apply Held_ite1 | apply Held_foldl
    | apply Held_foldl1 | split | (dsimp only)

theorem keep_State_servedRow {b0 : State} {s : State} {id pos : Nat} {data : List Byte} (h : Held b0 s) :
    Held b0 (State.servedRow s id pos data) := by
  unfold State.servedRow
  repeat' with_reducible first
    | assumption | intro _ | apply keep_State_modServed | apply Held_ite | apply Held_ite1 | split | (dsimp only)

theorem keep_State_refuseServed {b0 : State} {s : State} {id reason detail : Nat} (h : Held b0 s) :
    Held b0 (State.refuseServed s id reason detail) := by
  unfold State.refuseServed
  repeat' with_reducible first
    | assumption | intro _ | apply keep_State_unserve | apply keep_State_replyServed | split | (dsimp only)

theorem keep_State_serveRow {b0 : State} {s : State} {id : Nat} {t : Table} {f : Frame} {pos row : Nat} {ecc : Ecc}
    (h : Held b0 s) :
    Held b0 (State.serveRow s id t f pos row ecc) := by
  unfold State.serveRow
  repeat' with_reducible first
    | assumption | intro _ | apply keep_State_refuseServed | apply keep_State_servedRow
    | apply keep_State_drawServed | apply keep_State_missLine | apply keep_State_lookRow
    | apply keep_State_hotCount | apply keep_State_hostAcc | apply keep_State_engRead | apply keep_State_rcAlloc
    | apply Held_ite | apply Held_ite1
    | (apply Held_id; extract_lets -underBinder +onlyGivenNames y; first | (refine keep_cut (p := Held b0 y) ?_ fun _ => ?_; unfold y; clear y; rotate_left; clear_value y) | (refine keep_cut (p := Held b0 y.1) ?_ fun _ => ?_; unfold y; clear y; rotate_left; clear_value y) | clear_value y)
    | refine Held_fst (by assumption) ?_ | apply Held_foldl | apply Held_foldl1 | split | (dsimp only)

theorem keep_State_gatherAnswer {b0 : State} {s : State} {id : Nat} (h : Held b0 s) :
    Held b0 (State.gatherAnswer s id) := by
  unfold State.gatherAnswer
  repeat' with_reducible first
    | assumption | intro _ | apply keep_State_unserve | apply keep_State_replyServed | apply Held_ite
    | apply Held_ite1 | apply Held_foldl | apply Held_foldl1 | split | (dsimp only)

theorem keep_State_serveHall {b0 : State} {s : State} {id : Nat} {ecc : Ecc} (h : Held b0 s) :
    Held b0 (State.serveHall s id ecc) := by
  unfold State.serveHall
  repeat' with_reducible first
    | assumption | intro _ | apply keep_State_refuseServed | apply keep_State_drawServed | apply keep_State_unserve
    | apply keep_State_replyServed | apply keep_State_engWrite | apply keep_State_engRead | apply Held_ite
    | apply Held_ite1
    | (apply Held_id; extract_lets -underBinder +onlyGivenNames y; first | (refine keep_cut (p := Held b0 y) ?_ fun _ => ?_; unfold y; clear y; rotate_left; clear_value y) | clear_value y)
    | refine Held_fst (by assumption) ?_ | split | (dsimp only)

theorem keep_State_serveTry {b0 : State} {s : State} {id : Nat} {ecc : Ecc} (h : Held b0 s) :
    Held b0 (State.serveTry s id ecc) := by
  unfold State.serveTry
  repeat' with_reducible first
    | assumption | intro _ | apply keep_State_serveHall | apply keep_State_gatherAnswer | apply keep_State_serveRow
    | apply keep_State_refuseServed | apply Held_ite | apply Held_ite1 | apply Held_foldl | apply Held_foldl1
    | split | (dsimp only)

theorem keep_State_servePump {b0 : State} {s : State} (h : Held b0 s) :
    Held b0 (State.servePump s) := by
  unfold State.servePump
  repeat' with_reducible first
    | assumption | intro _ | apply keep_State_serveTry | apply Held_foldl | apply Held_foldl1 | split
    | (dsimp only)

theorem keep_State_takeServed {b0 : State} {s : State} {f : Frame} {rows : List Nat} (h : Held b0 s) :
    Held b0 (State.takeServed s f rows).1 := by
  unfold State.takeServed
  repeat' with_reducible first
    | assumption | intro _ | apply keep_State_touchSlot | apply keep_State_modKite
    | (apply Held_id; extract_lets -underBinder +onlyGivenNames y; first | (refine keep_cut (p := Held b0 y) ?_ fun _ => ?_; unfold y; clear y; rotate_left; clear_value y) | clear_value y)
    | split | (dsimp only)

theorem keep_State_gatherArrive {b0 : State} {s : State} {f : Frame} {ecc : Ecc} (h : Held b0 s) :
    Held b0 (State.gatherArrive s f ecc) := by
  unfold State.gatherArrive
  repeat' with_reducible first
    | assumption | intro _ | apply keep_State_takeServed | apply keep_State_serveTry | apply keep_State_nackSelf
    | apply keep_State_countLoad | apply keep_State_forward | apply keep_State_replyServed
    | apply keep_State_chargeServed | apply keep_State_bump | apply Held_ite | apply Held_ite1
    | (apply Held_id; extract_lets -underBinder +onlyGivenNames y; first | (refine keep_cut (p := Held b0 y) ?_ fun _ => ?_; unfold y; clear y; rotate_left; clear_value y) | clear_value y)
    | refine Held_fst (by assumption) ?_ | split | (dsimp only)

theorem keep_State_hallArrive {b0 : State} {s : State} {f : Frame} {ecc : Ecc} (h : Held b0 s) :
    Held b0 (State.hallArrive s f ecc) := by
  unfold State.hallArrive
  repeat' with_reducible first
    | assumption | intro _ | apply keep_State_takeServed | apply keep_State_serveTry | apply keep_State_nackSelf
    | apply keep_State_replyServed | apply keep_State_chargeServed | apply Held_ite | apply Held_ite1
    | (apply Held_id; extract_lets -underBinder +onlyGivenNames y; first | (refine keep_cut (p := Held b0 y) ?_ fun _ => ?_; unfold y; clear y; rotate_left; clear_value y) | clear_value y)
    | refine Held_fst (by assumption) ?_ | split | (dsimp only)

theorem keep_State_servedCold {b0 : State} {s : State} {id pos : Nat} {data : List Byte} (h : Held b0 s) :
    Held b0 (State.servedCold s id pos data) := by
  unfold State.servedCold
  repeat' with_reducible first
    | assumption | intro _ | apply keep_State_gatherAnswer | apply keep_State_servedRow | apply keep_State_fillRow
    | (apply Held_id; extract_lets -underBinder +onlyGivenNames y; first | (refine keep_cut (p := Held b0 y) ?_ fun _ => ?_; unfold y; clear y; rotate_left; clear_value y) | clear_value y)
    | split | (dsimp only)

theorem keep_State_abandon {b0 : State} {s : State} {id : Nat} (h : Held b0 s) :
    Held b0 (State.abandon s id) := by
  unfold State.abandon
  repeat' with_reducible first
    | assumption | intro _ | apply keep_State_unserve | apply keep_State_bump | apply Held_ite | apply Held_ite1
    | split | (dsimp only)

theorem keep_State_freeSlot {b0 : State} {s : State} {slot : Nat} (h : Held b0 s) :
    Held b0 (State.freeSlot s slot) := by
  unfold State.freeSlot
  repeat' with_reducible first
    | assumption | intro _ | apply keep_State_modKite | split | (dsimp only)

theorem keep_State_hallFailed {b0 : State} {s : State} {seq n : Nat} {write : Bool} {status detail : Nat}
    (h : Held b0 s) :
    Held b0 (State.hallFailed s seq n write status detail) := by
  unfold State.hallFailed
  repeat' with_reducible first
    | assumption | intro _ | apply keep_State_cpyPump | apply keep_State_cpyFail | apply keep_State_cpyTileFail
    | apply Held_ite | apply Held_ite1 | split | (dsimp only)

theorem keep_State_replyRows {b0 : State} {s : State} {item bag chunk : Nat} {rows new : List Nat} {first : Nat} {f : Frame}
    (h : Held b0 s) :
    Held b0 (State.replyRows s item bag chunk rows new first f) := by
  unfold State.replyRows
  repeat' with_reducible first
    | assumption | intro _ | apply keep_State_rowGot | apply keep_State_fillRow
    | (apply Held_id; extract_lets -underBinder +onlyGivenNames y; first | (refine keep_cut (p := Held b0 y) ?_ fun _ => ?_; unfold y; clear y; rotate_left; clear_value y) | clear_value y)
    | apply Held_foldl | apply Held_foldl1 | split | (dsimp only)

theorem keep_State_replyArrive {b0 : State} {s : State} {f : Frame} (h : Held b0 s) :
    Held b0 (State.replyArrive s f) := by
  unfold State.replyArrive
  repeat' with_reducible first
    | assumption | intro _ | apply keep_State_replyRows | apply keep_State_holdSlot | apply keep_State_modKite
    | apply keep_State_bump | apply Held_ite | apply Held_ite1
    | (apply Held_id; extract_lets -underBinder +onlyGivenNames y; first | (refine keep_cut (p := Held b0 y) ?_ fun _ => ?_; unfold y; clear y; rotate_left; clear_value y) | clear_value y)
    | refine Held_ps (Held_of ?_) rfl | split | (dsimp only)

theorem keep_State_updAckArrive {b0 : State} {s : State} {f : Frame} (h : Held b0 s) :
    Held b0 (State.updAckArrive s f) := by
  unfold State.updAckArrive
  repeat' with_reducible first
    | assumption | intro _ | apply keep_State_updChunkDone | apply keep_State_setCredit | apply keep_State_holdSlot
    | apply keep_State_modServed | apply keep_State_bump
    | (apply Held_id; extract_lets -underBinder +onlyGivenNames y; first | (refine keep_cut (p := Held b0 y) ?_ fun _ => ?_; unfold y; clear y; rotate_left; clear_value y) | clear_value y)
    | split | (dsimp only)

theorem keep_State_hallAckArrive {b0 : State} {s : State} {f : Frame} (h : Held b0 s) :
    Held b0 (State.hallAckArrive s f) := by
  unfold State.hallAckArrive
  repeat' with_reducible first
    | assumption | intro _ | apply keep_State_hallAnswered | apply keep_State_cpyPump | apply keep_State_holdSlot
    | apply keep_State_bump
    | (apply Held_id; extract_lets -underBinder +onlyGivenNames y; first | (refine keep_cut (p := Held b0 y) ?_ fun _ => ?_; unfold y; clear y; rotate_left; clear_value y) | clear_value y)
    | split | (dsimp only)

theorem keep_State_backoffEnd {b0 : State} {s : State} {home : Nat} (h : Held b0 s) :
    Held b0 (State.backoffEnd s home) := by
  unfold State.backoffEnd
  repeat' with_reducible first
    | assumption | intro _ | apply keep_State_modKite | apply Held_ite | apply Held_ite1 | split | (dsimp only)

theorem keep_State_ledgerSweep {b0 : State} {s : State} (h : Held b0 s) :
    Held b0 (State.ledgerSweep s) := by
  unfold State.ledgerSweep
  repeat' with_reducible first
    | assumption | intro _ | apply keep_State_modKite | split | (dsimp only)

theorem keep_State_nackWindowEnd {b0 : State} {s : State} (h : Held b0 s) :
    Held b0 (State.nackWindowEnd s) := by
  unfold State.nackWindowEnd
  repeat' with_reducible first
    | assumption | intro _ | apply keep_State_modKite | apply Held_ite | apply Held_ite1 | split | (dsimp only)

theorem keep_State_updSnap {b0 : State} {s : State} {table : Nat} (h : Held b0 s) :
    Held b0 (State.updSnap s table) := by
  unfold State.updSnap
  repeat' with_reducible first
    | assumption | intro _ | apply keep_State_modKite | apply keep_State_setReg
    | (apply Held_id; extract_lets -underBinder +onlyGivenNames y; first | (refine keep_cut (p := Held b0 y) ?_ fun _ => ?_; unfold y; clear y; rotate_left; clear_value y) | clear_value y)
    | split | (dsimp only)

/-! ### Migrate -/

theorem keep_State_modSrc {b0 : State} {s : State} {table shard : Nat} {f : Mig → Mig} (h : Held b0 s) :
    Held b0 (State.modSrc s table shard f) := by
  unfold State.modSrc
  repeat' with_reducible first
    | assumption | intro _ | apply keep_State_modKite | apply Held_ite | apply Held_ite1 | split | (dsimp only)

theorem keep_State_modDst {b0 : State} {s : State} {table shard : Nat} {f : Mig → Mig} (h : Held b0 s) :
    Held b0 (State.modDst s table shard f) := by
  unfold State.modDst
  repeat' with_reducible first
    | assumption | intro _ | apply keep_State_modKite | apply Held_ite | apply Held_ite1 | split | (dsimp only)

theorem keep_State_dropSrc {b0 : State} {s : State} {table shard : Nat} (h : Held b0 s) :
    Held b0 (State.dropSrc s table shard) := by
  unfold State.dropSrc
  repeat' with_reducible first
    | assumption | intro _ | apply keep_State_modKite | apply hf1 | apply hf2 | apply hf3 | apply hf4 | apply hf5
    | apply Held_ite | apply Held_ite1
    | (apply Held_id; extract_lets -underBinder +onlyGivenNames y; first | (refine keep_cut (p := Held b0 y) ?_ fun _ => ?_; unfold y; clear y; rotate_left; clear_value y) | (refine keep_cut (p := Held b0 y.1) ?_ fun _ => ?_; unfold y; clear y; rotate_left; clear_value y) | (refine keep_cut (p := ∀ z, Held b0 z → Held b0 (y z)) ?_ fun hf1 => ?_; unfold y; clear y; rotate_left; clear_value y) | (refine keep_cut (p := ∀ z a, Held b0 z → Held b0 (y z a)) ?_ fun hf2 => ?_; unfold y; clear y; rotate_left; clear_value y) | (refine keep_cut (p := ∀ z a b, Held b0 z → Held b0 (y z a b)) ?_ fun hf3 => ?_; unfold y; clear y; rotate_left; clear_value y) | (refine keep_cut (p := ∀ a, Held b0 (y a)) ?_ fun hf4 => ?_; unfold y; clear y; rotate_left; clear_value y) | (refine keep_cut (p := ∀ a b, Held b0 (y a b)) ?_ fun hf5 => ?_; unfold y; clear y; rotate_left; clear_value y) | clear_value y)
    | split | (dsimp only)

theorem keep_State_endMig {b0 : State} {s : State} {m : Mig} {status detail aux : Nat} (h : Held b0 s) :
    Held b0 (State.endMig s m status detail aux) := by
  unfold State.endMig
  repeat' with_reducible first
    | assumption | intro _ | apply keep_State_dropSrc | apply keep_State_endMq | apply keep_State_packetRec
    | apply Held_ite | apply Held_ite1
    | (apply Held_id; extract_lets -underBinder +onlyGivenNames y; first | (refine keep_cut (p := Held b0 y) ?_ fun _ => ?_; unfold y; clear y; rotate_left; clear_value y) | clear_value y)
    | split | (dsimp only)

theorem keep_State_migBegin {b0 : State} {s : State} {p : MqPkt} {table shard target : Nat} (h : Held b0 s) :
    Held b0 (State.migBegin s p table shard target) := by
  unfold State.migBegin
  repeat' with_reducible first
    | assumption | intro _ | apply keep_State_endMig | apply keep_State_sendKite | apply keep_State_endMq
    | apply keep_State_modKite
    | (apply Held_id; extract_lets -underBinder +onlyGivenNames y; first | (refine keep_cut (p := Held b0 y) ?_ fun _ => ?_; unfold y; clear y; rotate_left; clear_value y) | clear_value y)
    | refine Held_fst (by assumption) ?_ | split | (dsimp only)

theorem keep_State_migCheck {b0 : State} {s : State} {table shard : Nat} (h : Held b0 s) :
    Held b0 (State.migCheck s table shard) := by
  unfold State.migCheck
  repeat' with_reducible first
    | assumption | intro _ | apply keep_State_modSrc | apply keep_State_sendAnswer | apply keep_State_chargeServed
    | apply Held_ite | apply Held_ite1
    | (apply Held_id; extract_lets -underBinder +onlyGivenNames y; first | (refine keep_cut (p := Held b0 y) ?_ fun _ => ?_; unfold y; clear y; rotate_left; clear_value y) | clear_value y)
    | split | (dsimp only)

theorem keep_State_migAccepted {b0 : State} {s : State} {table shard : Nat} (h : Held b0 s) :
    Held b0 (State.migAccepted s table shard) := by
  unfold State.migAccepted
  repeat' with_reducible first
    | assumption | intro _ | apply keep_State_migCheck | apply keep_State_modSrc | apply keep_State_touchSlot
    | apply hf1 | apply hf2 | apply hf3 | apply hf4 | apply hf5 | apply Held_ite | apply Held_ite1
    | (apply Held_id; extract_lets -underBinder +onlyGivenNames y; first | (refine keep_cut (p := Held b0 y) ?_ fun _ => ?_; unfold y; clear y; rotate_left; clear_value y) | (refine keep_cut (p := ∀ z, Held b0 z → Held b0 (y z)) ?_ fun hf1 => ?_; unfold y; clear y; rotate_left; clear_value y) | (refine keep_cut (p := ∀ z a, Held b0 z → Held b0 (y z a)) ?_ fun hf2 => ?_; unfold y; clear y; rotate_left; clear_value y) | (refine keep_cut (p := ∀ z a b, Held b0 z → Held b0 (y z a b)) ?_ fun hf3 => ?_; unfold y; clear y; rotate_left; clear_value y) | (refine keep_cut (p := ∀ a, Held b0 (y a)) ?_ fun hf4 => ?_; unfold y; clear y; rotate_left; clear_value y) | (refine keep_cut (p := ∀ a b, Held b0 (y a b)) ?_ fun hf5 => ?_; unfold y; clear y; rotate_left; clear_value y) | clear_value y)
    | split | (dsimp only)

theorem keep_State_migSend {b0 : State} {s : State} {m : Mig} {t : Table} {first n : Nat} {data : List Byte}
    (h : Held b0 s) :
    Held b0 (State.migSend s m t first n data) := by
  unfold State.migSend
  repeat' with_reducible first
    | assumption | intro _ | apply keep_State_endMig | apply keep_State_sendKite
    | (apply Held_id; extract_lets -underBinder +onlyGivenNames y; first | (refine keep_cut (p := Held b0 y) ?_ fun _ => ?_; unfold y; clear y; rotate_left; clear_value y) | clear_value y)
    | refine Held_fst (by assumption) ?_ | split | (dsimp only)

theorem keep_State_migChunk {b0 : State} {s : State} {table shard flight : Nat} {promoted : Bool} (h : Held b0 s) :
    Held b0 (State.migChunk s table shard flight promoted) := by
  unfold State.migChunk
  repeat' with_reducible first
    | assumption | intro _ | apply keep_State_migSend | apply keep_State_endMig | apply keep_State_modSrc
    | apply keep_State_refund | apply keep_State_hostAcc | apply keep_State_stwRead | apply Held_ite
    | apply Held_ite1
    | (apply Held_id; extract_lets -underBinder +onlyGivenNames y; first | (refine keep_cut (p := Held b0 y) ?_ fun _ => ?_; unfold y; clear y; rotate_left; clear_value y) | clear_value y)
    | refine Held_fst (by assumption) ?_ | split | (dsimp only)

theorem keep_State_migAckArrive {b0 : State} {s : State} {f : Frame} (h : Held b0 s) :
    Held b0 (State.migAckArrive s f) := by
  unfold State.migAckArrive
  repeat' with_reducible first
    | assumption | intro _ | apply keep_State_migAccepted | apply keep_State_migCheck | apply keep_State_modSrc
    | apply keep_State_dualRelease | apply keep_State_holdSlot | apply keep_State_bump | apply hf1 | apply hf2
    | apply hf3 | apply hf4 | apply hf5
    | (apply Held_id; extract_lets -underBinder +onlyGivenNames y; first | (refine keep_cut (p := Held b0 y) ?_ fun _ => ?_; unfold y; clear y; rotate_left; clear_value y) | (refine keep_cut (p := ∀ z, Held b0 z → Held b0 (y z)) ?_ fun hf1 => ?_; unfold y; clear y; rotate_left; clear_value y) | (refine keep_cut (p := ∀ z a, Held b0 z → Held b0 (y z a)) ?_ fun hf2 => ?_; unfold y; clear y; rotate_left; clear_value y) | (refine keep_cut (p := ∀ z a b, Held b0 z → Held b0 (y z a b)) ?_ fun hf3 => ?_; unfold y; clear y; rotate_left; clear_value y) | (refine keep_cut (p := ∀ a, Held b0 (y a)) ?_ fun hf4 => ?_; unfold y; clear y; rotate_left; clear_value y) | (refine keep_cut (p := ∀ a b, Held b0 (y a b)) ?_ fun hf5 => ?_; unfold y; clear y; rotate_left; clear_value y) | clear_value y)
    | split | (dsimp only)

theorem keep_State_migFailed {b0 : State} {s : State} {table shard : Nat} {start : Bool} {reason : Option Nat} {detail dst : Nat}
    (h : Held b0 s) :
    Held b0 (State.migFailed s table shard start reason detail dst) := by
  unfold State.migFailed
  repeat' with_reducible first
    | assumption | intro _ | apply keep_State_endMig | apply Held_ite | apply Held_ite1 | split | (dsimp only)

theorem keep_State_kiteEnds {b0 : State} {s : State} {o : TethOwner} {reason : Option Nat} {detail dst : Nat}
    (h : Held b0 s) :
    Held b0 (State.kiteEnds s o reason detail dst) := by
  unfold State.kiteEnds
  repeat' with_reducible first
    | assumption | intro _ | apply keep_State_migFailed | apply keep_State_hallFailed | apply keep_State_failItem
    | apply keep_State_modServed
    | (apply Held_id; extract_lets -underBinder +onlyGivenNames y; first | (refine keep_cut (p := Held b0 y) ?_ fun _ => ?_; unfold y; clear y; rotate_left; clear_value y) | clear_value y)
    | split | (dsimp only)

theorem keep_kitePump {b0 : State} {s : State} {fuel : Nat} (h : Held b0 s) :
    Held b0 (kitePump s fuel) := by
  induction fuel generalizing s with
  | zero =>
    unfold kitePump
    repeat' with_reducible first
      | assumption | intro _ | apply keep_State_kiteEnds | refine keep_takeSlot (by assumption) ?_
      | apply keep_State_send | apply keep_State_modKite | apply keep_State_bump | apply Held_ite | apply Held_ite1
      | (apply Held_id; extract_lets -underBinder +onlyGivenNames y; first | (refine keep_cut (p := Held b0 y) ?_ fun _ => ?_; unfold y; clear y; rotate_left; clear_value y) | clear_value y)
      | split | (dsimp only)
  | succ k ih =>
    unfold kitePump
    repeat' with_reducible first
      | assumption | intro _ | apply ih | apply keep_State_kiteEnds | refine keep_takeSlot (by assumption) ?_
      | apply keep_State_send | apply keep_State_modKite | apply keep_State_bump | apply Held_ite | apply Held_ite1
      | (apply Held_id; extract_lets -underBinder +onlyGivenNames y; first | (refine keep_cut (p := Held b0 y) ?_ fun _ => ?_; unfold y; clear y; rotate_left; clear_value y) | clear_value y)
      | split | (dsimp only)

theorem keep_State_migStartArrive {b0 : State} {s : State} {f : Frame} (h : Held b0 s) :
    Held b0 (State.migStartArrive s f) := by
  unfold State.migStartArrive
  repeat' with_reducible first
    | assumption | intro _ | apply keep_State_nackSelf | apply keep_State_replyServed | apply keep_State_modKite
    | apply keep_State_draw | apply Held_ite | apply Held_ite1
    | (apply Held_id; extract_lets -underBinder +onlyGivenNames y; first | (refine keep_cut (p := Held b0 y) ?_ fun _ => ?_; unfold y; clear y; rotate_left; clear_value y) | clear_value y)
    | split | (dsimp only)

theorem keep_State_migReceived {b0 : State} {s : State} {table shard first n : Nat} (h : Held b0 s) :
    Held b0 (State.migReceived s table shard first n) := by
  unfold State.migReceived
  repeat' with_reducible first
    | assumption | intro _ | apply keep_State_modDst | split | (dsimp only)

theorem keep_State_migDataArrive {b0 : State} {s : State} {f : Frame} (h : Held b0 s) :
    Held b0 (State.migDataArrive s f) := by
  unfold State.migDataArrive
  repeat' with_reducible first
    | assumption | intro _ | apply keep_State_migReceived | apply keep_State_modDst | apply keep_State_takeServed
    | apply keep_State_nackSelf | apply keep_State_replyServed | apply keep_State_touchSlot
    | apply keep_State_chargeServed | apply keep_State_hostAcc | apply keep_State_stwWrite | apply hf1 | apply hf2
    | apply hf3 | apply hf4 | apply hf5 | apply Held_ite | apply Held_ite1
    | (apply Held_id; extract_lets -underBinder +onlyGivenNames y; first | (refine keep_cut (p := Held b0 y) ?_ fun _ => ?_; unfold y; clear y; rotate_left; clear_value y) | (refine keep_cut (p := Held b0 y.1) ?_ fun _ => ?_; unfold y; clear y; rotate_left; clear_value y) | (refine keep_cut (p := ∀ z, Held b0 z → Held b0 (y z)) ?_ fun hf1 => ?_; unfold y; clear y; rotate_left; clear_value y) | (refine keep_cut (p := ∀ z a, Held b0 z → Held b0 (y z a)) ?_ fun hf2 => ?_; unfold y; clear y; rotate_left; clear_value y) | (refine keep_cut (p := ∀ z a b, Held b0 z → Held b0 (y z a b)) ?_ fun hf3 => ?_; unfold y; clear y; rotate_left; clear_value y) | (refine keep_cut (p := ∀ a, Held b0 (y a)) ?_ fun hf4 => ?_; unfold y; clear y; rotate_left; clear_value y) | (refine keep_cut (p := ∀ a b, Held b0 (y a b)) ?_ fun hf5 => ?_; unfold y; clear y; rotate_left; clear_value y) | clear_value y)
    | refine Held_fst (by assumption) ?_ | apply Held_foldl | apply Held_foldl1 | split | (dsimp only)

theorem keep_State_migWritten {b0 : State} {s : State} {table shard first n : Nat} (h : Held b0 s) :
    Held b0 (State.migWritten s table shard first n) := by
  unfold State.migWritten
  repeat' with_reducible first
    | assumption | intro _ | apply keep_State_migReceived | apply keep_State_unserve | apply keep_State_replyServed
    | split | (dsimp only)

theorem keep_State_migWriteFault {b0 : State} {s : State} {table shard first : Nat} {perm : Bool} {at_ : Nat}
    (h : Held b0 s) :
    Held b0 (State.migWriteFault s table shard first perm at_) := by
  unfold State.migWriteFault
  repeat' with_reducible first
    | assumption | intro _ | apply keep_State_refuseServed | apply Held_ite | apply Held_ite1 | split
    | (dsimp only)

theorem keep_State_migDoneArrive {b0 : State} {s : State} {f : Frame} (h : Held b0 s) :
    Held b0 (State.migDoneArrive s f) := by
  unfold State.migDoneArrive
  repeat' with_reducible first
    | assumption | intro _ | apply keep_State_modDst | apply keep_State_modKite | apply Held_ite | apply Held_ite1
    | (apply Held_id; extract_lets -underBinder +onlyGivenNames y; first | (refine keep_cut (p := Held b0 y) ?_ fun _ => ?_; unfold y; clear y; rotate_left; clear_value y) | clear_value y)
    | split | (dsimp only)

theorem keep_State_graceStart {b0 : State} {s : State} {m : Mig} (h : Held b0 s) :
    Held b0 (State.graceStart s m) := by
  unfold State.graceStart
  repeat' with_reducible first
    | assumption | intro _ | apply keep_State_modSrc | apply keep_State_modConc
    | (apply Held_id; extract_lets -underBinder +onlyGivenNames y; first | (refine keep_cut (p := Held b0 y) ?_ fun _ => ?_; unfold y; clear y; rotate_left; clear_value y) | clear_value y)
    | split | (dsimp only)

theorem keep_State_migBump {b0 : State} {s : State} {table : Nat} (h : Held b0 s) :
    Held b0 (State.migBump s table) := by
  unfold State.migBump
  repeat' with_reducible first
    | assumption | intro _ | apply keep_State_graceStart | apply keep_State_modSrc | apply keep_State_modKite
    | apply Held_ite | apply Held_ite1
    | (apply Held_id; extract_lets -underBinder +onlyGivenNames y; first | (refine keep_cut (p := Held b0 y) ?_ fun _ => ?_; unfold y; clear y; rotate_left; clear_value y) | (refine keep_cut (p := Held b0 y.1) ?_ fun _ => ?_; unfold y; clear y; rotate_left; clear_value y) | clear_value y)
    | apply Held_foldl | apply Held_foldl1 | split | (dsimp only)

theorem keep_State_migLanding {b0 : State} {s : State} (h : Held b0 s) :
    Held b0 (State.migLanding s) := by
  unfold State.migLanding
  repeat' with_reducible first
    | assumption | intro _ | apply keep_State_graceStart | apply Held_ite | apply Held_ite1 | apply Held_foldl
    | apply Held_foldl1 | split | (dsimp only)

theorem keep_State_graceDone {b0 : State} {s : State} {table shard : Nat} (h : Held b0 s) :
    Held b0 (State.graceDone s table shard) := by
  unfold State.graceDone
  repeat' with_reducible first
    | assumption | intro _ | apply keep_State_modSrc | apply Held_ite | apply Held_ite1 | split | (dsimp only)

theorem keep_State_migRecords {b0 : State} {s : State} (h : Held b0 s) :
    Held b0 (State.migRecords s) := by
  unfold State.migRecords
  repeat' with_reducible first
    | assumption | intro _ | apply keep_State_graceDone | apply keep_State_endMig | apply Held_ite
    | apply Held_ite1
    | (apply Held_id; extract_lets -underBinder +onlyGivenNames y; first | (refine keep_cut (p := Held b0 y) ?_ fun _ => ?_; unfold y; clear y; rotate_left; clear_value y) | (refine keep_cut (p := Held b0 y.1) ?_ fun _ => ?_; unfold y; clear y; rotate_left; clear_value y) | clear_value y)
    | apply Held_foldl | apply Held_foldl1 | split | (dsimp only)

/-! ### Advance -/

theorem keep_State_letGoBag {b0 : State} {s : State} {seq k : Nat} (h : Held b0 s) :
    Held b0 (State.letGoBag s seq k) := by
  unfold State.letGoBag
  repeat' with_reducible first
    | assumption | intro _ | apply keep_State_widenHead | apply keep_State_modXlt | apply keep_State_modKite
    | apply keep_State_modRc | apply hf1 | apply hf2 | apply hf3 | apply hf4 | apply hf5 | apply Held_ite
    | apply Held_ite1
    | (apply Held_id; extract_lets -underBinder +onlyGivenNames y; first | (refine keep_cut (p := Held b0 y) ?_ fun _ => ?_; unfold y; clear y; rotate_left; clear_value y) | (refine keep_cut (p := Held b0 y.1) ?_ fun _ => ?_; unfold y; clear y; rotate_left; clear_value y) | (refine keep_cut (p := ∀ z, Held b0 z → Held b0 (y z)) ?_ fun hf1 => ?_; unfold y; clear y; rotate_left; clear_value y) | (refine keep_cut (p := ∀ z a, Held b0 z → Held b0 (y z a)) ?_ fun hf2 => ?_; unfold y; clear y; rotate_left; clear_value y) | (refine keep_cut (p := ∀ z a b, Held b0 z → Held b0 (y z a b)) ?_ fun hf3 => ?_; unfold y; clear y; rotate_left; clear_value y) | (refine keep_cut (p := ∀ a, Held b0 (y a)) ?_ fun hf4 => ?_; unfold y; clear y; rotate_left; clear_value y) | (refine keep_cut (p := ∀ a b, Held b0 (y a b)) ?_ fun hf5 => ?_; unfold y; clear y; rotate_left; clear_value y) | clear_value y)
    | split | (dsimp only)

theorem keep_State_restartOn {b0 : State} {s : State} {i : Item} {g : Nat} (h : Held b0 s) :
    Held b0 (State.restartOn s i g) := by
  unfold State.restartOn
  repeat' with_reducible first
    | assumption | intro _ | apply keep_State_letGoBag | apply keep_State_clearWork | apply keep_State_modBag
    | apply keep_State_letGo | apply keep_State_modItem | apply Held_ite | apply Held_ite1
    | (apply Held_id; extract_lets -underBinder +onlyGivenNames y; first | (refine keep_cut (p := Held b0 y) ?_ fun _ => ?_; unfold y; clear y; rotate_left; clear_value y) | clear_value y)
    | refine Held_gals (Held_of ?_) (by simp [length_updAt]; done) | apply Held_foldl | apply Held_foldl1 | split
    | (dsimp only)

theorem keep_State_restartGallery {b0 : State} {s : State} {g : Nat} (h : Held b0 s) :
    Held b0 (State.restartGallery s g) := by
  unfold State.restartGallery
  repeat' with_reducible first
    | assumption | intro _ | apply keep_State_restartOn | apply keep_State_modGal
    | (apply Held_id; extract_lets -underBinder +onlyGivenNames y; first | (refine keep_cut (p := Held b0 y) ?_ fun _ => ?_; unfold y; clear y; rotate_left; clear_value y) | (refine keep_cut (p := Held b0 y.1) ?_ fun _ => ?_; unfold y; clear y; rotate_left; clear_value y) | clear_value y)
    | apply Held_foldl | apply Held_foldl1 | split | (dsimp only)

theorem keep_State_modErr {b0 : State} {s : State} {f : Err → Err} (h : Held b0 s) :
    Held b0 (State.modErr s f) := by
  unfold State.modErr
  repeat' with_reducible first
    | assumption | intro _ | (simp -zeta -beta -iota -proj only [Held_mk]) | apply Held_of | split | (dsimp only)

theorem keep_State_noteCap {b0 : State} {s : State} (h : Held b0 s) :
    Held b0 (State.noteCap s) := by
  unfold State.noteCap
  repeat' with_reducible first
    | assumption | intro _ | apply keep_State_modErr | split | (dsimp only)

theorem keep_State_clearGalRegs {b0 : State} {s : State} {g : Nat} (h : Held b0 s) :
    Held b0 (State.clearGalRegs s g) := by
  unfold State.clearGalRegs
  repeat' with_reducible first
    | assumption | intro _ | apply keep_State_modGal | (simp -zeta -beta -iota -proj only [Held_mk])
    | (apply Held_id; extract_lets -underBinder +onlyGivenNames y; first | (refine keep_cut (p := Held b0 y) ?_ fun _ => ?_; unfold y; clear y; rotate_left; clear_value y) | clear_value y)
    | apply Held_of | split | (dsimp only)

theorem keep_State_takeSpareGal {b0 : State} {s : State} (h : Held b0 s) :
    Held b0 (State.takeSpareGal s) := by
  unfold State.takeSpareGal
  repeat' with_reducible first
    | assumption | intro _ | apply keep_State_clearGalRegs | apply keep_State_modErr | apply keep_State_modGal
    | apply Held_ite | apply Held_ite1 | split | (dsimp only)

theorem keep_State_loseTiles {b0 : State} {s : State} {g : Nat} (h : Held b0 s) :
    Held b0 (State.loseTiles s g) := by
  unfold State.loseTiles
  repeat' with_reducible first
    | assumption | intro _ | apply keep_State_bump | apply hf1 | apply hf2 | apply hf3 | apply hf4 | apply hf5
    | apply Held_ite | apply Held_ite1 | (simp -zeta -beta -iota -proj only [Held_mk])
    | (apply Held_id; extract_lets -underBinder +onlyGivenNames y; first | (refine keep_cut (p := Held b0 y) ?_ fun _ => ?_; unfold y; clear y; rotate_left; clear_value y) | (refine keep_cut (p := Held b0 y.1) ?_ fun _ => ?_; unfold y; clear y; rotate_left; clear_value y) | (refine keep_cut (p := ∀ z, Held b0 z → Held b0 (y z)) ?_ fun hf1 => ?_; unfold y; clear y; rotate_left; clear_value y) | (refine keep_cut (p := ∀ z a, Held b0 z → Held b0 (y z a)) ?_ fun hf2 => ?_; unfold y; clear y; rotate_left; clear_value y) | (refine keep_cut (p := ∀ z a b, Held b0 z → Held b0 (y z a b)) ?_ fun hf3 => ?_; unfold y; clear y; rotate_left; clear_value y) | (refine keep_cut (p := ∀ a, Held b0 (y a)) ?_ fun hf4 => ?_; unfold y; clear y; rotate_left; clear_value y) | (refine keep_cut (p := ∀ a b, Held b0 (y a b)) ?_ fun hf5 => ?_; unfold y; clear y; rotate_left; clear_value y) | clear_value y)
    | apply Held_of | split | (dsimp only)

theorem keep_State_fenceGal {b0 : State} {s : State} {g cause : Nat} {injected : Bool} (h : Held b0 s) :
    Held b0 (State.fenceGal s g cause injected) := by
  unfold State.fenceGal
  repeat' with_reducible first
    | assumption | intro _ | apply keep_State_loseTiles | apply keep_State_takeSpareGal | apply keep_State_modErr
    | apply keep_State_restartGallery | apply keep_State_injected | apply keep_State_forceDrain
    | apply keep_State_psEngine | apply keep_State_raise | apply keep_State_modGal | apply keep_State_setReg
    | apply Held_ite | apply Held_ite1
    | (apply Held_id; extract_lets -underBinder +onlyGivenNames y; first | (refine keep_cut (p := Held b0 y) ?_ fun _ => ?_; unfold y; clear y; rotate_left; clear_value y) | clear_value y)
    | split | (dsimp only)

theorem keep_State_rckEnd {b0 : State} {s : State} {seq : Nat} {r : Rck} {outcome : Nat} {suspect : Option Nat}
    (h : Held b0 s) :
    Held b0 (State.rckEnd s seq r outcome suspect) := by
  unfold State.rckEnd
  repeat' with_reducible first
    | assumption | intro _ | apply keep_State_fenceGal | apply keep_State_endItem | apply keep_State_forceDrain
    | apply keep_State_setReplace | apply keep_State_raise | apply Held_ite | apply Held_ite1
    | (apply Held_id; extract_lets -underBinder +onlyGivenNames y; first | (refine keep_cut (p := Held b0 y) ?_ fun _ => ?_; unfold y; clear y; rotate_left; clear_value y) | (refine keep_cut (p := Held b0 y.1) ?_ fun _ => ?_; unfold y; clear y; rotate_left; clear_value y) | clear_value y)
    | split | (dsimp only)

theorem keep_State_rckGo {b0 : State} {s : State} {seq : Nat} (h : Held b0 s) :
    Held b0 (State.rckGo s seq) := by
  unfold State.rckGo
  repeat' with_reducible first
    | assumption | intro _ | apply keep_State_rckEnd | apply keep_State_failItem | apply keep_State_modItem
    | apply keep_State_hostAcc | apply Held_ite | apply Held_ite1
    | (apply Held_id; extract_lets -underBinder +onlyGivenNames y; first | (refine keep_cut (p := Held b0 y) ?_ fun _ => ?_; unfold y; clear y; rotate_left; clear_value y) | clear_value y)
    | refine Held_fst (by assumption) ?_ | split | (dsimp only)

theorem keep_State_rckExpect {b0 : State} {s : State} {seq : Nat} {data : List Byte} (h : Held b0 s) :
    Held b0 (State.rckExpect s seq data) := by
  unfold State.rckExpect
  repeat' with_reducible first
    | assumption | intro _ | apply keep_State_rckEnd | apply Held_ite | apply Held_ite1
    | (apply Held_id; extract_lets -underBinder +onlyGivenNames y; first | (refine keep_cut (p := Held b0 y) ?_ fun _ => ?_; unfold y; clear y; rotate_left; clear_value y) | clear_value y)
    | split | (dsimp only)

theorem keep_State_bagRunDone {b0 : State} {s : State} {seq : Nat} (h : Held b0 s) :
    Held b0 (State.bagRunDone s seq) := by
  unfold State.bagRunDone
  repeat' with_reducible first
    | assumption | intro _ | apply keep_State_runDone | apply keep_State_injectedOne | apply Held_ite
    | apply Held_ite1
    | (apply Held_id; extract_lets -underBinder +onlyGivenNames y; first | (refine keep_cut (p := Held b0 y) ?_ fun _ => ?_; unfold y; clear y; rotate_left; clear_value y) | clear_value y)
    | refine Held_fst (by assumption) ?_ | split | (dsimp only)

theorem keep_State_advance {b0 : State} {s : State} {seq : Nat} (h : Held b0 s) :
    Held b0 (State.advance s seq) := by
  unfold State.advance
  repeat' with_reducible first
    | assumption | intro _ | apply keep_State_bagRunDone | apply keep_State_rckGo | apply keep_State_cpyPump
    | apply keep_State_updFinish | apply keep_State_interactFinish | apply keep_State_interactGo
    | apply keep_State_interactPrep | apply keep_vecGo | apply keep_State_tileExec | apply keep_State_arrayExec
    | apply keep_State_bagFinish | apply Held_ite | apply Held_ite1
    | (apply Held_id; extract_lets -underBinder +onlyGivenNames y; first | (refine keep_cut (p := Held b0 y) ?_ fun _ => ?_; unfold y; clear y; rotate_left; clear_value y) | (refine keep_cut (p := Held b0 y.1) ?_ fun _ => ?_; unfold y; clear y; rotate_left; clear_value y) | clear_value y)
    | apply Held_foldl | apply Held_foldl1 | split | (dsimp only)

theorem keep_State_pump {b0 : State} {s : State} (h : Held b0 s) :
    Held b0 (State.pump s) := by
  unfold State.pump
  repeat' with_reducible first
    | assumption | intro _ | apply keep_kitePump | apply keep_State_servePump | apply keep_State_cpyPumpAll | split
    | (dsimp only)

theorem keep_State_resultWritten {b0 : State} {s : State} {seq wh : Nat} (h : Held b0 s) :
    Held b0 (State.resultWritten s seq wh) := by
  unfold State.resultWritten
  repeat' with_reducible first
    | assumption | intro _ | apply keep_State_interactDone | apply keep_State_vecWritten
    | apply keep_State_tileDone | apply keep_State_arrayDone | apply keep_State_bagWritten
    | apply keep_State_endItem | apply Held_ite | apply Held_ite1 | split | (dsimp only)

theorem keep_State_resultFailed {b0 : State} {s : State} {seq wh : Nat} {perm : Bool} {at_ : Nat} (h : Held b0 s) :
    Held b0 (State.resultFailed s seq wh perm at_) := by
  unfold State.resultFailed
  repeat' with_reducible first
    | assumption | intro _ | apply keep_State_failItem | apply hf1 | apply hf2 | apply hf3 | apply hf4 | apply hf5
    | apply Held_ite | apply Held_ite1
    | (apply Held_id; extract_lets -underBinder +onlyGivenNames y; first | (refine keep_cut (p := Held b0 y) ?_ fun _ => ?_; unfold y; clear y; rotate_left; clear_value y) | (refine keep_cut (p := ∀ z, Held b0 z → Held b0 (y z)) ?_ fun hf1 => ?_; unfold y; clear y; rotate_left; clear_value y) | (refine keep_cut (p := ∀ z a, Held b0 z → Held b0 (y z a)) ?_ fun hf2 => ?_; unfold y; clear y; rotate_left; clear_value y) | (refine keep_cut (p := ∀ z a b, Held b0 z → Held b0 (y z a b)) ?_ fun hf3 => ?_; unfold y; clear y; rotate_left; clear_value y) | (refine keep_cut (p := ∀ a, Held b0 (y a)) ?_ fun hf4 => ?_; unfold y; clear y; rotate_left; clear_value y) | (refine keep_cut (p := ∀ a b, Held b0 (y a b)) ?_ fun hf5 => ?_; unfold y; clear y; rotate_left; clear_value y) | clear_value y)
    | split | (dsimp only)

theorem keep_State_inputDone {b0 : State} {s : State} {seq key wh : Nat} {a : HAcc} {r : HRes} (h : Held b0 s) :
    Held b0 (State.inputDone s seq key wh a r) := by
  unfold State.inputDone
  repeat' with_reducible first
    | assumption | intro _ | apply keep_State_advance | apply keep_State_rckExpect | apply keep_State_cpyPump
    | apply keep_State_putInput | apply keep_State_failItem | apply keep_State_bump | apply Held_ite
    | apply Held_ite1
    | (apply Held_id; extract_lets -underBinder +onlyGivenNames y; first | (refine keep_cut (p := Held b0 y) ?_ fun _ => ?_; unfold y; clear y; rotate_left; clear_value y) | clear_value y)
    | split | (dsimp only)

theorem keep_State_coldFailed {b0 : State} {s : State} {seq place : Nat} {perm : Bool} {at_ : Nat} (h : Held b0 s) :
    Held b0 (State.coldFailed s seq place perm at_) := by
  unfold State.coldFailed
  repeat' with_reducible first
    | assumption | intro _ | apply keep_State_failItem
    | (apply Held_id; extract_lets -underBinder +onlyGivenNames y; first | (refine keep_cut (p := Held b0 y) ?_ fun _ => ?_; unfold y; clear y; rotate_left; clear_value y) | clear_value y)
    | split | (dsimp only)

theorem keep_State_itemAccess {b0 : State} {s : State} {a : HAcc} {r : HRes} (h : Held b0 s) :
    Held b0 (State.itemAccess s a r) := by
  unfold State.itemAccess
  repeat' with_reducible first
    | assumption | intro _ | apply keep_State_coldFailed | apply keep_State_inputDone
    | apply keep_State_resultFailed | apply keep_State_resultWritten | apply keep_State_advance
    | apply keep_State_servedCold | apply keep_State_refuseServed | apply keep_State_cpyFault
    | apply keep_State_cpyArrived | apply keep_State_cpyFenced | apply keep_State_cpyCommitted
    | apply keep_State_cpyFail | apply keep_State_tileRestored | apply keep_State_spillFault
    | apply keep_State_tileSpilled | apply keep_State_widenHead | apply keep_State_widenWritten
    | apply keep_State_rowArrive | apply keep_State_listReady | apply keep_State_takeWts
    | apply keep_State_takeList | apply keep_State_failItem | apply keep_State_dropAcc | apply Held_ite
    | apply Held_ite1
    | (apply Held_id; extract_lets -underBinder +onlyGivenNames y; first | (refine keep_cut (p := Held b0 y) ?_ fun _ => ?_; unfold y; clear y; rotate_left; clear_value y) | clear_value y)
    | split | (dsimp only)

end Sys2Proof.Laws
end

