-- ==== Sys2Proof/Laws/KeepConc.lean ====
section
/-! SUPPORT. What the operations of admission, the concourse and the control opcodes of tenants, rings and tables
keep, one lemma each. -/
namespace Sys2Proof.Laws

set_option linter.unusedSimpArgs false
set_option linter.unusedTactic false
set_option linter.unreachableTactic false

open Sys2Proof Sys2Proof.Machine Sys2Proof.Config Sys2Proof.Safety

/-! ### Admit -/

theorem keep_State_takeGals {b0 : State} {s : State} {i : Item} {sp : Spot} {bag : Option Nat} (h : Held b0 s) :
    Held b0 (State.takeGals s i sp bag) := by
  unfold State.takeGals
  repeat' with_reducible first
    | assumption | intro _ | apply keep_State_modBag | apply keep_State_modItem | apply keep_State_modGal
    | apply Held_ite | apply Held_ite1
    | (apply Held_id; extract_lets -underBinder +onlyGivenNames y; first | (refine keep_cut (p := Held b0 y) ?_ fun _ => ?_; unfold y; clear y; rotate_left; clear_value y) | (refine keep_cut (p := Held b0 y.1) ?_ fun _ => ?_; unfold y; clear y; rotate_left; clear_value y) | clear_value y)
    | apply Held_foldl | apply Held_foldl1 | split | (dsimp only)

theorem keep_State_takeRun {b0 : State} {s : State} {i : Item} {sp : Spot} (h : Held b0 s) :
    Held b0 (State.takeRun s i sp) := by
  unfold State.takeRun
  repeat' with_reducible first
    | assumption | intro _ | apply keep_State_modItem
    | refine Held_gals (Held_of ?_) (by simp [length_updAt]; done) | split | (dsimp only)

theorem keep_State_startChunk {b0 : State} {s : State} {seq : Nat} {c : Chunk} {bag : Option Nat} (h : Held b0 s) :
    Held b0 (State.startChunk s seq c bag) := by
  unfold State.startChunk
  repeat' with_reducible first
    | assumption | intro _ | apply keep_State_startInline | apply keep_State_startEntry
    | apply keep_State_startReduce | apply keep_State_startUpd | apply keep_State_startStage | apply keep_vecGo
    | apply keep_State_startTile | apply keep_State_startArray | apply keep_State_startBagChunk
    | apply keep_State_failChunk | apply keep_State_endItem | apply Held_ite | apply Held_ite1
    | (apply Held_id; extract_lets -underBinder +onlyGivenNames y; first | (refine keep_cut (p := Held b0 y) ?_ fun _ => ?_; unfold y; clear y; rotate_left; clear_value y) | clear_value y)
    | refine Held_fst (by assumption) ?_ | split | (dsimp only)

theorem keep_State_admitOne {b0 : State} {s : State} {i : Item} {c : Cand} {sp : Spot} (h : Held b0 s) :
    Held b0 (State.admitOne s i c sp) := by
  unfold State.admitOne
  repeat' with_reducible first
    | assumption | intro _ | apply keep_State_startChunk | apply keep_State_takeRun | apply keep_State_takeGals
    | apply keep_State_advance | apply keep_State_modItem | apply keep_State_chargeOrig | apply keep_State_bump
    | (apply Held_id; extract_lets -underBinder +onlyGivenNames y; first | (refine keep_cut (p := Held b0 y) ?_ fun _ => ?_; unfold y; clear y; rotate_left; clear_value y) | (refine keep_cut (p := Held b0 y.1) ?_ fun _ => ?_; unfold y; clear y; rotate_left; clear_value y) | clear_value y)
    | refine Held_fst (by assumption) ?_ | split | (dsimp only)

theorem keep_State_noteHeld {b0 : State} {s : State} {i : Item} {c : Cand} (h : Held b0 s) :
    Held b0 (State.noteHeld s i c) := by
  unfold State.noteHeld
  repeat' with_reducible first
    | assumption | intro _ | apply keep_State_modItem | apply keep_State_bump | apply Held_ite | apply Held_ite1
    | split | (dsimp only)

theorem keep_State_admitItem {b0 : State} {s : State} {i : Item} {gal : Nat} (h : Held b0 s) :
    Held b0 (State.admitItem s i gal) := by
  unfold State.admitItem
  repeat' with_reducible first
    | assumption | intro _ | apply keep_State_noteHeld | apply keep_State_admitOne | apply keep_State_spillForSlot
    | apply keep_State_failItem | apply keep_State_modItem | apply keep_State_noteRefused | apply keep_State_bump
    | apply Held_ite | apply Held_ite1
    | (apply Held_id; extract_lets -underBinder +onlyGivenNames y; first | (refine keep_cut (p := Held b0 y) ?_ fun _ => ?_; unfold y; clear y; rotate_left; clear_value y) | clear_value y)
    | split | (dsimp only)

theorem keep_State_admitMig {b0 : State} {s : State} {m : Mig} (h : Held b0 s) :
    Held b0 (State.admitMig s m) := by
  unfold State.admitMig
  repeat' with_reducible first
    | assumption | intro _ | apply keep_State_migChunk | apply keep_State_noteRefused | apply keep_State_chargeOrig
    | apply Held_ite | apply Held_ite1 | split | (dsimp only)

theorem keep_State_chunkAdmit {b0 : State} {s : State} {seq gal : Nat} (h : Held b0 s) :
    Held b0 (State.chunkAdmit s seq gal) := by
  unfold State.chunkAdmit
  repeat' with_reducible first
    | assumption | intro _ | apply keep_State_admitMig | apply keep_State_admitItem | split | (dsimp only)

theorem keep_State_promoteAge {b0 : State} {s : State} {seq : Nat} (h : Held b0 s) :
    Held b0 (State.promoteAge s seq) := by
  unfold State.promoteAge
  repeat' with_reducible first
    | assumption | intro _ | apply keep_State_modItem | apply keep_State_bump | apply Held_ite | apply Held_ite1
    | (apply Held_id; extract_lets -underBinder +onlyGivenNames y; first | (refine keep_cut (p := Held b0 y) ?_ fun _ => ?_; unfold y; clear y; rotate_left; clear_value y) | clear_value y)
    | split | (dsimp only)

theorem keep_State_promoteMargin {b0 : State} {s : State} {seq : Nat} (h : Held b0 s) :
    Held b0 (State.promoteMargin s seq) := by
  unfold State.promoteMargin
  repeat' with_reducible first
    | assumption | intro _ | apply keep_State_modItem | apply keep_State_due | apply keep_State_bump
    | apply Held_ite | apply Held_ite1 | split | (dsimp only)

/-! ### Concourse -/

theorem keep_State_prepare {b0 : State} {s : State} {seq : Nat} (h : Held b0 s) :
    Held b0 (State.prepare s seq) := by
  unfold State.prepare
  repeat' with_reducible first
    | assumption | intro _ | apply keep_State_cpyPrep | apply keep_State_updPrep | apply keep_State_interactPrep
    | split | (dsimp only)

theorem keep_State_acceptItem {b0 : State} {s : State} {src : PktSrc} {cq : Option Nat} {index tenant : Nat} {ws : List Word}
    (h : Held b0 s) :
    Held b0 (State.acceptItem s src cq index tenant ws) := by
  unfold State.acceptItem
  repeat' with_reducible first
    | assumption | intro _ | apply keep_State_prepare | apply keep_State_endItem | apply keep_State_spillOne
    | apply keep_State_modConc | apply Held_ite | apply Held_ite1
    | (apply Held_id; extract_lets -underBinder +onlyGivenNames y; first | (refine keep_cut (p := Held b0 y) ?_ fun _ => ?_; unfold y; clear y; rotate_left; clear_value y) | clear_value y)
    | split | (dsimp only)

theorem keep_State_acceptControl {b0 : State} {s : State} {src : PktSrc} {cq : Option Nat} {index tenant : Nat} {ws : List Word}
    (h : Held b0 s) :
    Held b0 (State.acceptControl s src cq index tenant ws) := by
  unfold State.acceptControl
  repeat' with_reducible first
    | assumption | intro _ | apply keep_State_packetRec | apply keep_State_modConc | apply keep_State_due
    | apply keep_State_bump | apply Held_ite | apply Held_ite1
    | (apply Held_id; extract_lets -underBinder +onlyGivenNames y; first | (refine keep_cut (p := Held b0 y) ?_ fun _ => ?_; unfold y; clear y; rotate_left; clear_value y) | clear_value y)
    | split | (dsimp only)

theorem keep_State_takePkt {b0 : State} {s : State} {src : PktSrc} {cq : Option Nat} {index tenant : Nat} {ws : List Word}
    (h : Held b0 s) :
    Held b0 (State.takePkt s src cq index tenant ws) := by
  unfold State.takePkt
  repeat' with_reducible first
    | assumption | intro _ | apply keep_State_acceptControl | apply keep_State_acceptItem
    | apply keep_State_packetRec | apply keep_State_bump | apply Held_ite | apply Held_ite1 | split | (dsimp only)

theorem keep_State_writeWb {b0 : State} {s : State} {n : Nat} (h : Held b0 s) :
    Held b0 (State.writeWb s n) := by
  unfold State.writeWb
  repeat' with_reducible first
    | assumption | intro _ | apply keep_State_modCmd | apply keep_State_hostAcc | apply keep_State_engWrite
    | apply Held_ite | apply Held_ite1
    | (apply Held_id; extract_lets -underBinder +onlyGivenNames y; first | (refine keep_cut (p := Held b0 y) ?_ fun _ => ?_; unfold y; clear y; rotate_left; clear_value y) | clear_value y)
    | split | (dsimp only)

theorem keep_State_readEnds {b0 : State} {s : State} {n : Nat} (h : Held b0 s) :
    Held b0 (State.readEnds s n) := by
  unfold State.readEnds
  repeat' with_reducible first
    | assumption | intro _ | apply keep_State_writeWb | apply keep_State_modCmd | apply Held_ite | apply Held_ite1
    | (apply Held_id; extract_lets -underBinder +onlyGivenNames y; first | (refine keep_cut (p := Held b0 y) ?_ fun _ => ?_; unfold y; clear y; rotate_left; clear_value y) | clear_value y)
    | split | (dsimp only)

theorem keep_State_readStops {b0 : State} {s : State} {n : Nat} (h : Held b0 s) :
    Held b0 (State.readStops s n) := by
  unfold State.readStops
  repeat' with_reducible first
    | assumption | intro _ | apply keep_State_writeWb | apply keep_State_modCmd | split | (dsimp only)

theorem keep_State_haltRing {b0 : State} {s : State} {n tail opcode tag : Nat} (h : Held b0 s) :
    Held b0 (State.haltRing s n tail opcode tag) := by
  unfold State.haltRing
  repeat' with_reducible first
    | assumption | intro _ | apply keep_State_readStops | apply keep_State_putRec | apply keep_State_modCmd
    | apply keep_State_raise | apply Held_ite | apply Held_ite1
    | (apply Held_id; extract_lets -underBinder +onlyGivenNames y; first | (refine keep_cut (p := Held b0 y) ?_ fun _ => ?_; unfold y; clear y; rotate_left; clear_value y) | (refine keep_cut (p := Held b0 y.1) ?_ fun _ => ?_; unfold y; clear y; rotate_left; clear_value y) | clear_value y)
    | split | (dsimp only)

theorem keep_State_gotHead {b0 : State} {s : State} {q h : Nat} (hs : Held b0 s) :
    Held b0 (State.gotHead s q h) := by
  unfold State.gotHead
  repeat' with_reducible first
    | assumption | intro _ | apply keep_State_modCpl | apply keep_State_modConc | apply Held_ite | apply Held_ite1
    | (apply Held_id; extract_lets -underBinder +onlyGivenNames y; first | (refine keep_cut (p := Held b0 y) ?_ fun _ => ?_; unfold y; clear y; rotate_left; clear_value y) | clear_value y)
    | split | (dsimp only)

theorem keep_State_readHead {b0 : State} {s : State} {q : Nat} (h : Held b0 s) :
    Held b0 (State.readHead s q) := by
  unfold State.readHead
  repeat' with_reducible first
    | assumption | intro _ | apply keep_State_gotHead | apply keep_State_modCpl | apply keep_State_hostAcc
    | apply keep_State_engRead | apply Held_ite | apply Held_ite1
    | (apply Held_id; extract_lets -underBinder +onlyGivenNames y; first | (refine keep_cut (p := Held b0 y) ?_ fun _ => ?_; unfold y; clear y; rotate_left; clear_value y) | clear_value y)
    | refine Held_fst (by assumption) ?_ | split | (dsimp only)

theorem keep_State_waitCq {b0 : State} {s : State} {q : Nat} (h : Held b0 s) :
    Held b0 (State.waitCq s q) := by
  unfold State.waitCq
  repeat' with_reducible first
    | assumption | intro _ | apply keep_State_readHead | apply keep_State_readStops | apply keep_State_modCmd
    | (apply Held_id; extract_lets -underBinder +onlyGivenNames y; first | (refine keep_cut (p := Held b0 y) ?_ fun _ => ?_; unfold y; clear y; rotate_left; clear_value y) | (refine keep_cut (p := Held b0 y.1) ?_ fun _ => ?_; unfold y; clear y; rotate_left; clear_value y) | clear_value y)
    | apply Held_foldl | apply Held_foldl1 | split | (dsimp only)

theorem keep_State_readMore {b0 : State} {s : State} {n : Nat} {r : CmdRing} (h : Held b0 s) :
    Held b0 (State.readMore s n r) := by
  unfold State.readMore
  repeat' with_reducible first
    | assumption | intro _ | apply keep_State_hostAcc
    | (apply Held_id; extract_lets -underBinder +onlyGivenNames y; first | (refine keep_cut (p := Held b0 y) ?_ fun _ => ?_; unfold y; clear y; rotate_left; clear_value y) | clear_value y)
    | split | (dsimp only)

theorem keep_takeUnits {b0 : State} {s : State} {n fuel : Nat} (h : Held b0 s) :
    Held b0 (takeUnits s n fuel) := by
  induction fuel generalizing s n with
  | zero =>
    unfold takeUnits
    repeat' with_reducible first
      | assumption | intro _ | apply keep_State_readMore | apply keep_State_waitCq | apply keep_State_haltRing
      | apply keep_State_readStops | apply keep_State_readEnds | apply keep_State_takePkt | apply keep_State_modCmd
      | apply keep_State_modCpl | apply Held_ite | apply Held_ite1
      | (apply Held_id; extract_lets -underBinder +onlyGivenNames y; first | (refine keep_cut (p := Held b0 y) ?_ fun _ => ?_; unfold y; clear y; rotate_left; clear_value y) | clear_value y)
      | split | (dsimp only)
  | succ k ih =>
    unfold takeUnits
    repeat' with_reducible first
      | assumption | intro _ | apply ih | apply keep_State_readMore | apply keep_State_waitCq
      | apply keep_State_haltRing | apply keep_State_readStops | apply keep_State_readEnds
      | apply keep_State_takePkt | apply keep_State_modCmd | apply keep_State_modCpl | apply Held_ite
      | apply Held_ite1
      | (apply Held_id; extract_lets -underBinder +onlyGivenNames y; first | (refine keep_cut (p := Held b0 y) ?_ fun _ => ?_; unfold y; clear y; rotate_left; clear_value y) | clear_value y)
      | split | (dsimp only)

theorem keep_State_gotTail {b0 : State} {s : State} {n tail : Nat} (h : Held b0 s) :
    Held b0 (State.gotTail s n tail) := by
  unfold State.gotTail
  repeat' with_reducible first
    | assumption | intro _ | apply keep_takeUnits | apply keep_State_haltRing | apply keep_State_readEnds
    | apply keep_State_modCmd | apply keep_State_engRead | apply Held_ite | apply Held_ite1
    | (apply Held_id; extract_lets -underBinder +onlyGivenNames y; first | (refine keep_cut (p := Held b0 y) ?_ fun _ => ?_; unfold y; clear y; rotate_left; clear_value y) | clear_value y)
    | refine Held_fst (by assumption) ?_ | split | (dsimp only)

theorem keep_State_readRing {b0 : State} {s : State} {n : Nat} (h : Held b0 s) :
    Held b0 (State.readRing s n) := by
  unfold State.readRing
  repeat' with_reducible first
    | assumption | intro _ | apply keep_State_gotTail | apply keep_State_modCmd | apply keep_State_hostAcc
    | apply keep_State_engRead | apply Held_ite | apply Held_ite1
    | (apply Held_id; extract_lets -underBinder +onlyGivenNames y; first | (refine keep_cut (p := Held b0 y) ?_ fun _ => ?_; unfold y; clear y; rotate_left; clear_value y) | clear_value y)
    | refine Held_fst (by assumption) ?_ | split | (dsimp only)

theorem keep_ringRun {b0 : State} {s : State} {fuel : Nat} (h : Held b0 s) :
    Held b0 (ringRun s fuel) := by
  induction fuel generalizing s with
  | zero =>
    unfold ringRun
    repeat' with_reducible first
      | assumption | intro _ | apply keep_State_readRing | split | (dsimp only)
  | succ k ih =>
    unfold ringRun
    repeat' with_reducible first
      | assumption | intro _ | apply ih | apply keep_State_readRing | split | (dsimp only)

theorem keep_State_kick {b0 : State} {s : State} {n : Nat} (h : Held b0 s) :
    Held b0 (State.kick s n) := by
  unfold State.kick
  repeat' with_reducible first
    | assumption | intro _ | apply keep_State_modCmd | apply Held_ite | apply Held_ite1 | split | (dsimp only)

theorem keep_State_kickAll {b0 : State} {s : State} (h : Held b0 s) :
    Held b0 (State.kickAll s) := by
  unfold State.kickAll
  repeat' with_reducible first
    | assumption | intro _ | apply keep_State_kick | apply Held_foldl | apply Held_foldl1 | split | (dsimp only)

theorem keep_State_wakeCtx {b0 : State} {s : State} (h : Held b0 s) :
    Held b0 (State.wakeCtx s) := by
  unfold State.wakeCtx
  repeat' with_reducible first
    | assumption | intro _ | apply keep_State_modConc | apply Held_ite | apply Held_ite1 | split | (dsimp only)

theorem keep_State_destroyDone {b0 : State} {s : State} (h : Held b0 s) :
    Held b0 (State.destroyDone s) := by
  unfold State.destroyDone
  repeat' with_reducible first
    | assumption | intro _ | apply keep_State_endMq | apply keep_State_modConc | apply hf1 | apply hf2 | apply hf3
    | apply hf4 | apply hf5 | apply Held_ite | apply Held_ite1
    | (apply Held_id; extract_lets -underBinder +onlyGivenNames y; first | (refine keep_cut (p := Held b0 y) ?_ fun _ => ?_; unfold y; clear y; rotate_left; clear_value y) | (refine keep_cut (p := ∀ z, Held b0 z → Held b0 (y z)) ?_ fun hf1 => ?_; unfold y; clear y; rotate_left; clear_value y) | (refine keep_cut (p := ∀ z a, Held b0 z → Held b0 (y z a)) ?_ fun hf2 => ?_; unfold y; clear y; rotate_left; clear_value y) | (refine keep_cut (p := ∀ z a b, Held b0 z → Held b0 (y z a b)) ?_ fun hf3 => ?_; unfold y; clear y; rotate_left; clear_value y) | (refine keep_cut (p := ∀ a, Held b0 (y a)) ?_ fun hf4 => ?_; unfold y; clear y; rotate_left; clear_value y) | (refine keep_cut (p := ∀ a b, Held b0 (y a b)) ?_ fun hf5 => ?_; unfold y; clear y; rotate_left; clear_value y) | clear_value y)
    | apply Held_foldl | apply Held_foldl1 | split | (dsimp only)

theorem keep_State_nopsDone {b0 : State} {s : State} (h : Held b0 s) :
    Held b0 (State.nopsDone s) := by
  unfold State.nopsDone
  repeat' with_reducible first
    | assumption | intro _ | apply keep_State_endItem | apply Held_ite | apply Held_ite1 | apply Held_foldl
    | apply Held_foldl1 | split | (dsimp only)

theorem keep_State_wake {b0 : State} {s : State} (h : Held b0 s) :
    Held b0 (State.wake s) := by
  unfold State.wake
  repeat' with_reducible first
    | assumption | intro _ | apply keep_State_nopsDone | apply keep_State_destroyDone | apply keep_State_wakeCtx
    | apply keep_ringRun | apply keep_State_pump
    | (apply Held_id; extract_lets -underBinder +onlyGivenNames y; first | (refine keep_cut (p := Held b0 y) ?_ fun _ => ?_; unfold y; clear y; rotate_left; clear_value y) | clear_value y)
    | split | (dsimp only)

theorem keep_State_ringArrive {b0 : State} {s : State} {n : Nat} {ws : List Word} (h : Held b0 s) :
    Held b0 (State.ringArrive s n ws) := by
  unfold State.ringArrive
  repeat' with_reducible first
    | assumption | intro _ | apply keep_takeUnits | apply keep_State_modCmd | apply Held_ite | apply Held_ite1
    | split | (dsimp only)

theorem keep_State_laneArrive {b0 : State} {s : State} {seq : Nat} {ws : List Word} (h : Held b0 s) :
    Held b0 (State.laneArrive s seq ws) := by
  unfold State.laneArrive
  repeat' with_reducible first
    | assumption | intro _ | apply keep_State_takePkt | apply keep_State_packetRec | apply Held_ite
    | apply Held_ite1
    | (apply Held_id; extract_lets -underBinder +onlyGivenNames y; first | (refine keep_cut (p := Held b0 y) ?_ fun _ => ?_; unfold y; clear y; rotate_left; clear_value y) | clear_value y)
    | split | (dsimp only)

theorem keep_State_arrivePkt {b0 : State} {s : State} {op : Nat} {src : PktSrc} {pkt : List Word} (h : Held b0 s) :
    Held b0 (State.arrivePkt s op src pkt) := by
  unfold State.arrivePkt
  repeat' with_reducible first
    | assumption | intro _ | apply keep_State_laneArrive | apply keep_State_ringArrive | apply keep_State_wake
    | (apply Held_id; extract_lets -underBinder +onlyGivenNames y; first | (refine keep_cut (p := Held b0 y) ?_ fun _ => ?_; unfold y; clear y; rotate_left; clear_value y) | clear_value y)
    | split | (dsimp only)

theorem keep_State_concDb {b0 : State} {s : State} {w : Word} (h : Held b0 s) :
    Held b0 (State.concDb s w) := by
  unfold State.concDb
  repeat' with_reducible first
    | assumption | intro _ | apply keep_State_wake | apply keep_State_kick | apply Held_ite | apply Held_ite1
    | split | (dsimp only)

theorem keep_State_startAdmin {b0 : State} {s : State} (h : Held b0 s) :
    Held b0 (State.startAdmin s) := by
  unfold State.startAdmin
  repeat' with_reducible first
    | assumption | intro _ | apply keep_State_modConc | apply Held_ite | apply Held_ite1
    | (apply Held_id; extract_lets -underBinder +onlyGivenNames y; first | (refine keep_cut (p := Held b0 y) ?_ fun _ => ?_; unfold y; clear y; rotate_left; clear_value y) | clear_value y)
    | split | (dsimp only)

theorem keep_State_concEnable {b0 : State} {s : State} {w : Word} (h : Held b0 s) :
    Held b0 (State.concEnable s w) := by
  unfold State.concEnable
  repeat' with_reducible first
    | assumption | intro _ | apply keep_State_startAdmin | apply keep_State_wake | apply keep_State_kickAll
    | apply keep_State_setReg | apply Held_ite | apply Held_ite1
    | (apply Held_id; extract_lets -underBinder +onlyGivenNames y; first | (refine keep_cut (p := Held b0 y) ?_ fun _ => ?_; unfold y; clear y; rotate_left; clear_value y) | clear_value y)
    | split | (dsimp only)

/-! ### MgmtConc -/

theorem keep_State_mqTake {b0 : State} {s : State} {p : MqPkt} {svcNs : Nat} (h : Held b0 s) :
    Held b0 (State.mqTake s p svcNs) := by
  unfold State.mqTake
  repeat' with_reducible first
    | assumption | intro _ | apply keep_State_modConc
    | (apply Held_id; extract_lets -underBinder +onlyGivenNames y; first | (refine keep_cut (p := Held b0 y) ?_ fun _ => ?_; unfold y; clear y; rotate_left; clear_value y) | clear_value y)
    | split | (dsimp only)

theorem keep_State_mgRun {b0 : State} {s : State} {op svcNs : Nat} {f : State → MqPkt → State}
    (h : Held b0 s) (hf : ∀ z y, Held b0 z → Held b0 (f z y)) :
    Held b0 (State.mgRun s op svcNs f) := by
  unfold State.mgRun
  repeat' with_reducible first
    | assumption | intro _ | apply keep_State_mqTake | apply keep_State_wake | apply hf | apply Held_ite
    | apply Held_ite1 | split | (dsimp only)

theorem sane_State_mgRun {s : State} {op svcNs : Nat} {f : State → MqPkt → State}
    (h : Sane s) (hf : ∀ z y, Sane z → Sane (f z y)) :
    Sane (State.mgRun s op svcNs f) := by
  unfold State.mgRun
  repeat' with_reducible first
    | assumption | intro _ | refine Sane_by (fun k => keep_State_mqTake k) ?_
    | refine Sane_by (fun k => keep_State_wake k) ?_ | apply hf | apply Sane_ite | apply Sane_ite1 | split
    | (dsimp only)

theorem keep_State_mgOk {b0 : State} {s : State} {p : MqPkt} {detail : Nat} (h : Held b0 s) :
    Held b0 (State.mgOk s p detail) := by
  unfold State.mgOk
  repeat' with_reducible first
    | assumption | intro _ | apply keep_State_endMq | split | (dsimp only)

theorem keep_State_mgEnd {b0 : State} {s : State} {p : MqPkt} {e : Ending} (h : Held b0 s) :
    Held b0 (State.mgEnd s p e) := by
  unfold State.mgEnd
  repeat' with_reducible first
    | assumption | intro _ | apply keep_State_endMq | split | (dsimp only)

theorem keep_State_mgBadState {b0 : State} {s : State} {p : MqPkt} (h : Held b0 s) :
    Held b0 (State.mgBadState s p) := by
  unfold State.mgBadState
  repeat' with_reducible first
    | assumption | intro _ | apply keep_State_endMq | apply keep_State_draw | split | (dsimp only)

theorem keep_State_putOp {b0 : State} {s : State} {p : MqPkt} {k : MgmtKind} (h : Held b0 s) :
    Held b0 (State.putOp s p k) := by
  unfold State.putOp
  repeat' with_reducible first
    | assumption | intro _ | apply keep_State_modConc | split | (dsimp only)

theorem keep_State_dropOp {b0 : State} {s : State} {seq : Nat} (h : Held b0 s) :
    Held b0 (State.dropOp s seq) := by
  unfold State.dropOp
  repeat' with_reducible first
    | assumption | intro _ | apply keep_State_modConc | split | (dsimp only)

theorem keep_State_setTen {b0 : State} {s : State} {t : Nat} {e : TenEntry} {atOnce : Bool} (h : Held b0 s) :
    Held b0 (State.setTen s t e atOnce) := by
  unfold State.setTen
  repeat' with_reducible first
    | assumption | intro _ | apply keep_State_modConc | apply Held_ite | apply Held_ite1 | split | (dsimp only)

theorem keep_State_mgTenantSet {b0 : State} {s : State} {p : MqPkt} (h : Held b0 s) :
    Held b0 (State.mgTenantSet s p) := by
  unfold State.mgTenantSet
  repeat' with_reducible first
    | assumption | intro _ | apply keep_State_setTen | apply keep_State_mgBadState | apply keep_State_mgEnd
    | apply keep_State_mgOk | apply keep_State_kickAll | apply keep_State_dropPasid | apply Held_ite
    | apply Held_ite1
    | (apply Held_id; extract_lets -underBinder +onlyGivenNames y; first | (refine keep_cut (p := Held b0 y) ?_ fun _ => ?_; unfold y; clear y; rotate_left; clear_value y) | (refine keep_cut (p := Held b0 y.1) ?_ fun _ => ?_; unfold y; clear y; rotate_left; clear_value y) | clear_value y)
    | split | (dsimp only)

theorem keep_State_mgTenantDestroy {b0 : State} {s : State} {p : MqPkt} (h : Held b0 s) :
    Held b0 (State.mgTenantDestroy s p) := by
  unfold State.mgTenantDestroy
  repeat' with_reducible first
    | assumption | intro _ | apply keep_State_mgBadState | apply keep_State_mgOk | apply keep_State_modConc
    | apply keep_State_dropPasid | apply Held_ite | apply Held_ite1 | (simp -zeta -beta -iota -proj only [Held_mk])
    | (apply Held_id; extract_lets -underBinder +onlyGivenNames y; first | (refine keep_cut (p := Held b0 y) ?_ fun _ => ?_; unfold y; clear y; rotate_left; clear_value y) | (refine keep_cut (p := Held b0 y.1) ?_ fun _ => ?_; unfold y; clear y; rotate_left; clear_value y) | clear_value y)
    | apply Held_of | split | (dsimp only)

theorem keep_State_mgPasidBind {b0 : State} {s : State} {p : MqPkt} (h : Held b0 s) :
    Held b0 (State.mgPasidBind s p) := by
  unfold State.mgPasidBind
  repeat' with_reducible first
    | assumption | intro _ | apply keep_State_setTen | apply keep_State_mgBadState | apply keep_State_mgEnd
    | apply keep_State_mgOk | apply Held_ite | apply Held_ite1
    | (apply Held_id; extract_lets -underBinder +onlyGivenNames y; first | (refine keep_cut (p := Held b0 y) ?_ fun _ => ?_; unfold y; clear y; rotate_left; clear_value y) | clear_value y)
    | split | (dsimp only)

theorem keep_State_mgPasidUnbind {b0 : State} {s : State} {p : MqPkt} (h : Held b0 s) :
    Held b0 (State.mgPasidUnbind s p) := by
  unfold State.mgPasidUnbind
  repeat' with_reducible first
    | assumption | intro _ | apply keep_State_setTen | apply keep_State_mgBadState | apply keep_State_mgOk
    | apply keep_State_dropPasid | apply Held_ite | apply Held_ite1
    | (apply Held_id; extract_lets -underBinder +onlyGivenNames y; first | (refine keep_cut (p := Held b0 y) ?_ fun _ => ?_; unfold y; clear y; rotate_left; clear_value y) | clear_value y)
    | split | (dsimp only)

theorem keep_State_mgRingCreate {b0 : State} {s : State} {p : MqPkt} (h : Held b0 s) :
    Held b0 (State.mgRingCreate s p) := by
  unfold State.mgRingCreate
  repeat' with_reducible first
    | assumption | intro _ | apply keep_State_mgEnd | apply keep_State_mgOk | apply keep_State_modConc
    | apply Held_ite | apply Held_ite1
    | (apply Held_id; extract_lets -underBinder +onlyGivenNames y; first | (refine keep_cut (p := Held b0 y) ?_ fun _ => ?_; unfold y; clear y; rotate_left; clear_value y) | clear_value y)
    | split | (dsimp only)

theorem keep_State_cancelRing {b0 : State} {s : State} {n except : Nat} (h : Held b0 s) :
    Held b0 (State.cancelRing s n except) := by
  unfold State.cancelRing
  repeat' with_reducible first
    | assumption | intro _ | apply keep_State_letGo | apply keep_State_endMq | apply keep_State_endItem
    | apply keep_State_modConc
    | (apply Held_id; extract_lets -underBinder +onlyGivenNames y; first | (refine keep_cut (p := Held b0 y) ?_ fun _ => ?_; unfold y; clear y; rotate_left; clear_value y) | (refine keep_cut (p := Held b0 y.1) ?_ fun _ => ?_; unfold y; clear y; rotate_left; clear_value y) | clear_value y)
    | apply Held_foldl | apply Held_foldl1 | split | (dsimp only)

theorem keep_State_mgRingDestroy {b0 : State} {s : State} {p : MqPkt} (h : Held b0 s) :
    Held b0 (State.mgRingDestroy s p) := by
  unfold State.mgRingDestroy
  repeat' with_reducible first
    | assumption | intro _ | apply keep_State_cancelRing | apply keep_State_putOp | apply keep_State_mgOk
    | apply keep_State_readStops | apply keep_State_endMq | apply keep_State_modCmd | apply keep_State_modConc
    | apply Held_ite | apply Held_ite1
    | (apply Held_id; extract_lets -underBinder +onlyGivenNames y; first | (refine keep_cut (p := Held b0 y) ?_ fun _ => ?_; unfold y; clear y; rotate_left; clear_value y) | clear_value y)
    | split | (dsimp only)

theorem keep_State_ringRestart {b0 : State} {s : State} {n tail : Nat} (h : Held b0 s) :
    Held b0 (State.ringRestart s n tail) := by
  unfold State.ringRestart
  repeat' with_reducible first
    | assumption | intro _ | apply keep_State_kick | apply keep_State_writeWb | apply keep_State_modCmd | split
    | (dsimp only)

theorem keep_State_mgRingReset {b0 : State} {s : State} {p : MqPkt} (h : Held b0 s) :
    Held b0 (State.mgRingReset s p) := by
  unfold State.mgRingReset
  repeat' with_reducible first
    | assumption | intro _ | apply keep_State_ringRestart | apply keep_State_putOp | apply keep_State_mgOk
    | apply keep_State_endMq | apply keep_State_hostAcc | apply keep_State_engRead | apply Held_ite
    | apply Held_ite1
    | (apply Held_id; extract_lets -underBinder +onlyGivenNames y; first | (refine keep_cut (p := Held b0 y) ?_ fun _ => ?_; unfold y; clear y; rotate_left; clear_value y) | clear_value y)
    | refine Held_fst (by assumption) ?_ | split | (dsimp only)

theorem keep_State_resetTail {b0 : State} {s : State} {n : Nat} {tail : Option Nat} (h : Held b0 s) :
    Held b0 (State.resetTail s n tail) := by
  unfold State.resetTail
  repeat' with_reducible first
    | assumption | intro _ | apply keep_State_ringRestart | apply keep_State_dropOp | apply keep_State_mgOk
    | apply keep_State_endMq
    | (apply Held_id; extract_lets -underBinder +onlyGivenNames y; first | (refine keep_cut (p := Held b0 y) ?_ fun _ => ?_; unfold y; clear y; rotate_left; clear_value y) | clear_value y)
    | split | (dsimp only)

/-! ### MgmtTable -/

theorem keep_State_dirStore {b0 : State} {s : State} {off : Nat} {bs : List Byte} (h : Held b0 s) :
    Held b0 (State.dirStore s off bs) := by
  unfold State.dirStore
  repeat' with_reducible first
    | assumption | intro _ | apply keep_State_memStore | apply Held_ite | apply Held_ite1 | split | (dsimp only)

theorem keep_State_mirrorOne {b0 : State} {old s : State} {id : Nat} (h : Held b0 s) :
    Held b0 (State.mirrorOne old s id) := by
  unfold State.mirrorOne
  repeat' with_reducible first
    | assumption | intro _ | apply keep_State_dirStore | apply Held_ite | apply Held_ite1
    | (apply Held_id; extract_lets -underBinder +onlyGivenNames y; first | (refine keep_cut (p := Held b0 y) ?_ fun _ => ?_; unfold y; clear y; rotate_left; clear_value y) | clear_value y)
    | apply Held_foldl | apply Held_foldl1 | split | (dsimp only)

theorem keep_State_mirror {b0 : State} {old s : State} (h : Held b0 s) :
    Held b0 (State.mirror old s) := by
  unfold State.mirror
  repeat' with_reducible first
    | assumption | intro _ | apply keep_State_mirrorOne | apply Held_foldl | apply Held_foldl1 | split
    | (dsimp only)

theorem keep_State_dirRun {b0 : State} {s : State} {op svcNs : Nat} {f : State → MqPkt → State}
    (h : Held b0 s) (hf : ∀ z y, Held b0 z → Held b0 (f z y)) :
    Held b0 (State.dirRun s op svcNs f) := by
  unfold State.dirRun
  repeat' with_reducible first
    | assumption | intro _ | apply keep_State_mirror | apply keep_State_mgRun | apply hf | split | (dsimp only)

theorem sane_State_dirRun {s : State} {op svcNs : Nat} {f : State → MqPkt → State}
    (h : Sane s) (hf : ∀ z y, Sane z → Sane (f z y)) :
    Sane (State.dirRun s op svcNs f) := by
  unfold State.dirRun
  repeat' with_reducible first
    | assumption | intro _ | refine Sane_by (fun k => keep_State_mirror k) ?_ | apply sane_State_mgRun | apply hf
    | split | (dsimp only)

theorem keep_State_onTable {b0 : State} {s : State} {p : MqPkt} {f : State → Table → State}
    (h : Held b0 s) (hf : ∀ z y, Held b0 z → Held b0 (f z y)) :
    Held b0 (State.onTable s p f) := by
  unfold State.onTable
  repeat' with_reducible first
    | assumption | intro _ | apply keep_State_endMq | apply hf | split | (dsimp only)

theorem sane_State_onTable {s : State} {p : MqPkt} {f : State → Table → State}
    (h : Sane s) (hf : ∀ z y, Sane z → Sane (f z y)) :
    Sane (State.onTable s p f) := by
  unfold State.onTable
  repeat' with_reducible first
    | assumption | intro _ | refine Sane_by (fun k => keep_State_endMq k) ?_ | apply hf | split | (dsimp only)

theorem keep_State_schedule {b0 : State} {s : State} {p : MqPkt} {act : SchedAct} (h : Held b0 s) :
    Held b0 (State.schedule s p act) := by
  unfold State.schedule
  repeat' with_reducible first
    | assumption | intro _ | apply keep_State_endMq | apply keep_State_modConc | apply Held_ite | apply Held_ite1
    | split | (dsimp only)

theorem keep_State_mgTableDefine {b0 : State} {s : State} {p : MqPkt} (h : Held b0 s) :
    Held b0 (State.mgTableDefine s p) := by
  unfold State.mgTableDefine
  repeat' with_reducible first
    | assumption | intro _ | apply keep_State_mgEnd | apply keep_State_mgOk | apply keep_State_endMq
    | apply Held_ite | apply Held_ite1 | (simp -zeta -beta -iota -proj only [Held_mk])
    | (apply Held_id; extract_lets -underBinder +onlyGivenNames y; first | (refine keep_cut (p := Held b0 y) ?_ fun _ => ?_; unfold y; clear y; rotate_left; clear_value y) | (refine keep_cut (p := Held b0 y.1) ?_ fun _ => ?_; unfold y; clear y; rotate_left; clear_value y) | clear_value y)
    | apply Held_of | apply Held_foldl | apply Held_foldl1 | split | (dsimp only)

theorem keep_State_mgTableState {b0 : State} {s : State} {p : MqPkt} (h : Held b0 s) :
    Held b0 (State.mgTableState s p) := by
  unfold State.mgTableState
  repeat' with_reducible first
    | assumption | intro _ | apply keep_State_schedule | apply keep_State_onTable | apply keep_State_mgEnd
    | (apply Held_id; extract_lets -underBinder +onlyGivenNames y; first | (refine keep_cut (p := Held b0 y) ?_ fun _ => ?_; unfold y; clear y; rotate_left; clear_value y) | clear_value y)
    | split | (dsimp only)

theorem keep_State_opensDone {b0 : State} {s : State} (h : Held b0 s) :
    Held b0 (State.opensDone s) := by
  unfold State.opensDone
  repeat' with_reducible first
    | assumption | intro _ | apply keep_State_dropOp | apply keep_State_mgOk | apply Held_ite | apply Held_ite1
    | apply Held_foldl | apply Held_foldl1 | split | (dsimp only)

theorem keep_State_mgSwitch {b0 : State} {s : State} {p : MqPkt} (h : Held b0 s) :
    Held b0 (State.mgSwitch s p) := by
  unfold State.mgSwitch
  repeat' with_reducible first
    | assumption | intro _ | apply keep_State_schedule | apply keep_State_onTable | apply keep_State_putOp
    | apply keep_State_mgEnd | apply keep_State_mgOk | apply keep_State_endMq | apply keep_State_mntQueue
    | apply keep_State_modTable | apply Held_ite | apply Held_ite1
    | (apply Held_id; extract_lets -underBinder +onlyGivenNames y; first | (refine keep_cut (p := Held b0 y) ?_ fun _ => ?_; unfold y; clear y; rotate_left; clear_value y) | clear_value y)
    | split | (dsimp only)

theorem keep_State_mgShardMap {b0 : State} {s : State} {p : MqPkt} (h : Held b0 s) :
    Held b0 (State.mgShardMap s p) := by
  unfold State.mgShardMap
  repeat' with_reducible first
    | assumption | intro _ | apply keep_State_onTable | apply keep_State_mgEnd | apply keep_State_mgOk
    | apply keep_State_endMq | apply keep_State_modTable | apply hf1 | apply hf2 | apply hf3 | apply hf4
    | apply hf5 | apply Held_ite | apply Held_ite1
    | (apply Held_id; extract_lets -underBinder +onlyGivenNames y; first | (refine keep_cut (p := Held b0 y) ?_ fun _ => ?_; unfold y; clear y; rotate_left; clear_value y) | (refine keep_cut (p := ∀ z, Held b0 z → Held b0 (y z)) ?_ fun hf1 => ?_; unfold y; clear y; rotate_left; clear_value y) | (refine keep_cut (p := ∀ z a, Held b0 z → Held b0 (y z a)) ?_ fun hf2 => ?_; unfold y; clear y; rotate_left; clear_value y) | (refine keep_cut (p := ∀ z a b, Held b0 z → Held b0 (y z a b)) ?_ fun hf3 => ?_; unfold y; clear y; rotate_left; clear_value y) | (refine keep_cut (p := ∀ a, Held b0 (y a)) ?_ fun hf4 => ?_; unfold y; clear y; rotate_left; clear_value y) | (refine keep_cut (p := ∀ a b, Held b0 (y a b)) ?_ fun hf5 => ?_; unfold y; clear y; rotate_left; clear_value y) | clear_value y)
    | apply Held_foldl | apply Held_foldl1 | split | (dsimp only)

theorem keep_State_mgEpochBump {b0 : State} {s : State} {p : MqPkt} (h : Held b0 s) :
    Held b0 (State.mgEpochBump s p) := by
  unfold State.mgEpochBump
  repeat' with_reducible first
    | assumption | intro _ | apply keep_State_schedule | apply keep_State_onTable | apply keep_State_mgEnd
    | apply keep_State_endMq | apply keep_State_modTable | apply Held_ite | apply Held_ite1 | split | (dsimp only)

theorem keep_State_mgMigrate {b0 : State} {s : State} {p : MqPkt} (h : Held b0 s) :
    Held b0 (State.mgMigrate s p) := by
  unfold State.mgMigrate
  repeat' with_reducible first
    | assumption | intro _ | apply keep_State_schedule | apply keep_State_onTable | apply keep_State_mgEnd
    | apply keep_State_migBegin | apply Held_ite | apply Held_ite1
    | (apply Held_id; extract_lets -underBinder +onlyGivenNames y; first | (refine keep_cut (p := Held b0 y) ?_ fun _ => ?_; unfold y; clear y; rotate_left; clear_value y) | clear_value y)
    | split | (dsimp only)

theorem keep_State_mgGrant {b0 : State} {s : State} {p : MqPkt} (h : Held b0 s) :
    Held b0 (State.mgGrant s p) := by
  unfold State.mgGrant
  repeat' with_reducible first
    | assumption | intro _ | apply keep_State_onTable | apply keep_State_mgEnd | apply keep_State_mgOk
    | apply keep_State_endMq | apply Held_ite | apply Held_ite1 | (simp -zeta -beta -iota -proj only [Held_mk])
    | (apply Held_id; extract_lets -underBinder +onlyGivenNames y; first | (refine keep_cut (p := Held b0 y) ?_ fun _ => ?_; unfold y; clear y; rotate_left; clear_value y) | clear_value y)
    | apply Held_of | split | (dsimp only)

theorem keep_State_mgCounters {b0 : State} {s : State} {p : MqPkt} (h : Held b0 s) :
    Held b0 (State.mgCounters s p) := by
  unfold State.mgCounters
  repeat' with_reducible first
    | assumption | intro _ | apply keep_State_onTable | apply keep_State_dropOp | apply keep_State_putOp
    | apply keep_State_mgEnd | apply keep_State_mgOk | apply keep_State_endMq | apply keep_State_hostAcc
    | apply keep_State_modTable | apply Held_ite | apply Held_ite1
    | (apply Held_id; extract_lets -underBinder +onlyGivenNames y; first | (refine keep_cut (p := Held b0 y) ?_ fun _ => ?_; unfold y; clear y; rotate_left; clear_value y) | clear_value y)
    | refine Held_fst (by assumption) ?_ | apply Held_foldl | apply Held_foldl1 | split | (dsimp only)

end Sys2Proof.Laws
end

