-- ==== Sys2Proof/Laws/KeepSys.lean ====
section
/-! SUPPORT. What the operations of pins, columns, landings, time, resets, the system control opcodes, links and register accesses
keep, one lemma each. -/
namespace Sys2Proof.Laws

set_option linter.unusedSimpArgs false
set_option linter.unusedTactic false
set_option linter.unreachableTactic false

open Sys2Proof Sys2Proof.Machine Sys2Proof.Config Sys2Proof.Safety

/-! ### Pins -/

theorem keep_State_mfpApply {b0 : State} {s : State} {w : Word} (h : Held b0 s) :
    Held b0 (State.mfpApply s w) := by
  unfold State.mfpApply
  repeat' with_reducible first
    | assumption | intro _ | apply Held_ite | apply Held_ite1 | (simp -zeta -beta -iota -proj only [Held_mk])
    | (apply Held_id; extract_lets -underBinder +onlyGivenNames y; first | (refine keep_cut (p := Held b0 y) ?_ fun _ => ?_; unfold y; clear y; rotate_left; clear_value y) | clear_value y)
    | refine Held_pins (Held_of ?_) (by simp [length_updAt, length_upto]; done) | apply Held_of | split
    | (dsimp only)

theorem keep_State_pinsReset {b0 : State} {s : State} (h : Held b0 s) :
    Held b0 (State.pinsReset s) := by
  unfold State.pinsReset
  repeat' with_reducible first
    | assumption | intro _ | apply keep_State_mfpApply | split | (dsimp only)

theorem keep_State_pinConfig {s : State} (h : Sane s) :
    Sane (State.pinConfig s) := by
  unfold State.pinConfig
  repeat' with_reducible first
    | assumption | intro _ | refine Sane_by (fun k => keep_State_mfpApply k) ?_
    | refine Sane_by (fun k => keep_State_setReg k) ?_ | (simp -zeta -beta -iota -proj only [Sane_mk])
    | (apply Sane_id; extract_lets -underBinder +onlyGivenNames y; first | (refine keep_cut (p := Sane y) ?_ fun _ => ?_; unfold y; clear y; rotate_left; clear_value y) | (refine keep_cut (p := Sane y.1) ?_ fun _ => ?_; unfold y; clear y; rotate_left; clear_value y) | clear_value y)
    | apply Sound_of | apply Sane_foldl | apply Sane_foldl1 | split | (dsimp only)

theorem keep_State_rwpSet {b0 : State} {s : State} {word : Nat} {v : Word} (h : Held b0 s) :
    Held b0 (State.rwpSet s word v) := by
  unfold State.rwpSet
  repeat' with_reducible first
    | assumption | intro _ | apply keep_State_mfpApply | apply keep_State_setReg | apply Held_ite | apply Held_ite1
    | (apply Held_id; extract_lets -underBinder +onlyGivenNames y; first | (refine keep_cut (p := Held b0 y) ?_ fun _ => ?_; unfold y; clear y; rotate_left; clear_value y) | clear_value y)
    | split | (dsimp only)

theorem keep_State_rwpWrite {b0 : State} {s : State} {word : Nat} {v : Word} (h : Held b0 s) :
    Held b0 (State.rwpWrite s word v) := by
  unfold State.rwpWrite
  repeat' with_reducible first
    | assumption | intro _ | apply keep_State_rwpSet | apply keep_State_psRegister | apply Held_ite
    | apply Held_ite1
    | (apply Held_id; extract_lets -underBinder +onlyGivenNames y; first | (refine keep_cut (p := Held b0 y) ?_ fun _ => ?_; unfold y; clear y; rotate_left; clear_value y) | clear_value y)
    | refine Held_fst (by assumption) ?_ | split | (dsimp only)

theorem keep_psFill {b0 s : State} {left : List (Nat × Word)} (h : Held b0 s) : Held b0 (psFill s left).1 := by
  induction left generalizing s with
  | nil => exact h
  | cons x r ih =>
    unfold psFill
    split
    · exact ih (keep_State_psPut h)
    · exact h

theorem keep_State_psOps {b0 : State} {s : State} (h : Held b0 s) :
    Held b0 (State.psOps s) := by
  unfold State.psOps
  repeat' with_reducible first
    | assumption | intro _ | apply keep_psFill | apply keep_State_dropOp | apply keep_State_endMq
    | apply keep_State_modConc | apply Held_ite | apply Held_ite1
    | (apply Held_id; extract_lets -underBinder +onlyGivenNames y; first | (refine keep_cut (p := Held b0 y) ?_ fun _ => ?_; unfold y; clear y; rotate_left; clear_value y) | clear_value y)
    | refine Held_fst (by assumption) ?_ | apply Held_foldl | apply Held_foldl1 | split | (dsimp only)

theorem keep_State_modPres {s : State} {f : Pres → Pres} (h : Sane s) :
    Sane (State.modPres s f) := by
  unfold State.modPres
  repeat' with_reducible first
    | assumption | intro _ | (simp -zeta -beta -iota -proj only [Sane_mk]) | apply Sound_of | split | (dsimp only)

theorem keep_State_modBk {s : State} {f : Bk → Bk} (h : Sane s) :
    Sane (State.modBk s f) := by
  unfold State.modBk
  repeat' with_reducible first
    | assumption | intro _ | (simp -zeta -beta -iota -proj only [Sane_mk]) | apply Sound_of | split | (dsimp only)

theorem keep_State_modPin {b0 : State} {s : State} {n : Nat} {f : Pin → Pin} (h : Held b0 s) :
    Held b0 (State.modPin s n f) := by
  unfold State.modPin
  repeat' with_reducible first
    | assumption | intro _ | (simp -zeta -beta -iota -proj only [Held_mk])
    | refine Held_pins (Held_of ?_) (by simp [length_updAt]; done) | apply Held_of | split | (dsimp only)

theorem keep_State_landingPulse {b0 : State} {s : State} (h : Held b0 s) :
    Held b0 (State.landingPulse s) := by
  unfold State.landingPulse
  repeat' with_reducible first
    | assumption | intro _ | apply Held_ite | apply Held_ite1 | (simp -zeta -beta -iota -proj only [Held_mk])
    | (apply Held_id; extract_lets -underBinder +onlyGivenNames y; first | (refine keep_cut (p := Held b0 y) ?_ fun _ => ?_; unfold y; clear y; rotate_left; clear_value y) | clear_value y)
    | refine Held_pins (Held_of ?_) (by simp [length_updAt]; done) | apply Held_of | split | (dsimp only)

theorem keep_State_therm {s : State} {temp : Int} (h : Sane s) :
    Sane (State.therm s temp) := by
  unfold State.therm
  repeat' with_reducible first
    | assumption | intro _ | apply keep_State_modBk | refine Sane_by (fun k => keep_State_raise k) ?_
    | apply Sane_ite | apply Sane_ite1 | (simp -zeta -beta -iota -proj only [Sane_mk]) | apply Sound_of | split
    | (dsimp only)

/-! ### Stairwell -/

theorem keep_State_installRemap {b0 : State} {s : State} {k packed : Nat} (h : Held b0 s) :
    Held b0 (State.installRemap s k packed) := by
  unfold State.installRemap
  repeat' with_reducible first
    | assumption | intro _ | apply keep_State_raise | apply keep_State_modCol | apply keep_State_bump
    | (apply Held_id; extract_lets -underBinder +onlyGivenNames y; first | (refine keep_cut (p := Held b0 y) ?_ fun _ => ?_; unfold y; clear y; rotate_left; clear_value y) | clear_value y)
    | split | (dsimp only)

theorem keep_State_colPending {b0 : State} {s : State} {k : Nat} (h : Held b0 s) :
    Held b0 (State.colPending s k) := by
  unfold State.colPending
  repeat' with_reducible first
    | assumption | intro _ | apply keep_State_installRemap | apply keep_State_takeSpare | apply keep_State_modCol
    | apply Held_ite | apply Held_ite1
    | (apply Held_id; extract_lets -underBinder +onlyGivenNames y; first | (refine keep_cut (p := Held b0 y) ?_ fun _ => ?_; unfold y; clear y; rotate_left; clear_value y) | clear_value y)
    | refine Held_fst (by assumption) ?_ | apply Held_foldl | apply Held_foldl1 | split | (dsimp only)

theorem keep_State_applyEntry {b0 : State} {s : State} {i : Nat} {done : List Word} (h : Held b0 s) :
    Held b0 (State.applyEntry s i done) := by
  unfold State.applyEntry
  repeat' with_reducible first
    | assumption | intro _ | apply keep_State_raise | apply keep_State_modCol | apply Held_ite | apply Held_ite1
    | (apply Held_id; extract_lets -underBinder +onlyGivenNames y; first | (refine keep_cut (p := Held b0 y) ?_ fun _ => ?_; unfold y; clear y; rotate_left; clear_value y) | clear_value y)
    | split | (dsimp only)

theorem keep_State_applyMap {b0 : State} {s : State} (h : Held b0 s) :
    Held b0 (State.applyMap s) := by
  unfold State.applyMap
  repeat' with_reducible first
    | assumption | intro _ | apply keep_State_applyEntry | apply Held_ite | apply Held_ite1 | apply Held_foldl
    | apply Held_foldl1 | split | (dsimp only)

theorem keep_State_sampleCol {b0 : State} {s : State} {k : Nat} {temps : List Int} (h : Held b0 s) :
    Held b0 (State.sampleCol s k temps) := by
  unfold State.sampleCol
  repeat' with_reducible first
    | assumption | intro _ | apply keep_State_raise | apply keep_State_modCol | apply Held_ite | apply Held_ite1
    | (apply Held_id; extract_lets -underBinder +onlyGivenNames y; first | (refine keep_cut (p := Held b0 y) ?_ fun _ => ?_; unfold y; clear y; rotate_left; clear_value y) | clear_value y)
    | split | (dsimp only)

theorem keep_State_connError {b0 : State} {s : State} {k ch conn : Nat} (h : Held b0 s) :
    Held b0 (State.connError s k ch conn) := by
  unfold State.connError
  repeat' with_reducible first
    | assumption | intro _ | apply keep_State_raise | apply keep_State_modCol | apply Held_ite | apply Held_ite1
    | (apply Held_id; extract_lets -underBinder +onlyGivenNames y; first | (refine keep_cut (p := Held b0 y) ?_ fun _ => ?_; unfold y; clear y; rotate_left; clear_value y) | clear_value y)
    | split | (dsimp only)

theorem keep_State_stwRegCfg {b0 : State} {s : State} {col : Nat} {w : Word} (h : Held b0 s) :
    Held b0 (State.stwRegCfg s col w) := by
  unfold State.stwRegCfg
  repeat' with_reducible first
    | assumption | intro _ | apply keep_State_wake | apply keep_State_modCol | apply keep_State_setReg
    | apply Held_ite | apply Held_ite1
    | (apply Held_id; extract_lets -underBinder +onlyGivenNames y; first | (refine keep_cut (p := Held b0 y) ?_ fun _ => ?_; unfold y; clear y; rotate_left; clear_value y) | clear_value y)
    | split | (dsimp only)

theorem keep_State_flushCol {b0 : State} {s : State} {k : Nat} (h : Held b0 s) :
    Held b0 (State.flushCol s k) := by
  unfold State.flushCol
  repeat' with_reducible first
    | assumption | intro _ | apply keep_State_flushLine | apply Held_foldl | apply Held_foldl1 | split
    | (dsimp only)

theorem keep_State_marchStart {b0 : State} {s : State} {col : Nat} {w : Word} (h : Held b0 s) :
    Held b0 (State.marchStart s col w) := by
  unfold State.marchStart
  repeat' with_reducible first
    | assumption | intro _ | apply keep_State_flushCol | apply keep_State_modCol | apply keep_State_setReg
    | apply Held_ite | apply Held_ite1 | (simp -zeta -beta -iota -proj only [Held_mk])
    | (apply Held_id; extract_lets -underBinder +onlyGivenNames y; first | (refine keep_cut (p := Held b0 y) ?_ fun _ => ?_; unfold y; clear y; rotate_left; clear_value y) | clear_value y)
    | refine Held_stw (Held_of ?_) rfl (by simp [length_updAt]; done) | refine Held_mem (Held_eta (Held_of ?_))
    | refine Held_filter (Held_eta (Held_of ?_)) | apply Held_of | split | (dsimp only)

theorem keep_State_propose {b0 : State} {s : State} {k packed : Nat} (h : Held b0 s) :
    Held b0 (State.propose s k packed) := by
  unfold State.propose
  repeat' with_reducible first
    | assumption | intro _ | apply keep_State_modCol | apply Held_ite | apply Held_ite1 | split | (dsimp only)

/-! ### CacheOps -/

theorem keep_State_lineGiven {b0 : State} {s : State} {key : Nat} {data : List Byte} {w : Nat × Nat} (h : Held b0 s) :
    Held b0 (State.lineGiven s key data w) := by
  unfold State.lineGiven
  repeat' with_reducible first
    | assumption | intro _ | apply keep_State_advance | apply keep_State_linePart | apply Held_ite
    | apply Held_ite1 | split | (dsimp only)

theorem keep_State_lineDenied {b0 : State} {s : State} {line : Nat} {w : Nat × Nat} (h : Held b0 s) :
    Held b0 (State.lineDenied s line w) := by
  unfold State.lineDenied
  repeat' with_reducible first
    | assumption | intro _ | apply keep_State_refuseServed | apply keep_State_failItem | apply Held_ite
    | apply Held_ite1 | split | (dsimp only)

theorem keep_State_rcFill {b0 : State} {s : State} {m : RcMiss} {ecc : Ecc} (h : Held b0 s) :
    Held b0 (State.rcFill s m ecc) := by
  unfold State.rcFill
  repeat' with_reducible first
    | assumption | intro _ | apply keep_State_lineDenied | apply keep_State_lineGiven | apply keep_State_fillLine
    | apply keep_State_missDone | apply keep_State_stwRead | apply keep_State_takeTokens | apply Held_ite
    | apply Held_ite1
    | (apply Held_id; extract_lets -underBinder +onlyGivenNames y; first | (refine keep_cut (p := Held b0 y) ?_ fun _ => ?_; unfold y; clear y; rotate_left; clear_value y) | (refine keep_cut (p := Held b0 y.1) ?_ fun _ => ?_; unfold y; clear y; rotate_left; clear_value y) | clear_value y)
    | refine Held_fst (by assumption) ?_ | apply Held_foldl | apply Held_foldl1 | split | (dsimp only)

theorem keep_State_servedArrive {b0 : State} {s : State} {id pos : Nat} {r : RowRead} (h : Held b0 s) :
    Held b0 (State.servedArrive s id pos r) := by
  unfold State.servedArrive
  repeat' with_reducible first
    | assumption | intro _ | apply keep_State_servedCold | apply keep_State_serveTry | apply keep_State_dropAcc
    | apply keep_State_rcTagParity
    | (apply Held_id; extract_lets -underBinder +onlyGivenNames y; first | (refine keep_cut (p := Held b0 y) ?_ fun _ => ?_; unfold y; clear y; rotate_left; clear_value y) | clear_value y)
    | split | (dsimp only)

theorem keep_State_walkDone {b0 : State} {s : State} (h : Held b0 s) :
    Held b0 (State.walkDone s) := by
  unfold State.walkDone
  repeat' with_reducible first
    | assumption | intro _ | apply keep_State_opensDone | apply keep_State_mntStart | apply keep_State_modRc
    | apply Held_ite | apply Held_ite1
    | (apply Held_id; extract_lets -underBinder +onlyGivenNames y; first | (refine keep_cut (p := Held b0 y) ?_ fun _ => ?_; unfold y; clear y; rotate_left; clear_value y) | (refine keep_cut (p := Held b0 y.1) ?_ fun _ => ?_; unfold y; clear y; rotate_left; clear_value y) | clear_value y)
    | split | (dsimp only)

theorem keep_State_mntReq {b0 : State} {s : State} {op : MntOp} (h : Held b0 s) :
    Held b0 (State.mntReq s op) := by
  unfold State.mntReq
  repeat' with_reducible first
    | assumption | intro _ | apply keep_State_mntSoft | apply Held_ite | apply Held_ite1 | split | (dsimp only)

theorem keep_State_rcEnable {b0 : State} {s : State} {w : Word} (h : Held b0 s) :
    Held b0 (State.rcEnable s w) := by
  unfold State.rcEnable
  repeat' with_reducible first
    | assumption | intro _ | apply keep_State_mntQueue | apply keep_State_modRc | apply keep_State_setReg
    | apply Held_ite | apply Held_ite1
    | (apply Held_id; extract_lets -underBinder +onlyGivenNames y; first | (refine keep_cut (p := Held b0 y) ?_ fun _ => ?_; unfold y; clear y; rotate_left; clear_value y) | clear_value y)
    | split | (dsimp only)

theorem keep_State_rcDisable {b0 : State} {s : State} {w : Word} (h : Held b0 s) :
    Held b0 (State.rcDisable s w) := by
  unfold State.rcDisable
  repeat' with_reducible first
    | assumption | intro _ | apply keep_State_setReg | apply Held_ite | apply Held_ite1 | split | (dsimp only)

theorem keep_State_rcPin {b0 : State} {s : State} {w : Word} (h : Held b0 s) :
    Held b0 (State.rcPin s w) := by
  unfold State.rcPin
  repeat' with_reducible first
    | assumption | intro _ | apply keep_State_mntQueue | apply keep_State_modRc | apply keep_State_setReg
    | apply Held_ite | apply Held_ite1
    | (apply Held_id; extract_lets -underBinder +onlyGivenNames y; first | (refine keep_cut (p := Held b0 y) ?_ fun _ => ?_; unfold y; clear y; rotate_left; clear_value y) | clear_value y)
    | split | (dsimp only)

theorem keep_denseGo {b0 : State} {s : State} {fuel : Nat} (h : Held b0 s) :
    Held b0 (denseGo s fuel) := by
  induction fuel generalizing s with
  | zero =>
    unfold denseGo
    repeat' with_reducible first
      | assumption | intro _ | apply keep_State_resultWritten | apply keep_State_modXlt | apply keep_State_emit
      | apply Held_ite | apply Held_ite1
      | (apply Held_id; extract_lets -underBinder +onlyGivenNames y; first | (refine keep_cut (p := Held b0 y) ?_ fun _ => ?_; unfold y; clear y; rotate_left; clear_value y) | clear_value y)
      | split | (dsimp only)
  | succ k ih =>
    unfold denseGo
    repeat' with_reducible first
      | assumption | intro _ | apply ih | apply keep_State_resultWritten | apply keep_State_modXlt
      | apply keep_State_emit | apply Held_ite | apply Held_ite1
      | (apply Held_id; extract_lets -underBinder +onlyGivenNames y; first | (refine keep_cut (p := Held b0 y) ?_ fun _ => ?_; unfold y; clear y; rotate_left; clear_value y) | clear_value y)
      | split | (dsimp only)

theorem keep_State_statFlush {b0 : State} {s : State} {g : Nat} (h : Held b0 s) :
    Held b0 (State.statFlush s g) := by
  unfold State.statFlush
  repeat' with_reducible first
    | assumption | intro _ | apply keep_State_statWrite | apply keep_State_modGal
    | (apply Held_id; extract_lets -underBinder +onlyGivenNames y; first | (refine keep_cut (p := Held b0 y) ?_ fun _ => ?_; unfold y; clear y; rotate_left; clear_value y) | (refine keep_cut (p := Held b0 y.1) ?_ fun _ => ?_; unfold y; clear y; rotate_left; clear_value y) | clear_value y)
    | apply Held_foldl | apply Held_foldl1 | split | (dsimp only)

theorem keep_State_galStatSnap {b0 : State} {s : State} {w : Word} (h : Held b0 s) :
    Held b0 (State.galStatSnap s w) := by
  unfold State.galStatSnap
  repeat' with_reducible first
    | assumption | intro _ | apply keep_State_stwWrite | apply keep_State_setReg | apply hf1 | apply hf2
    | apply hf3 | apply hf4 | apply hf5 | apply Held_ite | apply Held_ite1
    | (simp -zeta -beta -iota -proj only [Held_mk])
    | (apply Held_id; extract_lets -underBinder +onlyGivenNames y; first | (refine keep_cut (p := Held b0 y) ?_ fun _ => ?_; unfold y; clear y; rotate_left; clear_value y) | (refine keep_cut (p := Held b0 y.1) ?_ fun _ => ?_; unfold y; clear y; rotate_left; clear_value y) | (refine keep_cut (p := ∀ z, Held b0 z → Held b0 (y z)) ?_ fun hf1 => ?_; unfold y; clear y; rotate_left; clear_value y) | (refine keep_cut (p := ∀ z a, Held b0 z → Held b0 (y z a)) ?_ fun hf2 => ?_; unfold y; clear y; rotate_left; clear_value y) | (refine keep_cut (p := ∀ z a b, Held b0 z → Held b0 (y z a b)) ?_ fun hf3 => ?_; unfold y; clear y; rotate_left; clear_value y) | (refine keep_cut (p := ∀ a, Held b0 (y a)) ?_ fun hf4 => ?_; unfold y; clear y; rotate_left; clear_value y) | (refine keep_cut (p := ∀ a b, Held b0 (y a b)) ?_ fun hf5 => ?_; unfold y; clear y; rotate_left; clear_value y) | clear_value y)
    | refine Held_gals (Held_of ?_) (by simp [length_updAt]; done) | apply Held_of | apply Held_foldl
    | apply Held_foldl1 | split | (dsimp only)

theorem keep_State_kiteUpdSnap {b0 : State} {s : State} {w : Word} (h : Held b0 s) :
    Held b0 (State.kiteUpdSnap s w) := by
  unfold State.kiteUpdSnap
  repeat' with_reducible first
    | assumption | intro _ | apply keep_State_updSnap | apply keep_State_setReg | apply Held_ite | apply Held_ite1
    | split | (dsimp only)

/-! ### Landing -/

theorem keep_State_modHall {s : State} {f : Hall → Hall} (h : Sane s) :
    Sane (State.modHall s f) := by
  unfold State.modHall
  repeat' with_reducible first
    | assumption | intro _ | (simp -zeta -beta -iota -proj only [Sane_mk]) | apply Sound_of | split | (dsimp only)

theorem keep_State_closeFlight {b0 : State} {s : State} (h : Held b0 s) :
    Held b0 (State.closeFlight s) := by
  unfold State.closeFlight
  repeat' with_reducible first
    | assumption | intro _ | apply keep_State_modFlt | apply keep_State_bump | apply Held_ite | apply Held_ite1
    | (apply Held_id; extract_lets -underBinder +onlyGivenNames y; first | (refine keep_cut (p := Held b0 y) ?_ fun _ => ?_; unfold y; clear y; rotate_left; clear_value y) | (refine keep_cut (p := Held b0 y.1) ?_ fun _ => ?_; unfold y; clear y; rotate_left; clear_value y) | clear_value y)
    | apply Held_foldl | apply Held_foldl1 | split | (dsimp only)

theorem keep_State_shiftDue {b0 : State} {s : State} {d : Int} (h : Held b0 s) :
    Held b0 (State.shiftDue s d) := by
  unfold State.shiftDue
  repeat' with_reducible first
    | assumption | intro _ | apply keep_State_modConc | apply keep_State_modFlt | apply keep_State_modKite
    | apply keep_State_due | apply hf1 | apply hf2 | apply hf3 | apply hf4 | apply hf5
    | (simp -zeta -beta -iota -proj only [Held_mk])
    | (apply Held_id; extract_lets -underBinder +onlyGivenNames y; first | (refine keep_cut (p := Held b0 y) ?_ fun _ => ?_; unfold y; clear y; rotate_left; clear_value y) | (refine keep_cut (p := ∀ z, Held b0 z → Held b0 (y z)) ?_ fun hf1 => ?_; unfold y; clear y; rotate_left; clear_value y) | (refine keep_cut (p := ∀ z a, Held b0 z → Held b0 (y z a)) ?_ fun hf2 => ?_; unfold y; clear y; rotate_left; clear_value y) | (refine keep_cut (p := ∀ z a b, Held b0 z → Held b0 (y z a b)) ?_ fun hf3 => ?_; unfold y; clear y; rotate_left; clear_value y) | (refine keep_cut (p := ∀ a, Held b0 (y a)) ?_ fun hf4 => ?_; unfold y; clear y; rotate_left; clear_value y) | (refine keep_cut (p := ∀ a b, Held b0 (y a b)) ?_ fun hf5 => ?_; unfold y; clear y; rotate_left; clear_value y) | clear_value y)
    | apply Held_of | split | (dsimp only)

theorem keep_State_takeNumber {s : State} {at_ : Nat} (h : Sane s) :
    Sane (State.takeNumber s at_) := by
  unfold State.takeNumber
  repeat' with_reducible first
    | assumption | intro _ | refine Sane_by (fun k => keep_State_shiftDue k) ?_ | apply keep_State_modHall
    | (apply Sane_id; extract_lets -underBinder +onlyGivenNames y; first | (refine keep_cut (p := Sane y) ?_ fun _ => ?_; unfold y; clear y; rotate_left; clear_value y) | clear_value y)
    | refine Sane_fst (by assumption) ?_ | split | (dsimp only)

theorem keep_State_takeRole {s : State} (h : Sane s) :
    Sane (State.takeRole s) := by
  unfold State.takeRole
  repeat' with_reducible first
    | assumption | intro _ | apply keep_State_modHall | apply Sane_ite | apply Sane_ite1
    | (apply Sane_id; extract_lets -underBinder +onlyGivenNames y; first | (refine keep_cut (p := Sane y) ?_ fun _ => ?_; unfold y; clear y; rotate_left; clear_value y) | clear_value y)
    | split | (dsimp only)

theorem keep_State_heldRun {b0 : State} {s : State} {landing : Nat} (h : Held b0 s) :
    Held b0 (State.heldRun s landing) := by
  unfold State.heldRun
  repeat' with_reducible first
    | assumption | intro _ | apply keep_State_raise | split | (dsimp only)

theorem keep_State_takeLength {s : State} {release : Bool} (h : Sane s) :
    Sane (State.takeLength s release) := by
  unfold State.takeLength
  repeat' with_reducible first
    | assumption | intro _ | refine Sane_by (fun k => keep_State_heldRun k) ?_ | apply keep_State_modHall
    | apply Sane_ite | apply Sane_ite1
    | (apply Sane_id; extract_lets -underBinder +onlyGivenNames y; first | (refine keep_cut (p := Sane y) ?_ fun _ => ?_; unfold y; clear y; rotate_left; clear_value y) | clear_value y)
    | split | (dsimp only)

theorem keep_State_runAct {b0 : State} {s : State} {x : Sched} (h : Held b0 s) :
    Held b0 (State.runAct s x) := by
  unfold State.runAct
  repeat' with_reducible first
    | assumption | intro _ | apply keep_State_heldRun | apply keep_State_graceDone | apply keep_State_migBump
    | apply keep_State_migBegin | apply keep_State_endSched | apply keep_State_mntQueue | apply keep_State_modTable
    | apply keep_State_bump | apply hf1 | apply hf2 | apply hf3 | apply hf4 | apply hf5 | apply Held_ite
    | apply Held_ite1
    | (apply Held_id; extract_lets -underBinder +onlyGivenNames y; first | (refine keep_cut (p := Held b0 y) ?_ fun _ => ?_; unfold y; clear y; rotate_left; clear_value y) | (refine keep_cut (p := Held b0 y.1) ?_ fun _ => ?_; unfold y; clear y; rotate_left; clear_value y) | (refine keep_cut (p := ∀ z, Held b0 z → Held b0 (y z)) ?_ fun hf1 => ?_; unfold y; clear y; rotate_left; clear_value y) | (refine keep_cut (p := ∀ z a, Held b0 z → Held b0 (y z a)) ?_ fun hf2 => ?_; unfold y; clear y; rotate_left; clear_value y) | (refine keep_cut (p := ∀ z a b, Held b0 z → Held b0 (y z a b)) ?_ fun hf3 => ?_; unfold y; clear y; rotate_left; clear_value y) | (refine keep_cut (p := ∀ a, Held b0 (y a)) ?_ fun hf4 => ?_; unfold y; clear y; rotate_left; clear_value y) | (refine keep_cut (p := ∀ a b, Held b0 (y a b)) ?_ fun hf5 => ?_; unfold y; clear y; rotate_left; clear_value y) | clear_value y)
    | split | (dsimp only)

theorem keep_State_runActs {b0 : State} {s : State} {release : Bool} (h : Held b0 s) :
    Held b0 (State.runActs s release) := by
  unfold State.runActs
  repeat' with_reducible first
    | assumption | intro _ | apply keep_State_runAct | apply keep_State_modConc | apply Held_ite | apply Held_ite1
    | (apply Held_id; extract_lets -underBinder +onlyGivenNames y; first | (refine keep_cut (p := Held b0 y) ?_ fun _ => ?_; unfold y; clear y; rotate_left; clear_value y) | clear_value y)
    | apply Held_foldl | apply Held_foldl1 | split | (dsimp only)

theorem keep_State_slotStep {b0 : State} {s : State} {table slot : Nat} (h : Held b0 s) :
    Held b0 (State.slotStep s table slot) := by
  unfold State.slotStep
  repeat' with_reducible first
    | assumption | intro _ | apply keep_State_modTable | apply Held_ite | apply Held_ite1
    | (apply Held_id; extract_lets -underBinder +onlyGivenNames y; first | (refine keep_cut (p := Held b0 y) ?_ fun _ => ?_; unfold y; clear y; rotate_left; clear_value y) | clear_value y)
    | split | (dsimp only)

theorem keep_State_tableStep {b0 : State} {s : State} (h : Held b0 s) :
    Held b0 (State.tableStep s) := by
  unfold State.tableStep
  repeat' with_reducible first
    | assumption | intro _ | apply keep_State_slotStep | apply keep_State_modTable | apply hf1 | apply hf2
    | apply hf3 | apply hf4 | apply hf5 | apply Held_ite | apply Held_ite1
    | (simp -zeta -beta -iota -proj only [Held_mk])
    | (apply Held_id; extract_lets -underBinder +onlyGivenNames y; first | (refine keep_cut (p := Held b0 y) ?_ fun _ => ?_; unfold y; clear y; rotate_left; clear_value y) | (refine keep_cut (p := Held b0 y.1) ?_ fun _ => ?_; unfold y; clear y; rotate_left; clear_value y) | (refine keep_cut (p := ∀ z, Held b0 z → Held b0 (y z)) ?_ fun hf1 => ?_; unfold y; clear y; rotate_left; clear_value y) | (refine keep_cut (p := ∀ z a, Held b0 z → Held b0 (y z a)) ?_ fun hf2 => ?_; unfold y; clear y; rotate_left; clear_value y) | (refine keep_cut (p := ∀ z a b, Held b0 z → Held b0 (y z a b)) ?_ fun hf3 => ?_; unfold y; clear y; rotate_left; clear_value y) | (refine keep_cut (p := ∀ a, Held b0 (y a)) ?_ fun hf4 => ?_; unfold y; clear y; rotate_left; clear_value y) | (refine keep_cut (p := ∀ a b, Held b0 (y a b)) ?_ fun hf5 => ?_; unfold y; clear y; rotate_left; clear_value y) | clear_value y)
    | apply Held_of | apply Held_foldl | apply Held_foldl1 | split | (dsimp only)

theorem keep_State_galStep {b0 : State} {s : State} (h : Held b0 s) :
    Held b0 (State.galStep s) := by
  unfold State.galStep
  repeat' with_reducible first
    | assumption | intro _ | apply keep_State_takeSpareGal | apply keep_State_noteCap | apply keep_State_modErr
    | apply keep_State_requestDrain | apply keep_State_setReplace | apply keep_State_raise
    | apply keep_State_modGal | apply Held_ite | apply Held_ite1 | (simp -zeta -beta -iota -proj only [Held_mk])
    | (apply Held_id; extract_lets -underBinder +onlyGivenNames y; first | (refine keep_cut (p := Held b0 y) ?_ fun _ => ?_; unfold y; clear y; rotate_left; clear_value y) | (refine keep_cut (p := Held b0 y.1) ?_ fun _ => ?_; unfold y; clear y; rotate_left; clear_value y) | clear_value y)
    | refine Held_gals (Held_of ?_) (by simp [length_updAt]; done) | apply Held_of | split | (dsimp only)

theorem keep_State_spillGal {b0 : State} {s : State} {g : Nat} (h : Held b0 s) :
    Held b0 (State.spillGal s g) := by
  unfold State.spillGal
  repeat' with_reducible first
    | assumption | intro _ | apply keep_State_spillFault | apply keep_State_tileSpilled
    | apply keep_State_chargeTileSpill | apply keep_State_hostAcc | apply hf1 | apply hf2 | apply hf3 | apply hf4
    | apply hf5 | apply Held_ite | apply Held_ite1
    | (apply Held_id; extract_lets -underBinder +onlyGivenNames y; first | (refine keep_cut (p := Held b0 y) ?_ fun _ => ?_; unfold y; clear y; rotate_left; clear_value y) | (refine keep_cut (p := Held b0 y.1) ?_ fun _ => ?_; unfold y; clear y; rotate_left; clear_value y) | (refine keep_cut (p := ∀ z, Held b0 z → Held b0 (y z)) ?_ fun hf1 => ?_; unfold y; clear y; rotate_left; clear_value y) | (refine keep_cut (p := ∀ z a, Held b0 z → Held b0 (y z a)) ?_ fun hf2 => ?_; unfold y; clear y; rotate_left; clear_value y) | (refine keep_cut (p := ∀ z a b, Held b0 z → Held b0 (y z a b)) ?_ fun hf3 => ?_; unfold y; clear y; rotate_left; clear_value y) | (refine keep_cut (p := ∀ a, Held b0 (y a)) ?_ fun hf4 => ?_; unfold y; clear y; rotate_left; clear_value y) | (refine keep_cut (p := ∀ a b, Held b0 (y a b)) ?_ fun hf5 => ?_; unfold y; clear y; rotate_left; clear_value y) | clear_value y)
    | refine Held_fst (by assumption) ?_ | apply Held_foldl | apply Held_foldl1 | split | (dsimp only)

theorem keep_State_spillWithdrawn {b0 : State} {s : State} (h : Held b0 s) :
    Held b0 (State.spillWithdrawn s) := by
  unfold State.spillWithdrawn
  repeat' with_reducible first
    | assumption | intro _ | apply keep_State_spillGal | apply Held_foldl | apply Held_foldl1 | split
    | (dsimp only)

theorem keep_State_openFlight {b0 : State} {s : State} (h : Held b0 s) :
    Held b0 (State.openFlight s) := by
  unfold State.openFlight
  repeat' with_reducible first
    | assumption | intro _ | apply keep_State_modFlt | apply hf1 | apply hf2 | apply hf3 | apply hf4 | apply hf5
    | apply Held_ite | apply Held_ite1 | (simp -zeta -beta -iota -proj only [Held_mk])
    | (apply Held_id; extract_lets -underBinder +onlyGivenNames y; first | (refine keep_cut (p := Held b0 y) ?_ fun _ => ?_; unfold y; clear y; rotate_left; clear_value y) | (refine keep_cut (p := ∀ z, Held b0 z → Held b0 (y z)) ?_ fun hf1 => ?_; unfold y; clear y; rotate_left; clear_value y) | (refine keep_cut (p := ∀ z a, Held b0 z → Held b0 (y z a)) ?_ fun hf2 => ?_; unfold y; clear y; rotate_left; clear_value y) | (refine keep_cut (p := ∀ z a b, Held b0 z → Held b0 (y z a b)) ?_ fun hf3 => ?_; unfold y; clear y; rotate_left; clear_value y) | (refine keep_cut (p := ∀ a, Held b0 (y a)) ?_ fun hf4 => ?_; unfold y; clear y; rotate_left; clear_value y) | (refine keep_cut (p := ∀ a b, Held b0 (y a b)) ?_ fun hf5 => ?_; unfold y; clear y; rotate_left; clear_value y) | clear_value y)
    | refine Held_cpy (Held_of ?_) (by simp [length_updAt, length_upto]; done)
    | refine Held_stw (Held_of ?_) rfl (by simp [length_updAt]; done) | refine Held_mem (Held_eta (Held_of ?_))
    | apply Held_of | split | (dsimp only)

theorem keep_State_takeSlew {s : State} (h : Sane s) :
    Sane (State.takeSlew s) := by
  unfold State.takeSlew
  repeat' with_reducible first
    | assumption | intro _ | apply keep_State_modHall | apply Sane_ite | apply Sane_ite1
    | (apply Sane_id; extract_lets -underBinder +onlyGivenNames y; first | (refine keep_cut (p := Sane y) ?_ fun _ => ?_; unfold y; clear y; rotate_left; clear_value y) | clear_value y)
    | split | (dsimp only)

theorem keep_State_ringStep {b0 : State} {s : State} (h : Held b0 s) :
    Held b0 (State.ringStep s) := by
  unfold State.ringStep
  repeat' with_reducible first
    | assumption | intro _ | apply keep_State_kick | apply keep_State_readHead | apply keep_State_writeWb
    | apply Held_ite | apply Held_ite1
    | (apply Held_id; extract_lets -underBinder +onlyGivenNames y; first | (refine keep_cut (p := Held b0 y) ?_ fun _ => ?_; unfold y; clear y; rotate_left; clear_value y) | (refine keep_cut (p := Held b0 y.1) ?_ fun _ => ?_; unfold y; clear y; rotate_left; clear_value y) | clear_value y)
    | apply Held_foldl | apply Held_foldl1 | split | (dsimp only)

theorem keep_State_coreLanding {b0 : State} {s : State} {release : Bool} (h : Held b0 s) :
    Held b0 (State.coreLanding s release) := by
  unfold State.coreLanding
  repeat' with_reducible first
    | assumption | intro _ | apply keep_State_ringStep | apply keep_State_openFlight
    | apply keep_State_spillWithdrawn | apply keep_State_galStep | apply keep_State_tableStep
    | apply keep_State_runActs | apply keep_State_mirror | apply keep_State_wake | apply keep_State_promoteMargin
    | apply keep_State_promoteAge | apply keep_State_migRecords | apply keep_State_migLanding
    | apply keep_State_modConc
    | (apply Held_id; extract_lets -underBinder +onlyGivenNames y; first | (refine keep_cut (p := Held b0 y) ?_ fun _ => ?_; unfold y; clear y; rotate_left; clear_value y) | (refine keep_cut (p := Held b0 y.1) ?_ fun _ => ?_; unfold y; clear y; rotate_left; clear_value y) | clear_value y)
    | apply Held_foldl | apply Held_foldl1 | split | (dsimp only)

theorem keep_State_landing {s : State} (h : Sane s) :
    Sane (State.landing s) := by
  unfold State.landing
  repeat' with_reducible first
    | assumption | intro _ | refine Sane_by (fun k => keep_State_coreLanding k) ?_ | apply keep_State_takeSlew
    | refine Sane_by (fun k => keep_State_galStep k) ?_ | apply keep_State_takeLength | apply keep_State_takeRole
    | apply keep_State_takeNumber | refine Sane_by (fun k => keep_State_closeFlight k) ?_
    | apply keep_State_modHall | refine Sane_by (fun k => keep_State_landingPulse k) ?_
    | refine Sane_by (fun k => keep_State_due k) ?_ | apply Sane_ite | apply Sane_ite1
    | (apply Sane_id; extract_lets -underBinder +onlyGivenNames y; first | (refine keep_cut (p := Sane y) ?_ fun _ => ?_; unfold y; clear y; rotate_left; clear_value y) | clear_value y)
    | split | (dsimp only)

theorem keep_State_landingIf {s : State} {p : State → Bool} (h : Sane s) :
    Sane (State.landingIf s p) := by
  unfold State.landingIf
  repeat' with_reducible first
    | assumption | intro _ | apply keep_State_landing | apply Sane_ite | apply Sane_ite1
    | (apply Sane_id; extract_lets -underBinder +onlyGivenNames y; first | (refine keep_cut (p := Sane y) ?_ fun _ => ?_; unfold y; clear y; rotate_left; clear_value y) | clear_value y)
    | split | (dsimp only)

/-! ### Sync -/

theorem keep_State_enterSynced {s : State} (h : Sane s) :
    Sane (State.enterSynced s) := by
  unfold State.enterSynced
  repeat' with_reducible first
    | assumption | intro _ | apply keep_State_modHall | split | (dsimp only)

theorem keep_State_compareGrid {s : State} {landing pos len : Nat} {pend : Option (Nat × Nat)} (h : Sane s) :
    Sane (State.compareGrid s landing pos len pend) := by
  unfold State.compareGrid
  repeat' with_reducible first
    | assumption | intro _ | apply keep_State_enterSynced | apply keep_State_landing | apply keep_State_modHall
    | apply hf1 | apply hf2 | apply hf3 | apply hf4 | apply hf5 | apply Sane_ite | apply Sane_ite1
    | (apply Sane_id; extract_lets -underBinder +onlyGivenNames y; first | (refine keep_cut (p := Sane y) ?_ fun _ => ?_; unfold y; clear y; rotate_left; clear_value y) | (refine keep_cut (p := ∀ z, Sane z → Sane (y z)) ?_ fun hf1 => ?_; unfold y; clear y; rotate_left; clear_value y) | (refine keep_cut (p := ∀ z a, Sane z → Sane (y z a)) ?_ fun hf2 => ?_; unfold y; clear y; rotate_left; clear_value y) | (refine keep_cut (p := ∀ z a b, Sane z → Sane (y z a b)) ?_ fun hf3 => ?_; unfold y; clear y; rotate_left; clear_value y) | (refine keep_cut (p := ∀ a, Sane (y a)) ?_ fun hf4 => ?_; unfold y; clear y; rotate_left; clear_value y) | (refine keep_cut (p := ∀ a b, Sane (y a b)) ?_ fun hf5 => ?_; unfold y; clear y; rotate_left; clear_value y) | clear_value y)
    | split | (dsimp only)

theorem keep_State_takeBeacon {s : State} {port : Nat} {b : Beacon} (h : Sane s) :
    Sane (State.takeBeacon s port b) := by
  unfold State.takeBeacon
  repeat' with_reducible first
    | assumption | intro _ | apply keep_State_compareGrid | apply keep_State_landing | apply keep_State_modHall
    | refine Sane_by (fun k => keep_State_emit k) ?_ | apply Sane_ite | apply Sane_ite1
    | (apply Sane_id; extract_lets -underBinder +onlyGivenNames y; first | (refine keep_cut (p := Sane y) ?_ fun _ => ?_; unfold y; clear y; rotate_left; clear_value y) | (refine keep_cut (p := Sane y.1) ?_ fun _ => ?_; unfold y; clear y; rotate_left; clear_value y) | clear_value y)
    | refine Sane_fst (by assumption) ?_ | apply Sane_foldl | apply Sane_foldl1 | split | (dsimp only)

theorem keep_State_enterFree {s : State} (h : Sane s) :
    Sane (State.enterFree s) := by
  unfold State.enterFree
  repeat' with_reducible first
    | assumption | intro _ | apply keep_State_modHall | refine Sane_by (fun k => keep_State_raise k) ?_ | split
    | (dsimp only)

theorem keep_State_writeRoot {s : State} {w : Word} (h : Sane s) :
    Sane (State.writeRoot s w) := by
  unfold State.writeRoot
  repeat' with_reducible first
    | assumption | intro _ | apply keep_State_modHall | apply Sane_ite | apply Sane_ite1
    | (apply Sane_id; extract_lets -underBinder +onlyGivenNames y; first | (refine keep_cut (p := Sane y) ?_ fun _ => ?_; unfold y; clear y; rotate_left; clear_value y) | clear_value y)
    | split | (dsimp only)

theorem keep_State_askResync {s : State} (h : Sane s) :
    Sane (State.askResync s) := by
  unfold State.askResync
  repeat' with_reducible first
    | assumption | intro _ | apply keep_State_modHall | split | (dsimp only)

theorem keep_State_askLagClr {b0 : State} {s : State} (h : Held b0 s) :
    Held b0 (State.askLagClr s) := by
  unfold State.askLagClr
  repeat' with_reducible first
    | assumption | intro _ | apply keep_State_modFlt | split | (dsimp only)

/-! ### Reset -/

theorem keep_State_modRst {s : State} {f : Rst → Rst} (h : Sane s) :
    Sane (State.modRst s f) := by
  unfold State.modRst
  repeat' with_reducible first
    | assumption | intro _ | (simp -zeta -beta -iota -proj only [Sane_mk]) | apply Sound_of | split | (dsimp only)

theorem keep_State_modBoot {b0 : State} {s : State} {f : Boot → Boot} (h : Held b0 s) :
    Held b0 (State.modBoot s f) := by
  unfold State.modBoot
  repeat' with_reducible first
    | assumption | intro _ | (simp -zeta -beta -iota -proj only [Held_mk]) | apply Held_of | split | (dsimp only)

theorem keep_State_bkCount {s : State} {cause : Nat} (h : Sane s) :
    Sane (State.bkCount s cause) := by
  unfold State.bkCount
  repeat' with_reducible first
    | assumption | intro _ | apply keep_State_landing | apply keep_State_modBk | apply Sane_ite | apply Sane_ite1
    | (apply Sane_id; extract_lets -underBinder +onlyGivenNames y; first | (refine keep_cut (p := Sane y) ?_ fun _ => ?_; unfold y; clear y; rotate_left; clear_value y) | clear_value y)
    | split | (dsimp only)

theorem keep_State_abortRecords {b0 : State} {s : State} {cause : Nat} (h : Held b0 s) :
    Held b0 (State.abortRecords s cause) := by
  unfold State.abortRecords
  repeat' with_reducible first
    | assumption | intro _ | apply keep_State_letGo | apply keep_State_endMq | apply keep_State_endItem
    | (apply Held_id; extract_lets -underBinder +onlyGivenNames y; first | (refine keep_cut (p := Held b0 y) ?_ fun _ => ?_; unfold y; clear y; rotate_left; clear_value y) | (refine keep_cut (p := Held b0 y.1) ?_ fun _ => ?_; unfold y; clear y; rotate_left; clear_value y) | clear_value y)
    | apply Held_foldl | apply Held_foldl1 | split | (dsimp only)

theorem keep_State_coreClear {s : State} (h : Sane s) : Sane (State.coreClear s) := by
  obtain ⟨a, b, c, d, e, f, g⟩ := h
  exact ⟨a, by simpa [State.coreClear] using b, by simpa [State.coreClear] using c, by simp [State.coreClear],
    by simpa [State.coreClear] using e, f, g⟩

theorem keep_State_warmClear {s : State} (h : Sane s) :
    Sane (State.warmClear s) := by
  unfold State.warmClear
  repeat' with_reducible first
    | assumption | intro _ | apply keep_State_coreClear | refine Sane_by (fun k => keep_State_mirror k) ?_
    | (simp -zeta -beta -iota -proj only [Sane_mk]) | apply Sound_of | split | (dsimp only)

theorem keep_State_wideClear {s : State} (h : Sane s) : Sane (State.wideClear s) := by
  unfold State.wideClear
  have k := keep_State_coreClear h
  generalize State.coreClear s = u at k ⊢
  obtain ⟨a, b, c, d, e, f, g⟩ := k
  repeat' with_reducible first
    | assumption | apply keep_State_modRst | refine Sane_by (fun k => keep_State_pinsReset k) ?_ | (dsimp only)
  exact ⟨rfl, by simp, by simpa using c, d, by simp, f, g⟩

theorem keep_State_warmStart {s : State} {cause : Nat} (h : Sane s) :
    Sane (State.warmStart s cause) := by
  unfold State.warmStart
  repeat' with_reducible first
    | assumption | intro _ | apply keep_State_warmClear | refine Sane_by (fun k => keep_State_abortRecords k) ?_
    | apply keep_State_bkCount | apply keep_State_modRst | apply Sane_ite | apply Sane_ite1
    | (apply Sane_id; extract_lets -underBinder +onlyGivenNames y; first | (refine keep_cut (p := Sane y) ?_ fun _ => ?_; unfold y; clear y; rotate_left; clear_value y) | clear_value y)
    | split | (dsimp only)

theorem keep_State_wideStart {s : State} (h : Sane s) :
    Sane (State.wideStart s) := by
  unfold State.wideStart
  repeat' with_reducible first
    | assumption | intro _ | apply keep_State_wideClear | apply keep_State_modRst | apply Sane_ite
    | apply Sane_ite1
    | (apply Sane_id; extract_lets -underBinder +onlyGivenNames y; first | (refine keep_cut (p := Sane y) ?_ fun _ => ?_; unfold y; clear y; rotate_left; clear_value y) | clear_value y)
    | split | (dsimp only)

theorem keep_State_rstCmd {s : State} {path : Path} {w : Word} (h : Sane s) :
    Sane (State.rstCmd s path w) := by
  unfold State.rstCmd
  repeat' with_reducible first
    | assumption | intro _ | apply keep_State_wideStart | apply keep_State_warmStart | apply keep_State_bkCount
    | apply keep_State_modRst | refine Sane_by (fun k => keep_State_raise k) ?_ | apply Sane_ite | apply Sane_ite1
    | (apply Sane_id; extract_lets -underBinder +onlyGivenNames y; first | (refine keep_cut (p := Sane y) ?_ fun _ => ?_; unfold y; clear y; rotate_left; clear_value y) | clear_value y)
    | split | (dsimp only)

theorem keep_State_railFall {s : State} (h : Sane s) :
    Sane (State.railFall s) := by
  unfold State.railFall
  repeat' with_reducible first
    | assumption | intro _ | apply keep_State_wideClear | (simp -zeta -beta -iota -proj only [Sane_mk])
    | (apply Sane_id; extract_lets -underBinder +onlyGivenNames y; first | (refine keep_cut (p := Sane y) ?_ fun _ => ?_; unfold y; clear y; rotate_left; clear_value y) | (refine keep_cut (p := Sane y.1) ?_ fun _ => ?_; unfold y; clear y; rotate_left; clear_value y) | clear_value y)
    | refine Sound_ps (Sound_of ?_) rfl | apply Sound_of | split | (dsimp only)

theorem keep_State_galsAtStart {b0 : State} {s : State} (h : Held b0 s) :
    Held b0 (State.galsAtStart s) := by
  unfold State.galsAtStart
  repeat' with_reducible first
    | assumption | intro _ | apply hf1 | apply hf2 | apply hf3 | apply hf4 | apply hf5
    | (simp -zeta -beta -iota -proj only [Held_mk])
    | (apply Held_id; extract_lets -underBinder +onlyGivenNames y; first | (refine keep_cut (p := Held b0 y) ?_ fun _ => ?_; unfold y; clear y; rotate_left; clear_value y) | (refine keep_cut (p := ∀ z, Held b0 z → Held b0 (y z)) ?_ fun hf1 => ?_; unfold y; clear y; rotate_left; clear_value y) | (refine keep_cut (p := ∀ z a, Held b0 z → Held b0 (y z a)) ?_ fun hf2 => ?_; unfold y; clear y; rotate_left; clear_value y) | (refine keep_cut (p := ∀ z a b, Held b0 z → Held b0 (y z a b)) ?_ fun hf3 => ?_; unfold y; clear y; rotate_left; clear_value y) | (refine keep_cut (p := ∀ a, Held b0 (y a)) ?_ fun hf4 => ?_; unfold y; clear y; rotate_left; clear_value y) | (refine keep_cut (p := ∀ a b, Held b0 (y a b)) ?_ fun hf5 => ?_; unfold y; clear y; rotate_left; clear_value y) | clear_value y)
    | refine Held_gals (Held_of ?_) (by simp [length_updAt, length_upto]; done) | apply Held_of | split
    | (dsimp only)

theorem keep_State_resolveTorn {b0 s : State} (h : Held b0 s) : Held b0 (State.resolveTorn s) := by
  unfold State.resolveTorn
  split
  · exact h
  · refine keep_State_raise (keep_modPs_le (keep_State_draw h) ?_)
    dsimp only
    split
    · exact counts_mapPut (Held_counts (keep_State_draw h)) (Nat.min_le_left _ _)
    · exact Held_counts (keep_State_draw h)

theorem keep_State_step1Ready {s : State} {strap : Nat} (h : Sane s) :
    Sane (State.step1Ready s strap) := by
  unfold State.step1Ready
  repeat' with_reducible first
    | assumption | intro _ | refine Sane_by (fun k => keep_State_resolveTorn k) ?_
    | refine Sane_by (fun k => keep_State_galsAtStart k) ?_ | apply keep_State_bkCount
    | refine Sane_by (fun k => keep_State_modBoot k) ?_ | apply keep_State_modRst | apply keep_State_therm
    | apply keep_State_modBk | refine Sane_by (fun k => keep_State_noteCap k) ?_
    | refine Sane_by (fun k => keep_State_modErr k) ?_ | refine Sane_by (fun k => keep_State_raise k) ?_
    | refine Sane_by (fun k => keep_State_setReg k) ?_ | apply Sane_ite | apply Sane_ite1
    | (simp -zeta -beta -iota -proj only [Sane_mk])
    | (apply Sane_id; extract_lets -underBinder +onlyGivenNames y; first | (refine keep_cut (p := Sane y) ?_ fun _ => ?_; unfold y; clear y; rotate_left; clear_value y) | (refine keep_cut (p := Sane y.1) ?_ fun _ => ?_; unfold y; clear y; rotate_left; clear_value y) | clear_value y)
    | apply Sound_of | apply Sane_foldl | apply Sane_foldl1 | split | (dsimp only)

theorem keep_State_step2Ready {s : State} {temps : List Int} (h : Sane s) :
    Sane (State.step2Ready s temps) := by
  unfold State.step2Ready
  repeat' with_reducible first
    | assumption | intro _ | apply keep_State_modRst | refine Sane_by (fun k => keep_State_sampleCol k) ?_
    | refine Sane_by (fun k => keep_State_applyMap k) ?_ | refine Sane_by (fun k => keep_State_colPending k) ?_
    | apply Sane_ite | apply Sane_ite1
    | (apply Sane_id; extract_lets -underBinder +onlyGivenNames y; first | (refine keep_cut (p := Sane y) ?_ fun _ => ?_; unfold y; clear y; rotate_left; clear_value y) | (refine keep_cut (p := Sane y.1) ?_ fun _ => ?_; unfold y; clear y; rotate_left; clear_value y) | clear_value y)
    | apply Sane_foldl | apply Sane_foldl1 | split | (dsimp only)

theorem keep_State_step5Ready {b0 : State} {s : State} (h : Held b0 s) :
    Held b0 (State.step5Ready s) := by
  unfold State.step5Ready
  repeat' with_reducible first
    | assumption | intro _ | apply keep_State_takeSpareGal | (simp -zeta -beta -iota -proj only [Held_mk])
    | refine Held_gals (Held_of ?_) (by simp [length_updAt]; done) | apply Held_of | split | (dsimp only)

theorem keep_State_step6Ready {s : State} (h : Sane s) :
    Sane (State.step6Ready s) := by
  unfold State.step6Ready
  repeat' with_reducible first
    | assumption | intro _ | apply keep_State_modRst | refine Sane_by (fun k => keep_State_openFlight k) ?_
    | apply keep_State_pinConfig | refine Sane_by (fun k => keep_State_wake k) ?_
    | refine Sane_by (fun k => keep_State_modErr k) ?_ | refine Sane_by (fun k => keep_State_raise k) ?_
    | apply Sane_ite | apply Sane_ite1
    | (apply Sane_id; extract_lets -underBinder +onlyGivenNames y; first | (refine keep_cut (p := Sane y) ?_ fun _ => ?_; unfold y; clear y; rotate_left; clear_value y) | clear_value y)
    | split | (dsimp only)

theorem keep_State_fwStart {b0 : State} {s : State} {slot : Nat} {ver : Word} (h : Held b0 s) :
    Held b0 (State.fwStart s slot ver) := by
  unfold State.fwStart
  repeat' with_reducible first
    | assumption | intro _ | apply keep_State_modBoot | split | (dsimp only)

theorem keep_State_bootStore {b0 : State} {s : State} (h : Held b0 s) :
    Held b0 (State.bootStore s) := by
  unfold State.bootStore
  repeat' with_reducible first
    | assumption | intro _ | apply keep_State_fwStart | apply keep_State_modBoot | apply keep_State_raise
    | apply Held_ite | apply Held_ite1
    | (apply Held_id; extract_lets -underBinder +onlyGivenNames y; first | (refine keep_cut (p := Held b0 y) ?_ fun _ => ?_; unfold y; clear y; rotate_left; clear_value y) | clear_value y)
    | split | (dsimp only)

theorem keep_State_fwRestart {b0 : State} {s : State} (h : Held b0 s) :
    Held b0 (State.fwRestart s) := by
  unfold State.fwRestart
  repeat' with_reducible first
    | assumption | intro _ | apply keep_State_modBoot | apply keep_State_wake | apply keep_State_endMq
    | apply keep_State_modConc | apply keep_State_modXlt | apply keep_State_raise | apply keep_State_bump
    | (simp -zeta -beta -iota -proj only [Held_mk])
    | (apply Held_id; extract_lets -underBinder +onlyGivenNames y; first | (refine keep_cut (p := Held b0 y) ?_ fun _ => ?_; unfold y; clear y; rotate_left; clear_value y) | (refine keep_cut (p := Held b0 y.1) ?_ fun _ => ?_; unfold y; clear y; rotate_left; clear_value y) | clear_value y)
    | refine Held_gals (Held_of ?_) (by simp [length_updAt]; done) | apply Held_of | apply Held_foldl
    | apply Held_foldl1 | split | (dsimp only)

/-! ### MgmtSys -/

theorem keep_State_modSelf {b0 : State} {s : State} {f : SelfTest → SelfTest} (h : Held b0 s) :
    Held b0 (State.modSelf s f) := by
  unfold State.modSelf
  repeat' with_reducible first
    | assumption | intro _ | (simp -zeta -beta -iota -proj only [Held_mk]) | apply Held_of | split | (dsimp only)

theorem keep_State_dropSlice {b0 : State} {s : State} {slice : Nat} (h : Held b0 s) :
    Held b0 (State.dropSlice s slice) := by
  unfold State.dropSlice
  repeat' with_reducible first
    | assumption | intro _ | apply keep_State_rcWithhold | apply keep_State_modRc | split | (dsimp only)

theorem keep_selfNext {b0 s : State} {fuel : Nat} (h : Held b0 s) : Held b0 (selfNext s fuel) := by
  induction fuel generalizing s with
  | zero =>
    unfold selfNext
    exact h
  | succ k ih =>
    unfold selfNext
    split
    · exact h
    · exact h
    · rename_i f t e _
      cases e
      repeat' with_reducible first
        | assumption | apply ih | apply keep_State_endMq | apply keep_State_modSelf | apply keep_State_modGal
        | apply keep_State_spillGal | apply keep_State_clearGalRegs | apply keep_State_dropSlice | apply Held_ite
        | (simp -zeta -beta -iota -proj only [Held_mk]) | apply Held_of | split | (dsimp only)

theorem keep_State_selfReturn {b0 : State} {s : State} (h : Held b0 s) :
    Held b0 (State.selfReturn s) := by
  unfold State.selfReturn
  repeat' with_reducible first
    | assumption | intro _ | apply keep_selfNext | apply keep_State_dropSlice | apply keep_State_modSelf
    | apply keep_State_modGal | apply Held_ite | apply Held_ite1
    | (apply Held_id; extract_lets -underBinder +onlyGivenNames y; first | (refine keep_cut (p := Held b0 y) ?_ fun _ => ?_; unfold y; clear y; rotate_left; clear_value y) | clear_value y)
    | split | (dsimp only)

theorem keep_State_mgSelftest {b0 : State} {s : State} {p : MqPkt} (h : Held b0 s) :
    Held b0 (State.mgSelftest s p) := by
  unfold State.mgSelftest
  repeat' with_reducible first
    | assumption | intro _ | apply keep_selfNext | apply keep_State_mgEnd | apply keep_State_endMq
    | (simp -zeta -beta -iota -proj only [Held_mk])
    | (apply Held_id; extract_lets -underBinder +onlyGivenNames y; first | (refine keep_cut (p := Held b0 y) ?_ fun _ => ?_; unfold y; clear y; rotate_left; clear_value y) | clear_value y)
    | refine Held_gals (Held_of ?_) (by simp [length_updAt]; done) | apply Held_of | split | (dsimp only)

theorem keep_State_sliceFails {b0 : State} {s : State} {slice : Nat} (h : Held b0 s) :
    Held b0 (State.sliceFails s slice) := by
  unfold State.sliceFails
  repeat' with_reducible first
    | assumption | intro _ | apply keep_State_modRc | apply keep_State_raise | apply Held_ite | apply Held_ite1
    | split | (dsimp only)

theorem keep_State_selfResult {b0 : State} {s : State} {kind u code : Nat} {retest : Option Nat} (h : Held b0 s) :
    Held b0 (State.selfResult s kind u code retest) := by
  unfold State.selfResult
  repeat' with_reducible first
    | assumption | intro _ | apply keep_State_sliceFails | apply keep_State_selfReturn | apply keep_State_modSelf
    | apply keep_State_fenceGal | apply keep_State_raise | apply hf1 | apply hf2 | apply hf3 | apply hf4
    | apply hf5 | apply Held_ite | apply Held_ite1
    | (apply Held_id; extract_lets -underBinder +onlyGivenNames y; first | (refine keep_cut (p := Held b0 y) ?_ fun _ => ?_; unfold y; clear y; rotate_left; clear_value y) | (refine keep_cut (p := ∀ z, Held b0 z → Held b0 (y z)) ?_ fun hf1 => ?_; unfold y; clear y; rotate_left; clear_value y) | (refine keep_cut (p := ∀ z a, Held b0 z → Held b0 (y z a)) ?_ fun hf2 => ?_; unfold y; clear y; rotate_left; clear_value y) | (refine keep_cut (p := ∀ z a b, Held b0 z → Held b0 (y z a b)) ?_ fun hf3 => ?_; unfold y; clear y; rotate_left; clear_value y) | (refine keep_cut (p := ∀ a, Held b0 (y a)) ?_ fun hf4 => ?_; unfold y; clear y; rotate_left; clear_value y) | (refine keep_cut (p := ∀ a b, Held b0 (y a b)) ?_ fun hf5 => ?_; unfold y; clear y; rotate_left; clear_value y) | clear_value y)
    | split | (dsimp only)

theorem keep_State_mgFence {b0 : State} {s : State} {p : MqPkt} (h : Held b0 s) :
    Held b0 (State.mgFence s p) := by
  unfold State.mgFence
  repeat' with_reducible first
    | assumption | intro _ | apply keep_State_mgEnd | apply keep_State_mgOk | apply keep_State_fenceGal
    | apply keep_State_endMq | apply Held_ite | apply Held_ite1
    | (apply Held_id; extract_lets -underBinder +onlyGivenNames y; first | (refine keep_cut (p := Held b0 y) ?_ fun _ => ?_; unfold y; clear y; rotate_left; clear_value y) | clear_value y)
    | split | (dsimp only)

theorem keep_State_setQuiesced {b0 : State} {s : State} {kind u : Nat} {q : Bool} (h : Held b0 s) :
    Held b0 (State.setQuiesced s kind u q) := by
  unfold State.setQuiesced
  repeat' with_reducible first
    | assumption | intro _ | apply keep_State_modChan | apply keep_State_modRc | apply keep_State_modCol
    | apply keep_State_modGal | apply keep_State_setReg | apply Held_ite | apply Held_ite1
    | (apply Held_id; extract_lets -underBinder +onlyGivenNames y; first | (refine keep_cut (p := Held b0 y) ?_ fun _ => ?_; unfold y; clear y; rotate_left; clear_value y) | clear_value y)
    | split | (dsimp only)

theorem keep_State_clearRegs {b0 : State} {s : State} {p : Nat → Bool} (h : Held b0 s) :
    Held b0 (State.clearRegs s p) := by
  unfold State.clearRegs
  repeat' with_reducible first
    | assumption | intro _ | (simp -zeta -beta -iota -proj only [Held_mk]) | apply Held_of | split | (dsimp only)

theorem keep_State_resetUnit {b0 : State} {s : State} {kind u : Nat} (h : Held b0 s) :
    Held b0 (State.resetUnit s kind u) := by
  unfold State.resetUnit
  repeat' with_reducible first
    | assumption | intro _ | apply keep_State_clearRegs | apply keep_State_dropSlice
    | apply keep_State_clearGalRegs | apply keep_State_modChan | apply keep_State_modCol | apply keep_State_setReg
    | (apply Held_id; extract_lets -underBinder +onlyGivenNames y; first | (refine keep_cut (p := Held b0 y) ?_ fun _ => ?_; unfold y; clear y; rotate_left; clear_value y) | clear_value y)
    | split | (dsimp only)

theorem keep_State_mgUnitReset {s : State} {p : MqPkt} (h : Sane s) :
    Sane (State.mgUnitReset s p) := by
  unfold State.mgUnitReset
  repeat' with_reducible first
    | assumption | intro _ | refine Sane_by (fun k => keep_State_resetUnit k) ?_
    | refine Sane_by (fun k => keep_State_setQuiesced k) ?_ | apply keep_State_bkCount
    | refine Sane_by (fun k => keep_State_spillGal k) ?_ | refine Sane_by (fun k => keep_State_putOp k) ?_
    | refine Sane_by (fun k => keep_State_mgEnd k) ?_ | refine Sane_by (fun k => keep_State_mgOk k) ?_
    | refine Sane_by (fun k => keep_State_endMq k) ?_ | apply hf1 | apply hf2 | apply hf3 | apply hf4 | apply hf5
    | apply Sane_ite | apply Sane_ite1
    | (apply Sane_id; extract_lets -underBinder +onlyGivenNames y; first | (refine keep_cut (p := Sane y) ?_ fun _ => ?_; unfold y; clear y; rotate_left; clear_value y) | (refine keep_cut (p := Sane y.1) ?_ fun _ => ?_; unfold y; clear y; rotate_left; clear_value y) | (refine keep_cut (p := ∀ z, Sane z → Sane (y z)) ?_ fun hf1 => ?_; unfold y; clear y; rotate_left; clear_value y) | (refine keep_cut (p := ∀ z a, Sane z → Sane (y z a)) ?_ fun hf2 => ?_; unfold y; clear y; rotate_left; clear_value y) | (refine keep_cut (p := ∀ z a b, Sane z → Sane (y z a b)) ?_ fun hf3 => ?_; unfold y; clear y; rotate_left; clear_value y) | (refine keep_cut (p := ∀ a, Sane (y a)) ?_ fun hf4 => ?_; unfold y; clear y; rotate_left; clear_value y) | (refine keep_cut (p := ∀ a b, Sane (y a b)) ?_ fun hf5 => ?_; unfold y; clear y; rotate_left; clear_value y) | clear_value y)
    | split | (dsimp only)

theorem keep_State_mgDrain {b0 : State} {s : State} {p : MqPkt} (h : Held b0 s) :
    Held b0 (State.mgDrain s p) := by
  unfold State.mgDrain
  repeat' with_reducible first
    | assumption | intro _ | apply keep_State_putOp | apply keep_State_mgOk | apply keep_State_enterDraining
    | apply Held_ite | apply Held_ite1 | split | (dsimp only)

theorem keep_State_psPacket {b0 : State} {s : State} {p : MqPkt} {l : List (Nat × Word)} (h : Held b0 s) :
    Held b0 (State.psPacket s p l) := by
  unfold State.psPacket
  repeat' with_reducible first
    | assumption | intro _ | apply keep_State_psOps | apply keep_State_rwpSet | apply keep_State_putOp
    | apply keep_State_mgEnd | apply keep_State_mgOk
    | (apply Held_id; extract_lets -underBinder +onlyGivenNames y; first | (refine keep_cut (p := Held b0 y) ?_ fun _ => ?_; unfold y; clear y; rotate_left; clear_value y) | (refine keep_cut (p := Held b0 y.1) ?_ fun _ => ?_; unfold y; clear y; rotate_left; clear_value y) | clear_value y)
    | apply Held_foldl | apply Held_foldl1 | split | (dsimp only)

theorem keep_State_mgPersist {b0 : State} {s : State} {p : MqPkt} (h : Held b0 s) :
    Held b0 (State.mgPersist s p) := by
  unfold State.mgPersist
  repeat' with_reducible first
    | assumption | intro _ | apply keep_State_psPacket | apply keep_State_mgEnd | apply Held_ite | apply Held_ite1
    | (apply Held_id; extract_lets -underBinder +onlyGivenNames y; first | (refine keep_cut (p := Held b0 y) ?_ fun _ => ?_; unfold y; clear y; rotate_left; clear_value y) | clear_value y)
    | split | (dsimp only)

theorem keep_State_gated {b0 : State} {s : State} {p : MqPkt} {f : State → State}
    (h : Held b0 s) (hf : ∀ z, Held b0 z → Held b0 (f z)) :
    Held b0 (State.gated s p f) := by
  unfold State.gated
  repeat' with_reducible first
    | assumption | intro _ | apply keep_State_endMq | apply hf | apply Held_ite | apply Held_ite1 | split
    | (dsimp only)

theorem sane_State_gated {s : State} {p : MqPkt} {f : State → State} (h : Sane s) (hf : ∀ z, Sane z → Sane (f z)) :
    Sane (State.gated s p f) := by
  unfold State.gated
  repeat' with_reducible first
    | assumption | intro _ | refine Sane_by (fun k => keep_State_endMq k) ?_ | apply hf | apply Sane_ite
    | apply Sane_ite1 | split | (dsimp only)

theorem keep_State_mgRepair {b0 : State} {s : State} {p : MqPkt} (h : Held b0 s) :
    Held b0 (State.mgRepair s p) := by
  unfold State.mgRepair
  repeat' with_reducible first
    | assumption | intro _ | apply keep_State_gated | apply keep_State_psPacket | apply keep_State_mgEnd
    | (apply Held_id; extract_lets -underBinder +onlyGivenNames y; first | (refine keep_cut (p := Held b0 y) ?_ fun _ => ?_; unfold y; clear y; rotate_left; clear_value y) | clear_value y)
    | split | (dsimp only)

theorem keep_State_mgOverride {b0 : State} {s : State} {p : MqPkt} (h : Held b0 s) :
    Held b0 (State.mgOverride s p) := by
  unfold State.mgOverride
  repeat' with_reducible first
    | assumption | intro _ | apply keep_State_gated | apply keep_State_mgEnd | apply keep_State_mgOk
    | apply keep_State_modPs | rfl | apply Held_ite | apply Held_ite1 | split | (dsimp only)

theorem keep_State_fwAsk {b0 : State} {s : State} {p : MqPkt} {addr size : Nat} (h : Held b0 s) :
    Held b0 (State.fwAsk s p addr size) := by
  unfold State.fwAsk
  repeat' with_reducible first
    | assumption | intro _ | apply keep_State_dropOp | apply keep_State_putOp | apply keep_State_endMq
    | apply keep_State_hostAcc
    | (apply Held_id; extract_lets -underBinder +onlyGivenNames y; first | (refine keep_cut (p := Held b0 y) ?_ fun _ => ?_; unfold y; clear y; rotate_left; clear_value y) | (refine keep_cut (p := Held b0 y.1) ?_ fun _ => ?_; unfold y; clear y; rotate_left; clear_value y) | clear_value y)
    | split | (dsimp only)

theorem keep_State_mgUnless {b0 s good : State} {p : MqPkt} {bad : Option Ending} (h : Held b0 s) (hg : Held b0 good) :
    Held b0 (State.mgUnless s p bad good) := by
  cases bad with
  | some e => exact keep_State_mgEnd h
  | none => exact hg

theorem keep_State_mgFwLoad {b0 s : State} {p : MqPkt} (h : Held b0 s) : Held b0 (State.mgFwLoad s p) :=
  keep_State_mgUnless h (keep_State_fwAsk h)

theorem keep_State_fwGot {b0 : State} {s : State} {seq : Nat} {data : List Byte} {poison : Bool} (h : Held b0 s) :
    Held b0 (State.fwGot s seq data poison) := by
  unfold State.fwGot
  repeat' with_reducible first
    | assumption | intro _ | apply keep_State_modBoot | apply keep_State_dropOp | apply keep_State_mgOk
    | apply keep_State_endMq | apply Held_ite | apply Held_ite1
    | (apply Held_id; extract_lets -underBinder +onlyGivenNames y; first | (refine keep_cut (p := Held b0 y) ?_ fun _ => ?_; unfold y; clear y; rotate_left; clear_value y) | clear_value y)
    | split | (dsimp only)

theorem keep_State_mgFwAccept {b0 : State} {s : State} {p : MqPkt} (h : Held b0 s) :
    Held b0 (State.mgFwAccept s p) := by
  unfold State.mgFwAccept
  repeat' with_reducible first
    | assumption | intro _ | apply keep_State_gated | apply keep_State_psPacket | apply keep_State_mgBadState
    | split | (dsimp only)

theorem keep_State_mgDebug {b0 : State} {s : State} {p : MqPkt} (h : Held b0 s) :
    Held b0 (State.mgDebug s p) := by
  unfold State.mgDebug
  repeat' with_reducible first
    | assumption | intro _ | apply keep_State_gated | apply keep_State_mgEnd | apply keep_State_mgOk
    | apply keep_State_modErr | apply keep_State_raise
    | (apply Held_id; extract_lets -underBinder +onlyGivenNames y; first | (refine keep_cut (p := Held b0 y) ?_ fun _ => ?_; unfold y; clear y; rotate_left; clear_value y) | clear_value y)
    | split | (dsimp only)

theorem keep_State_mgRemote {s : State} {p : MqPkt} (h : Sane s) :
    Sane (State.mgRemote s p) := by
  unfold State.mgRemote
  repeat' with_reducible first
    | assumption | intro _ | apply sane_State_gated | apply keep_State_warmStart | split | (dsimp only)

theorem keep_State_mgHostLoss {b0 : State} {s : State} {p : MqPkt} (h : Held b0 s) :
    Held b0 (State.mgHostLoss s p) := by
  unfold State.mgHostLoss
  repeat' with_reducible first
    | assumption | intro _ | apply keep_State_psPacket | split | (dsimp only)

theorem keep_State_attach {b0 : State} {s : State} {resume : Bool} (h : Held b0 s) :
    Held b0 (State.attach s resume) := by
  unfold State.attach
  repeat' with_reducible first
    | assumption | intro _ | apply keep_State_modConc | apply keep_State_modXlt | apply hf1 | apply hf2 | apply hf3
    | apply hf4 | apply hf5 | apply Held_ite | apply Held_ite1
    | (apply Held_id; extract_lets -underBinder +onlyGivenNames y; first | (refine keep_cut (p := Held b0 y) ?_ fun _ => ?_; unfold y; clear y; rotate_left; clear_value y) | (refine keep_cut (p := ∀ z, Held b0 z → Held b0 (y z)) ?_ fun hf1 => ?_; unfold y; clear y; rotate_left; clear_value y) | (refine keep_cut (p := ∀ z a, Held b0 z → Held b0 (y z a)) ?_ fun hf2 => ?_; unfold y; clear y; rotate_left; clear_value y) | (refine keep_cut (p := ∀ z a b, Held b0 z → Held b0 (y z a b)) ?_ fun hf3 => ?_; unfold y; clear y; rotate_left; clear_value y) | (refine keep_cut (p := ∀ a, Held b0 (y a)) ?_ fun hf4 => ?_; unfold y; clear y; rotate_left; clear_value y) | (refine keep_cut (p := ∀ a b, Held b0 (y a b)) ?_ fun hf5 => ?_; unfold y; clear y; rotate_left; clear_value y) | clear_value y)
    | split | (dsimp only)

theorem keep_State_logCopy {b0 : State} {s : State} {buf n : Nat} (h : Held b0 s) :
    Held b0 (State.logCopy s buf n) := by
  unfold State.logCopy
  repeat' with_reducible first
    | assumption | intro _ | apply keep_State_modXlt | apply keep_State_stwRead | apply keep_State_emit
    | (apply Held_id; extract_lets -underBinder +onlyGivenNames y; first | (refine keep_cut (p := Held b0 y) ?_ fun _ => ?_; unfold y; clear y; rotate_left; clear_value y) | (refine keep_cut (p := Held b0 y.1) ?_ fun _ => ?_; unfold y; clear y; rotate_left; clear_value y) | clear_value y)
    | apply Held_foldl | apply Held_foldl1 | split | (dsimp only)

theorem keep_State_reattached {b0 : State} {s : State} {p : MqPkt} {n left : Nat} {clr : Bool} (h : Held b0 s) :
    Held b0 (State.reattached s p n left clr) := by
  unfold State.reattached
  repeat' with_reducible first
    | assumption | intro _ | apply keep_State_attach | apply keep_State_kickAll | apply keep_State_endMq
    | apply Held_ite | apply Held_ite1
    | (apply Held_id; extract_lets -underBinder +onlyGivenNames y; first | (refine keep_cut (p := Held b0 y) ?_ fun _ => ?_; unfold y; clear y; rotate_left; clear_value y) | clear_value y)
    | split | (dsimp only)

theorem keep_State_mgReattach {b0 s : State} {p : MqPkt} (h : Held b0 s) : Held b0 (State.mgReattach s p) :=
  keep_State_mgUnless h (Held_ite (keep_State_endMq h) (keep_State_reattached (keep_State_logCopy h)))

/-! ### HostLink -/

theorem keep_State_migReadDone {b0 : State} {s : State} {a : HAcc} {table shard first n : Nat} {r : HRes}
    (h : Held b0 s) :
    Held b0 (State.migReadDone s a table shard first n r) := by
  unfold State.migReadDone
  repeat' with_reducible first
    | assumption | intro _ | apply keep_State_migSend | apply keep_State_endMig | split | (dsimp only)

theorem keep_State_countersDone {b0 : State} {s : State} {a : HAcc} {seq : Nat} {r : HRes} (h : Held b0 s) :
    Held b0 (State.countersDone s a seq r) := by
  unfold State.countersDone
  repeat' with_reducible first
    | assumption | intro _ | apply keep_State_dropOp | apply keep_State_mgOk | apply keep_State_endMq
    | (apply Held_id; extract_lets -underBinder +onlyGivenNames y; first | (refine keep_cut (p := Held b0 y) ?_ fun _ => ?_; unfold y; clear y; rotate_left; clear_value y) | (refine keep_cut (p := Held b0 y.1) ?_ fun _ => ?_; unfold y; clear y; rotate_left; clear_value y) | clear_value y)
    | split | (dsimp only)

theorem keep_State_fwDone {b0 : State} {s : State} {a : HAcc} {seq : Nat} {r : HRes} (h : Held b0 s) :
    Held b0 (State.fwDone s a seq r) := by
  unfold State.fwDone
  repeat' with_reducible first
    | assumption | intro _ | apply keep_State_fwGot | apply keep_State_dropOp | apply keep_State_endMq | split
    | (dsimp only)

theorem keep_State_tailDone {b0 : State} {s : State} {n : Nat} {r : HRes} (h : Held b0 s) :
    Held b0 (State.tailDone s n r) := by
  unfold State.tailDone
  repeat' with_reducible first
    | assumption | intro _ | apply keep_State_resetTail | apply keep_State_gotTail | apply Held_ite
    | apply Held_ite1
    | (apply Held_id; extract_lets -underBinder +onlyGivenNames y; first | (refine keep_cut (p := Held b0 y) ?_ fun _ => ?_; unfold y; clear y; rotate_left; clear_value y) | clear_value y)
    | split | (dsimp only)

theorem keep_State_packetsDone {b0 : State} {s : State} {n : Nat} {r : HRes} (h : Held b0 s) :
    Held b0 (State.packetsDone s n r) := by
  unfold State.packetsDone
  repeat' with_reducible first
    | assumption | intro _ | apply keep_takeUnits | apply keep_State_readEnds | apply keep_State_modCmd
    | (apply Held_id; extract_lets -underBinder +onlyGivenNames y; first | (refine keep_cut (p := Held b0 y) ?_ fun _ => ?_; unfold y; clear y; rotate_left; clear_value y) | clear_value y)
    | split | (dsimp only)

theorem keep_State_hostDone {b0 : State} {s : State} {a : HAcc} {r : HRes} (h : Held b0 s) :
    Held b0 (State.hostDone s a r) := by
  unfold State.hostDone
  repeat' with_reducible first
    | assumption | intro _ | apply keep_State_packetsDone | apply keep_State_tailDone | apply keep_State_fwDone
    | apply keep_State_countersDone | apply keep_State_migReadDone | apply keep_State_gotHead
    | apply keep_State_itemAccess | apply keep_State_migWriteFault | apply keep_State_migWritten
    | apply keep_State_dropAcc | apply keep_State_sendMsix | apply Held_ite | apply Held_ite1
    | (apply Held_id; extract_lets -underBinder +onlyGivenNames y; first | (refine keep_cut (p := Held b0 y) ?_ fun _ => ?_; unfold y; clear y; rotate_left; clear_value y) | clear_value y)
    | split | (dsimp only)

theorem keep_State_retryAccs {b0 : State} {s : State} (h : Held b0 s) :
    Held b0 (State.retryAccs s) := by
  unfold State.retryAccs
  repeat' with_reducible first
    | assumption | intro _ | apply keep_State_hostDone | apply keep_State_accTry
    | (apply Held_id; extract_lets -underBinder +onlyGivenNames y; first | (refine keep_cut (p := Held b0 y) ?_ fun _ => ?_; unfold y; clear y; rotate_left; clear_value y) | clear_value y)
    | refine Held_fst (by assumption) ?_ | apply Held_foldl | apply Held_foldl1 | split | (dsimp only)

theorem keep_State_pageMissing {b0 : State} {s : State} {pasid page : Nat} {write : Bool} (h : Held b0 s) :
    Held b0 (State.pageMissing s pasid page write) := by
  unfold State.pageMissing
  repeat' with_reducible first
    | assumption | intro _ | apply keep_State_pageFails | apply keep_State_priAsk | apply keep_State_modXlt
    | apply Held_ite | apply Held_ite1
    | (apply Held_id; extract_lets -underBinder +onlyGivenNames y; first | (refine keep_cut (p := Held b0 y) ?_ fun _ => ?_; unfold y; clear y; rotate_left; clear_value y) | clear_value y)
    | split | (dsimp only)

theorem keep_State_priFails {b0 : State} {s : State} {p : Pri} (h : Held b0 s) :
    Held b0 (State.priFails s p) := by
  unfold State.priFails
  repeat' with_reducible first
    | assumption | intro _ | apply keep_State_pageFails | apply keep_State_modXlt
    | (apply Held_id; extract_lets -underBinder +onlyGivenNames y; first | (refine keep_cut (p := Held b0 y) ?_ fun _ => ?_; unfold y; clear y; rotate_left; clear_value y) | clear_value y)
    | split | (dsimp only)

theorem keep_State_priNext {b0 : State} {s : State} (h : Held b0 s) :
    Held b0 (State.priNext s) := by
  unfold State.priNext
  repeat' with_reducible first
    | assumption | intro _ | apply keep_State_retryAccs | apply keep_State_wake | apply keep_priPump | split
    | (dsimp only)

theorem keep_State_hotRecord {b0 : State} {s : State} {h : HotCnt} (hs : Held b0 s) :
    Held b0 (State.hotRecord s h).1 := by
  unfold State.hotRecord
  repeat' with_reducible first
    | assumption | intro _ | apply keep_State_detachLog | apply keep_State_emit | apply keep_State_bump
    | apply Held_ite | apply Held_ite1
    | (apply Held_id; extract_lets -underBinder +onlyGivenNames y; first | (refine keep_cut (p := Held b0 y) ?_ fun _ => ?_; unfold y; clear y; rotate_left; clear_value y) | clear_value y)
    | split | (dsimp only)

theorem keep_State_cutOff {b0 : State} {s : State} (h : Held b0 s) :
    Held b0 (State.cutOff s) := by
  unfold State.cutOff
  repeat' with_reducible first
    | assumption | intro _ | apply keep_State_hostDone | apply keep_State_dropAcc | apply keep_State_modXlt
    | (apply Held_id; extract_lets -underBinder +onlyGivenNames y; first | (refine keep_cut (p := Held b0 y) ?_ fun _ => ?_; unfold y; clear y; rotate_left; clear_value y) | clear_value y)
    | apply Held_foldl | apply Held_foldl1 | split | (dsimp only)

/-! ### Frames -/

theorem keep_State_arrival {b0 : State} {s : State} {f : Frame} {act : State → State}
    (h : Held b0 s) (hact : ∀ z, Held b0 z → Held b0 (act z)) :
    Held b0 (State.arrival s f act) := by
  unfold State.arrival
  repeat' with_reducible first
    | assumption | intro _ | apply keep_State_wake | apply keep_State_arrives | apply hact | apply Held_ite
    | apply Held_ite1
    | (apply Held_id; extract_lets -underBinder +onlyGivenNames y; first | (refine keep_cut (p := Held b0 y) ?_ fun _ => ?_; unfold y; clear y; rotate_left; clear_value y) | clear_value y)
    | refine Held_fst (by assumption) ?_ | split | (dsimp only)

theorem sane_State_arrival {s : State} {f : Frame} {act : State → State}
    (h : Sane s) (hact : ∀ z, Sane z → Sane (act z)) :
    Sane (State.arrival s f act) := by
  unfold State.arrival
  repeat' with_reducible first
    | assumption | intro _ | refine Sane_by (fun k => keep_State_wake k) ?_
    | refine Sane_by (fun k => keep_State_arrives k) ?_ | apply hact | apply Sane_ite | apply Sane_ite1
    | (apply Sane_id; extract_lets -underBinder +onlyGivenNames y; first | (refine keep_cut (p := Sane y) ?_ fun _ => ?_; unfold y; clear y; rotate_left; clear_value y) | clear_value y)
    | refine Sane_fst (by assumption) ?_ | split | (dsimp only)

theorem keep_State_answerArrival {b0 : State} {s : State} {f : Frame} {act : State → State}
    (h : Held b0 s) (hact : ∀ z, Held b0 z → Held b0 (act z)) :
    Held b0 (State.answerArrival s f act) := by
  unfold State.answerArrival
  repeat' with_reducible first
    | assumption | intro _ | apply keep_State_arrival | apply hact | apply Held_ite | apply Held_ite1 | split
    | (dsimp only)

theorem sane_State_answerArrival {s : State} {f : Frame} {act : State → State}
    (h : Sane s) (hact : ∀ z, Sane z → Sane (act z)) :
    Sane (State.answerArrival s f act) := by
  unfold State.answerArrival
  repeat' with_reducible first
    | assumption | intro _ | apply sane_State_arrival | apply hact | apply Sane_ite | apply Sane_ite1 | split
    | (dsimp only)

theorem keep_State_replyTake {b0 : State} {s : State} {f : Frame} (h : Held b0 s) :
    Held b0 (State.replyTake s f) := by
  unfold State.replyTake
  repeat' with_reducible first
    | assumption | intro _ | apply keep_State_advance | apply keep_State_replyArrive | split | (dsimp only)

theorem keep_State_nackArrive {b0 : State} {s : State} {f : Frame} (h : Held b0 s) :
    Held b0 (State.nackArrive s f) := by
  unfold State.nackArrive
  repeat' with_reducible first
    | assumption | intro _ | apply keep_State_kiteEnds | apply keep_State_holdSlot | apply keep_State_bump | split
    | (dsimp only)

theorem keep_State_transit {b0 : State} {s : State} {f : Frame} {waitNs : Nat} (h : Held b0 s) :
    Held b0 (State.transit s f waitNs) := by
  unfold State.transit
  repeat' with_reducible first
    | assumption | intro _ | apply keep_State_arrives | apply keep_State_unroutable | apply keep_State_send
    | apply keep_State_bump | apply Held_ite | apply Held_ite1
    | (apply Held_id; extract_lets -underBinder +onlyGivenNames y; first | (refine keep_cut (p := Held b0 y) ?_ fun _ => ?_; unfold y; clear y; rotate_left; clear_value y) | clear_value y)
    | refine Held_fst (by assumption) ?_ | split | (dsimp only)

theorem keep_State_sendHeld {b0 : State} {s : State} {port : Nat} {l : List HeldFrame} (h : Held b0 s) :
    Held b0 (State.sendHeld s port l) := by
  unfold State.sendHeld
  repeat' with_reducible first
    | assumption | intro _ | apply keep_State_emit | apply Held_foldl | apply Held_foldl1 | split | (dsimp only)

theorem keep_State_linkDown {b0 : State} {s : State} {port cause : Nat} (h : Held b0 s) :
    Held b0 (State.linkDown s port cause) := by
  unfold State.linkDown
  repeat' with_reducible first
    | assumption | intro _ | apply keep_State_transit | apply keep_State_unroutable | apply keep_State_putPort
    | apply keep_State_modPort | apply keep_State_raise | apply keep_State_bump | apply Held_ite | apply Held_ite1
    | (apply Held_id; extract_lets -underBinder +onlyGivenNames y; first | (refine keep_cut (p := Held b0 y) ?_ fun _ => ?_; unfold y; clear y; rotate_left; clear_value y) | clear_value y)
    | apply Held_foldl | apply Held_foldl1 | split | (dsimp only)

theorem keep_State_portCtl {b0 : State} {s : State} {en : Bool} (h : Held b0 s) :
    Held b0 (State.portCtl s en) := by
  unfold State.portCtl
  repeat' with_reducible first
    | assumption | intro _ | apply keep_State_linkDown | apply keep_State_wake | apply keep_State_modPort
    | apply Held_ite | apply Held_ite1
    | (apply Held_id; extract_lets -underBinder +onlyGivenNames y; first | (refine keep_cut (p := Held b0 y) ?_ fun _ => ?_; unfold y; clear y; rotate_left; clear_value y) | clear_value y)
    | split | (dsimp only)

theorem keep_State_routeWrite {b0 : State} {s : State} {w : Word} (h : Held b0 s) :
    Held b0 (State.routeWrite s w) := by
  unfold State.routeWrite
  repeat' with_reducible first
    | assumption | intro _ | apply keep_State_setReg | apply Held_ite | apply Held_ite1 | split | (dsimp only)

theorem keep_State_noteInbox {b0 : State} {s : State} (h : Held b0 s) :
    Held b0 (State.noteInbox s) := by
  unfold State.noteInbox
  repeat' with_reducible first
    | assumption | intro _ | (simp -zeta -beta -iota -proj only [Held_mk]) | apply Held_of | split | (dsimp only)

/-! ### Faults -/

theorem keep_State_galDetect {b0 : State} {s : State} {g det : Nat} {injected : Bool} (h : Held b0 s) :
    Held b0 (State.galDetect s g det injected) := by
  unfold State.galDetect
  repeat' with_reducible first
    | assumption | intro _ | apply keep_State_fenceGal | apply keep_State_injected | apply keep_State_raise
    | apply Held_ite | apply Held_ite1
    | (apply Held_id; extract_lets -underBinder +onlyGivenNames y; first | (refine keep_cut (p := Held b0 y) ?_ fun _ => ?_; unfold y; clear y; rotate_left; clear_value y) | clear_value y)
    | split | (dsimp only)

theorem keep_State_galCorrected {b0 : State} {s : State} {g : Nat} {injected : Bool} (h : Held b0 s) :
    Held b0 (State.galCorrected s g injected) := by
  unfold State.galCorrected
  repeat' with_reducible first
    | assumption | intro _ | apply keep_State_galDetect | apply keep_State_injected | apply keep_State_raise
    | apply keep_State_modGal | apply Held_ite | apply Held_ite1
    | (apply Held_id; extract_lets -underBinder +onlyGivenNames y; first | (refine keep_cut (p := Held b0 y) ?_ fun _ => ?_; unfold y; clear y; rotate_left; clear_value y) | clear_value y)
    | split | (dsimp only)

theorem keep_State_cmdRefused {b0 : State} {s : State} (h : Held b0 s) :
    Held b0 (State.cmdRefused s) := by
  unfold State.cmdRefused
  repeat' with_reducible first
    | assumption | intro _ | apply keep_State_modErr | split | (dsimp only)

theorem keep_State_drainCmd {b0 : State} {s : State} {path : Path} {w : Word} (h : Held b0 s) :
    Held b0 (State.drainCmd s path w) := by
  unfold State.drainCmd
  repeat' with_reducible first
    | assumption | intro _ | apply keep_State_cmdRefused | apply keep_State_wake | apply keep_State_forceDrain
    | apply Held_ite | apply Held_ite1 | split | (dsimp only)

theorem keep_State_fenceCmd {b0 : State} {s : State} {path : Path} {w : Word} (h : Held b0 s) :
    Held b0 (State.fenceCmd s path w) := by
  unfold State.fenceCmd
  repeat' with_reducible first
    | assumption | intro _ | apply keep_State_cmdRefused | apply keep_State_wake | apply keep_State_fenceGal
    | apply Held_ite | apply Held_ite1
    | (apply Held_id; extract_lets -underBinder +onlyGivenNames y; first | (refine keep_cut (p := Held b0 y) ?_ fun _ => ?_; unfold y; clear y; rotate_left; clear_value y) | clear_value y)
    | split | (dsimp only)

theorem keep_State_pendClear {b0 : State} {s : State} {w : Word} (h : Held b0 s) :
    Held b0 (State.pendClear s w) := by
  unfold State.pendClear
  repeat' with_reducible first
    | assumption | intro _ | apply keep_State_setReg | apply Held_ite | apply Held_ite1 | split | (dsimp only)

/-! ### Registers -/

theorem keep_State_read32 {s : State} {path : Path} {off : Nat} (h : Sane s) :
    Sane (State.read32 s path off).1 := by
  unfold State.read32
  repeat' with_reducible first
    | assumption | intro _ | refine Sane_by (fun k => keep_State_draw k) ?_ | apply Sane_ite | apply Sane_ite1
    | (simp -zeta -beta -iota -proj only [Sane_mk])
    | (apply Sane_id; extract_lets -underBinder +onlyGivenNames y; first | (refine keep_cut (p := Sane y) ?_ fun _ => ?_; unfold y; clear y; rotate_left; clear_value y) | clear_value y)
    | apply Sound_of | split | (dsimp only)

theorem keep_State_markSalt {b0 : State} {s : State} (h : Held b0 s) :
    Held b0 (State.markSalt s) := by
  unfold State.markSalt
  repeat' with_reducible first
    | assumption | intro _ | (simp -zeta -beta -iota -proj only [Held_mk]) | apply Held_of | split | (dsimp only)

theorem keep_State_setPlain {b0 : State} {s : State} {off : Nat} {w : Word} (h : Held b0 s) :
    Held b0 (State.setPlain s off w) := by
  unfold State.setPlain
  repeat' with_reducible first
    | assumption | intro _ | apply keep_State_markSalt | apply keep_State_priNext | apply keep_State_wake
    | apply keep_State_setReg | apply Held_ite | apply Held_ite1
    | (apply Held_id; extract_lets -underBinder +onlyGivenNames y; first | (refine keep_cut (p := Held b0 y) ?_ fun _ => ?_; unfold y; clear y; rotate_left; clear_value y) | clear_value y)
    | split | (dsimp only)

theorem keep_State_clearBits {s : State} {off : Nat} {w : Word} (h : Sane s) :
    SaneO (State.clearBits s off w) := by
  unfold State.clearBits
  repeat' with_reducible first
    | assumption | intro _ | refine Sane_by (fun k => keep_State_pendClear k) ?_
    | refine Sane_by (fun k => keep_State_cmdRefused k) ?_ | apply keep_State_modRst | apply keep_State_therm
    | apply keep_State_modBk | apply keep_State_modPres | refine Sane_by (fun k => keep_State_wake k) ?_
    | refine Sane_by (fun k => keep_State_modErr k) ?_ | refine Sane_by (fun k => keep_State_modChan k) ?_
    | refine sane_State_modPs ?_ rfl | refine Sane_by (fun k => keep_State_setReg k) ?_ | rfl | apply hf1
    | apply hf2 | apply hf3 | apply hf4 | apply hf5 | apply Sane_ite | apply Sane_ite1 | exact SaneO_none
    | apply SaneO_some | apply SaneO_ite
    | (apply Sane_id; extract_lets -underBinder +onlyGivenNames y; first | (refine keep_cut (p := Sane y) ?_ fun _ => ?_; unfold y; clear y; rotate_left; clear_value y) | (refine keep_cut (p := ∀ z, Sane z → Sane (y z)) ?_ fun hf1 => ?_; unfold y; clear y; rotate_left; clear_value y) | (refine keep_cut (p := ∀ z a, Sane z → Sane (y z a)) ?_ fun hf2 => ?_; unfold y; clear y; rotate_left; clear_value y) | (refine keep_cut (p := ∀ z a b, Sane z → Sane (y z a b)) ?_ fun hf3 => ?_; unfold y; clear y; rotate_left; clear_value y) | (refine keep_cut (p := ∀ a, Sane (y a)) ?_ fun hf4 => ?_; unfold y; clear y; rotate_left; clear_value y) | (refine keep_cut (p := ∀ a b, Sane (y a b)) ?_ fun hf5 => ?_; unfold y; clear y; rotate_left; clear_value y) | clear_value y)
    | split | (dsimp only)

theorem keep_State_mntCmd {b0 : State} {s : State} {w : Word} (h : Held b0 s) :
    Held b0 (State.mntCmd s w) := by
  unfold State.mntCmd
  repeat' with_reducible first
    | assumption | intro _ | apply keep_State_mntReq
    | (apply Held_id; extract_lets -underBinder +onlyGivenNames y; first | (refine keep_cut (p := Held b0 y) ?_ fun _ => ?_; unfold y; clear y; rotate_left; clear_value y) | clear_value y)
    | split | (dsimp only)

theorem keep_State_fltCtl {s : State} {w : Word} (h : Sane s) :
    Sane (State.fltCtl s w) := by
  unfold State.fltCtl
  repeat' with_reducible first
    | assumption | intro _ | refine Sane_by (fun k => keep_State_askLagClr k) ?_ | apply keep_State_askResync
    | apply Sane_ite | apply Sane_ite1
    | (apply Sane_id; extract_lets -underBinder +onlyGivenNames y; first | (refine keep_cut (p := Sane y) ?_ fun _ => ?_; unfold y; clear y; rotate_left; clear_value y) | clear_value y)
    | split | (dsimp only)

theorem keep_State_writeAct {s : State} {path : Path} {off : Nat} {w : Word} (h : Sane s) :
    SaneO (State.writeAct s path off w) := by
  unfold State.writeAct
  repeat' with_reducible first
    | assumption | intro _ | apply keep_State_fltCtl | refine Sane_by (fun k => keep_State_mntCmd k) ?_
    | refine Sane_by (fun k => keep_State_fenceCmd k) ?_ | refine Sane_by (fun k => keep_State_drainCmd k) ?_
    | refine Sane_by (fun k => keep_State_routeWrite k) ?_ | refine Sane_by (fun k => keep_State_portCtl k) ?_
    | apply keep_State_rstCmd | apply keep_State_writeRoot | apply keep_State_modHall
    | refine Sane_by (fun k => keep_State_kiteUpdSnap k) ?_ | refine Sane_by (fun k => keep_State_galStatSnap k) ?_
    | refine Sane_by (fun k => keep_State_rcPin k) ?_ | refine Sane_by (fun k => keep_State_rcDisable k) ?_
    | refine Sane_by (fun k => keep_State_rcEnable k) ?_ | refine Sane_by (fun k => keep_State_marchStart k) ?_
    | refine Sane_by (fun k => keep_State_stwRegCfg k) ?_ | refine Sane_by (fun k => keep_State_rwpWrite k) ?_
    | refine Sane_by (fun k => keep_State_concEnable k) ?_ | refine Sane_by (fun k => keep_State_concDb k) ?_
    | refine Sane_by (fun k => keep_State_wake k) ?_ | refine Sane_by (fun k => keep_State_setReg k) ?_ | apply hf1
    | apply hf2 | apply hf3 | apply hf4 | apply hf5 | apply Sane_ite | apply Sane_ite1 | exact SaneO_none
    | apply SaneO_some | apply SaneO_ite
    | (apply Sane_id; extract_lets -underBinder +onlyGivenNames y; first | (refine keep_cut (p := Sane y) ?_ fun _ => ?_; unfold y; clear y; rotate_left; clear_value y) | (refine keep_cut (p := ∀ z, Sane z → Sane (y z)) ?_ fun hf1 => ?_; unfold y; clear y; rotate_left; clear_value y) | (refine keep_cut (p := ∀ z a, Sane z → Sane (y z a)) ?_ fun hf2 => ?_; unfold y; clear y; rotate_left; clear_value y) | (refine keep_cut (p := ∀ z a b, Sane z → Sane (y z a b)) ?_ fun hf3 => ?_; unfold y; clear y; rotate_left; clear_value y) | (refine keep_cut (p := ∀ a, Sane (y a)) ?_ fun hf4 => ?_; unfold y; clear y; rotate_left; clear_value y) | (refine keep_cut (p := ∀ a b, Sane (y a b)) ?_ fun hf5 => ?_; unfold y; clear y; rotate_left; clear_value y) | clear_value y)
    | split | (dsimp only)

theorem keep_State_writePlain {s : State} {path : Path} {off : Nat} {w : Word} (h : Sane s) :
    Sane (State.writePlain s path off w) := by
  unfold State.writePlain
  repeat' with_reducible first
    | assumption | intro _ | apply keep_State_writeAct | refine SaneO_get (by assumption) ?_
    | apply keep_State_clearBits | refine SaneO_get (by assumption) ?_
    | refine Sane_by (fun k => keep_State_setPlain k) ?_ | split | (dsimp only)

theorem keep_State_armLength {s : State} {landing : Nat} (h : Sane s) :
    Sane (State.armLength s landing) := by
  unfold State.armLength
  repeat' with_reducible first
    | assumption | intro _ | apply keep_State_landing | apply keep_State_modHall | apply Sane_ite | apply Sane_ite1
    | (apply Sane_id; extract_lets -underBinder +onlyGivenNames y; first | (refine keep_cut (p := Sane y) ?_ fun _ => ?_; unfold y; clear y; rotate_left; clear_value y) | clear_value y)
    | split | (dsimp only)

theorem keep_State_writeHi {s : State} {off : Nat} {w : Word} (h : Sane s) :
    Sane (State.writeHi s off w) := by
  unfold State.writeHi
  repeat' with_reducible first
    | assumption | intro _ | apply keep_State_armLength | refine Sane_by (fun k => keep_State_setReg k) ?_
    | apply Sane_ite | apply Sane_ite1 | (simp -zeta -beta -iota -proj only [Sane_mk])
    | (apply Sane_id; extract_lets -underBinder +onlyGivenNames y; first | (refine keep_cut (p := Sane y) ?_ fun _ => ?_; unfold y; clear y; rotate_left; clear_value y) | (refine keep_cut (p := Sane y.1) ?_ fun _ => ?_; unfold y; clear y; rotate_left; clear_value y) | clear_value y)
    | apply Sound_of | split | (dsimp only)

theorem keep_State_write32 {s : State} {path : Path} {off : Nat} {w : Word} (h : Sane s) :
    Sane (State.write32 s path off w) := by
  unfold State.write32
  repeat' with_reducible first
    | assumption | intro _ | apply keep_State_writeHi | apply keep_State_writePlain | apply Sane_ite
    | apply Sane_ite1 | (simp -zeta -beta -iota -proj only [Sane_mk]) | apply Sound_of | split | (dsimp only)

theorem keep_State_barWrite {s : State} {off width val : Nat} (h : Sane s) :
    Sane (State.barWrite s off width val) := by
  unfold State.barWrite
  repeat' with_reducible first
    | assumption | intro _ | apply keep_State_write32 | apply Sane_ite | apply Sane_ite1 | split | (dsimp only)

theorem keep_State_laneReply {b0 : State} {s : State} {seq result : Nat} {v : Word} (h : Held b0 s) :
    Held b0 (State.laneReply s seq result v) := by
  unfold State.laneReply
  repeat' with_reducible first
    | assumption | intro _ | apply keep_State_emit | split | (dsimp only)

end Sys2Proof.Laws
end

