-- ==== Sys2Proof/Laws/KeepExec.lean ====
section
/-! SUPPORT. What each command keeps: of one that `serves`, the invariant and the parts that serving leaves alone; of the
others, the invariant. -/
namespace Sys2Proof.Laws

set_option linter.unusedSimpArgs false
set_option linter.unusedTactic false
set_option linter.unreachableTactic false

open Sys2Proof Sys2Proof.Machine Sys2Proof.Config Sys2Proof.Safety

theorem ran_sane {s t u : State} (e : ran s t = .next u) (h : Sane t) : Sane u := by cases e; exact h

theorem came_sane {s t u : State} (e : came s t = .next u) (h : Sane t) : Sane u := by cases e; exact h

theorem ran_held {s t u : State} (e : ran s t = .next u) (h : Held s t) : Held s u := by cases e; exact h

theorem came_held {s t u : State} (e : came s t = .next u) (h : Held s t) : Held s u := by cases e; exact h

theorem held_execNop {src : PktSrc} {pkt : List Word} {s : State} {u : State} (e : execNop src pkt s = .next u)
    (hs : Sane s) : Held s u := by
  have h0 := Held.self hs
  unfold execNop at e
  repeat' with_reducible first
    | assumption | (refine ran_held e ?_; clear e) | intro _ | apply keep_State_arrivePkt | split | (dsimp only)

theorem held_execBag {src : PktSrc} {pkt : List Word} {s : State} {u : State} (e : execBag src pkt s = .next u)
    (hs : Sane s) : Held s u := by
  have h0 := Held.self hs
  unfold execBag at e
  repeat' with_reducible first
    | assumption | (refine ran_held e ?_; clear e) | intro _ | apply keep_State_arrivePkt | split | (dsimp only)

theorem held_execBagInteract {src : PktSrc} {pkt : List Word} {s : State} {u : State} (e : execBagInteract src pkt s = .next u)
    (hs : Sane s) : Held s u := by
  have h0 := Held.self hs
  unfold execBagInteract at e
  repeat' with_reducible first
    | assumption | (refine ran_held e ?_; clear e) | intro _ | apply keep_State_arrivePkt | split | (dsimp only)

theorem held_execArrayOp {src : PktSrc} {pkt : List Word} {s : State} {u : State} (e : execArrayOp src pkt s = .next u)
    (hs : Sane s) : Held s u := by
  have h0 := Held.self hs
  unfold execArrayOp at e
  repeat' with_reducible first
    | assumption | (refine ran_held e ?_; clear e) | intro _ | apply keep_State_arrivePkt | split | (dsimp only)

theorem held_execTileRead {src : PktSrc} {pkt : List Word} {s : State} {u : State} (e : execTileRead src pkt s = .next u)
    (hs : Sane s) : Held s u := by
  have h0 := Held.self hs
  unfold execTileRead at e
  repeat' with_reducible first
    | assumption | (refine ran_held e ?_; clear e) | intro _ | apply keep_State_arrivePkt | split | (dsimp only)

theorem held_execTileWrite {src : PktSrc} {pkt : List Word} {s : State} {u : State} (e : execTileWrite src pkt s = .next u)
    (hs : Sane s) : Held s u := by
  have h0 := Held.self hs
  unfold execTileWrite at e
  repeat' with_reducible first
    | assumption | (refine ran_held e ?_; clear e) | intro _ | apply keep_State_arrivePkt | split | (dsimp only)

theorem held_execVecChain {src : PktSrc} {pkt : List Word} {s : State} {u : State} (e : execVecChain src pkt s = .next u)
    (hs : Sane s) : Held s u := by
  have h0 := Held.self hs
  unfold execVecChain at e
  repeat' with_reducible first
    | assumption | (refine ran_held e ?_; clear e) | intro _ | apply keep_State_arrivePkt | split | (dsimp only)

theorem held_execUpdateBatch {src : PktSrc} {pkt : List Word} {s : State} {u : State} (e : execUpdateBatch src pkt s = .next u)
    (hs : Sane s) : Held s u := by
  have h0 := Held.self hs
  unfold execUpdateBatch at e
  repeat' with_reducible first
    | assumption | (refine ran_held e ?_; clear e) | intro _ | apply keep_State_arrivePkt | split | (dsimp only)

theorem held_execSplitReduce {src : PktSrc} {pkt : List Word} {s : State} {u : State} (e : execSplitReduce src pkt s = .next u)
    (hs : Sane s) : Held s u := by
  have h0 := Held.self hs
  unfold execSplitReduce at e
  repeat' with_reducible first
    | assumption | (refine ran_held e ?_; clear e) | intro _ | apply keep_State_arrivePkt | split | (dsimp only)

theorem held_execCopy {src : PktSrc} {pkt : List Word} {s : State} {u : State} (e : execCopy src pkt s = .next u)
    (hs : Sane s) : Held s u := by
  have h0 := Held.self hs
  unfold execCopy at e
  repeat' with_reducible first
    | assumption | (refine ran_held e ?_; clear e) | intro _ | apply keep_State_arrivePkt | split | (dsimp only)

theorem held_execRecheck {src : PktSrc} {pkt : List Word} {s : State} {u : State} (e : execRecheck src pkt s = .next u)
    (hs : Sane s) : Held s u := by
  have h0 := Held.self hs
  unfold execRecheck at e
  repeat' with_reducible first
    | assumption | (refine ran_held e ?_; clear e) | intro _ | apply keep_State_arrivePkt | split | (dsimp only)

theorem held_execInlineWrite {src : PktSrc} {pkt : List Word} {s : State} {u : State} (e : execInlineWrite src pkt s = .next u)
    (hs : Sane s) : Held s u := by
  have h0 := Held.self hs
  unfold execInlineWrite at e
  repeat' with_reducible first
    | assumption | (refine ran_held e ?_; clear e) | intro _ | apply keep_State_arrivePkt | split | (dsimp only)

theorem held_execPacket {seq : Nat} {pkt : List Word} {s : State} {u : State} (e : execPacket seq pkt s = .next u)
    (hs : Sane s) : Held s u := by
  have h0 := Held.self hs
  unfold execPacket at e
  repeat' with_reducible first
    | assumption | (refine ran_held e ?_; clear e) | intro _ | apply keep_State_laneArrive | apply keep_State_wake
    | split | (dsimp only)

theorem held_execConcDb {w : Word} {s : State} {u : State} (e : execConcDb w s = .next u) (hs : Sane s) : Held s u := by
  have h0 := Held.self hs
  unfold execConcDb at e
  repeat' with_reducible first
    | assumption | (refine ran_held e ?_; clear e) | intro _ | apply keep_State_concDb | split | (dsimp only)

theorem held_execConcEnable {w : Word} {s : State} {u : State} (e : execConcEnable w s = .next u)
    (hs : Sane s) : Held s u := by
  have h0 := Held.self hs
  unfold execConcEnable at e
  repeat' with_reducible first
    | assumption | (refine ran_held e ?_; clear e) | intro _ | apply keep_State_concEnable | split | (dsimp only)

theorem held_execRingFullAdvisory {ring : Nat} {s : State} {u : State} (e : execRingFullAdvisory ring s = .next u)
    (hs : Sane s) : Held s u := by
  have h0 := Held.self hs
  unfold execRingFullAdvisory at e
  repeat' with_reducible first
    | assumption | (refine ran_held e ?_; clear e) | intro _ | apply keep_State_putRec | apply keep_State_modCpl
    | apply Held_ite
    | (apply Held_id; extract_lets -underBinder +onlyGivenNames y; first | (refine keep_cut (p := Held s y) ?_ fun _ => ?_; unfold y; clear y; rotate_left; clear_value y) | clear_value y)
    | (simp -zeta -beta -iota -proj only [Held_mk]) | apply Held_of | split | split at e | (dsimp only)

theorem held_execChunkAdmit {item : Nat} {gal : Nat} {s : State} {u : State} (e : execChunkAdmit item gal s = .next u)
    (hs : Sane s) : Held s u := by
  have h0 := Held.self hs
  unfold execChunkAdmit at e
  repeat' with_reducible first
    | assumption | (refine ran_held e ?_; clear e) | intro _ | apply keep_State_wake | apply keep_State_chunkAdmit
    | apply Held_ite | split | split at e | (dsimp only)

theorem held_execPromoteByAge {item : Nat} {s : State} {u : State} (e : execPromoteByAge item s = .next u)
    (hs : Sane s) : Held s u := by
  have h0 := Held.self hs
  unfold execPromoteByAge at e
  repeat' with_reducible first
    | assumption | (refine ran_held e ?_; clear e) | intro _ | apply keep_State_promoteAge | split | (dsimp only)

theorem held_execPromoteByMargin {item : Nat} {s : State} {u : State} (e : execPromoteByMargin item s = .next u)
    (hs : Sane s) : Held s u := by
  have h0 := Held.self hs
  unfold execPromoteByMargin at e
  repeat' with_reducible first
    | assumption | (refine ran_held e ?_; clear e) | intro _ | apply keep_State_promoteMargin | split
    | (dsimp only)

theorem held_execStatusGet {svcNs : Nat} {s : State} {u : State} (e : execStatusGet svcNs s = .next u)
    (hs : Sane s) : Held s u := by
  have h0 := Held.self hs
  unfold execStatusGet at e
  repeat' with_reducible first
    | assumption | (refine ran_held e ?_; clear e) | intro _ | apply keep_State_mgOk | apply keep_State_mgRun
    | apply keep_State_draw | split | (dsimp only)

theorem held_execTelemetryCfg {svcNs : Nat} {s : State} {u : State} (e : execTelemetryCfg svcNs s = .next u)
    (hs : Sane s) : Held s u := by
  have h0 := Held.self hs
  unfold execTelemetryCfg at e
  repeat' with_reducible first
    | assumption | (refine ran_held e ?_; clear e) | intro _ | apply keep_State_mgOk | apply keep_State_mgRun
    | apply keep_State_modConc | (simp -zeta -beta -iota -proj only [Held_mk]) | apply Held_of | split
    | (dsimp only)

theorem held_execTenantSet {svcNs : Nat} {s : State} {u : State} (e : execTenantSet svcNs s = .next u)
    (hs : Sane s) : Held s u := by
  have h0 := Held.self hs
  unfold execTenantSet at e
  repeat' with_reducible first
    | assumption | (refine ran_held e ?_; clear e) | intro _ | apply keep_State_mgTenantSet
    | apply keep_State_mgRun | split | (dsimp only)

theorem held_execTenantDestroy {svcNs : Nat} {s : State} {u : State} (e : execTenantDestroy svcNs s = .next u)
    (hs : Sane s) : Held s u := by
  have h0 := Held.self hs
  unfold execTenantDestroy at e
  repeat' with_reducible first
    | assumption | (refine ran_held e ?_; clear e) | intro _ | apply keep_State_mgTenantDestroy
    | apply keep_State_mgRun | split | (dsimp only)

theorem held_execPasidBind {svcNs : Nat} {s : State} {u : State} (e : execPasidBind svcNs s = .next u)
    (hs : Sane s) : Held s u := by
  have h0 := Held.self hs
  unfold execPasidBind at e
  repeat' with_reducible first
    | assumption | (refine ran_held e ?_; clear e) | intro _ | apply keep_State_mgPasidBind
    | apply keep_State_mgRun | split | (dsimp only)

theorem held_execPasidUnbind {svcNs : Nat} {s : State} {u : State} (e : execPasidUnbind svcNs s = .next u)
    (hs : Sane s) : Held s u := by
  have h0 := Held.self hs
  unfold execPasidUnbind at e
  repeat' with_reducible first
    | assumption | (refine ran_held e ?_; clear e) | intro _ | apply keep_State_mgPasidUnbind
    | apply keep_State_mgRun | split | (dsimp only)

theorem held_execRingCreate {svcNs : Nat} {s : State} {u : State} (e : execRingCreate svcNs s = .next u)
    (hs : Sane s) : Held s u := by
  have h0 := Held.self hs
  unfold execRingCreate at e
  repeat' with_reducible first
    | assumption | (refine ran_held e ?_; clear e) | intro _ | apply keep_State_mgRingCreate
    | apply keep_State_mgRun | split | (dsimp only)

theorem held_execRingDestroy {svcNs : Nat} {s : State} {u : State} (e : execRingDestroy svcNs s = .next u)
    (hs : Sane s) : Held s u := by
  have h0 := Held.self hs
  unfold execRingDestroy at e
  repeat' with_reducible first
    | assumption | (refine ran_held e ?_; clear e) | intro _ | apply keep_State_mgRingDestroy
    | apply keep_State_mgRun | split | (dsimp only)

theorem held_execRingReset {svcNs : Nat} {s : State} {u : State} (e : execRingReset svcNs s = .next u)
    (hs : Sane s) : Held s u := by
  have h0 := Held.self hs
  unfold execRingReset at e
  repeat' with_reducible first
    | assumption | (refine ran_held e ?_; clear e) | intro _ | apply keep_State_mgRingReset
    | apply keep_State_mgRun | split | (dsimp only)

theorem held_execTableDefine {svcNs : Nat} {s : State} {u : State} (e : execTableDefine svcNs s = .next u)
    (hs : Sane s) : Held s u := by
  have h0 := Held.self hs
  unfold execTableDefine at e
  repeat' with_reducible first
    | assumption | (refine ran_held e ?_; clear e) | intro _ | apply keep_State_mgTableDefine
    | apply keep_State_dirRun | split | (dsimp only)

theorem held_execTableState {svcNs : Nat} {s : State} {u : State} (e : execTableState svcNs s = .next u)
    (hs : Sane s) : Held s u := by
  have h0 := Held.self hs
  unfold execTableState at e
  repeat' with_reducible first
    | assumption | (refine ran_held e ?_; clear e) | intro _ | apply keep_State_mgTableState
    | apply keep_State_dirRun | split | (dsimp only)

theorem held_execVersionSwitch {svcNs : Nat} {s : State} {u : State} (e : execVersionSwitch svcNs s = .next u)
    (hs : Sane s) : Held s u := by
  have h0 := Held.self hs
  unfold execVersionSwitch at e
  repeat' with_reducible first
    | assumption | (refine ran_held e ?_; clear e) | intro _ | apply keep_State_mgSwitch | apply keep_State_dirRun
    | split | (dsimp only)

theorem held_execShardMapWrite {svcNs : Nat} {s : State} {u : State} (e : execShardMapWrite svcNs s = .next u)
    (hs : Sane s) : Held s u := by
  have h0 := Held.self hs
  unfold execShardMapWrite at e
  repeat' with_reducible first
    | assumption | (refine ran_held e ?_; clear e) | intro _ | apply keep_State_mgShardMap
    | apply keep_State_dirRun | split | (dsimp only)

theorem held_execEpochBump {svcNs : Nat} {s : State} {u : State} (e : execEpochBump svcNs s = .next u)
    (hs : Sane s) : Held s u := by
  have h0 := Held.self hs
  unfold execEpochBump at e
  repeat' with_reducible first
    | assumption | (refine ran_held e ?_; clear e) | intro _ | apply keep_State_mgEpochBump
    | apply keep_State_dirRun | split | (dsimp only)

theorem held_execMigrate {svcNs : Nat} {s : State} {u : State} (e : execMigrate svcNs s = .next u)
    (hs : Sane s) : Held s u := by
  have h0 := Held.self hs
  unfold execMigrate at e
  repeat' with_reducible first
    | assumption | (refine ran_held e ?_; clear e) | intro _ | apply keep_State_mgMigrate | apply keep_State_dirRun
    | split | (dsimp only)

theorem held_execTableGrant {svcNs : Nat} {s : State} {u : State} (e : execTableGrant svcNs s = .next u)
    (hs : Sane s) : Held s u := by
  have h0 := Held.self hs
  unfold execTableGrant at e
  repeat' with_reducible first
    | assumption | (refine ran_held e ?_; clear e) | intro _ | apply keep_State_mgGrant | apply keep_State_dirRun
    | split | (dsimp only)

theorem held_execCountersRead {svcNs : Nat} {s : State} {u : State} (e : execCountersRead svcNs s = .next u)
    (hs : Sane s) : Held s u := by
  have h0 := Held.self hs
  unfold execCountersRead at e
  repeat' with_reducible first
    | assumption | (refine ran_held e ?_; clear e) | intro _ | apply keep_State_mgCounters
    | apply keep_State_dirRun | split | (dsimp only)

theorem held_execRwpRegisterWrite {off : Nat} {w : Word} {s : State} {u : State} (e : execRwpRegisterWrite off w s = .next u)
    (hs : Sane s) : Held s u := by
  have h0 := Held.self hs
  unfold execRwpRegisterWrite at e
  repeat' with_reducible first
    | assumption | (refine ran_held e ?_; clear e) | intro _ | apply keep_State_rwpWrite | split | split at e
    | (dsimp only)

theorem held_execHrMfpFuncWrite {w : Word} {s : State} {u : State} (e : execHrMfpFuncWrite w s = .next u)
    (hs : Sane s) : Held s u := by
  have h0 := Held.self hs
  unfold execHrMfpFuncWrite at e
  repeat' with_reducible first
    | assumption | (refine ran_held e ?_; clear e) | intro _ | apply keep_State_rwpWrite | split | (dsimp only)

theorem held_execPersistDone {s : State} {u : State} (e : execPersistDone s = .next u) (hs : Sane s) : Held s u := by
  have h0 := Held.self hs
  unfold execPersistDone at e
  repeat' with_reducible first
    | assumption | (refine ran_held e ?_; clear e) | intro _ | apply keep_State_psOps | apply keep_State_wake
    | apply keep_State_psDone | split | (dsimp only)

theorem sane_execPresencePress {s : State} {u : State} (e : execPresencePress s = .next u) (hs : Sane s) : Sane u := by
  unfold execPresencePress at e
  repeat' with_reducible first
    | assumption | (refine ran_sane e ?_; clear e) | intro _ | apply keep_State_modPres | apply Sane_ite
    | (simp -zeta -beta -iota -proj only [Sane_mk]) | apply Sound_of | split | split at e | (dsimp only)

theorem sane_execPresenceExpire {s : State} {u : State} (e : execPresenceExpire s = .next u)
    (hs : Sane s) : Sane u := by
  unfold execPresenceExpire at e
  repeat' with_reducible first
    | assumption | (refine came_sane e ?_; clear e) | intro _ | apply keep_State_modPres
    | refine Sane_by (fun k => keep_State_due k) ?_ | (simp -zeta -beta -iota -proj only [Sane_mk])
    | apply Sound_of | split | split at e | (dsimp only)

theorem sane_execSealSample {closed : Bool} {s : State} {u : State} (e : execSealSample closed s = .next u)
    (hs : Sane s) : Sane u := by
  unfold execSealSample at e
  repeat' with_reducible first
    | assumption | (refine ran_sane e ?_; clear e) | intro _ | apply keep_State_modBk | apply keep_State_modPres
    | refine Sane_by (fun k => keep_State_raise k) ?_ | apply Sane_ite
    | (apply Sane_id; extract_lets -underBinder +onlyGivenNames y; first | (refine keep_cut (p := Sane y) ?_ fun _ => ?_; unfold y; clear y; rotate_left; clear_value y) | clear_value y)
    | (simp -zeta -beta -iota -proj only [Sane_mk]) | apply Sound_of | split | split at e | (dsimp only)

theorem sane_execBackupSealSample {closed : Bool} {s : State} {u : State} (e : execBackupSealSample closed s = .next u)
    (hs : Sane s) : Sane u := by
  unfold execBackupSealSample at e
  repeat' with_reducible first
    | assumption | (refine ran_sane e ?_; clear e) | intro _ | apply keep_State_modBk | apply Sane_ite
    | (simp -zeta -beta -iota -proj only [Sane_mk]) | apply Sound_of | split | split at e | (dsimp only)

theorem sane_execPresLedBlink {s : State} {u : State} (e : execPresLedBlink s = .next u) (hs : Sane s) : Sane u := by
  unfold execPresLedBlink at e
  repeat' with_reducible first
    | assumption | (refine ran_sane e ?_; clear e) | intro _ | apply keep_State_modPres | apply Sane_ite
    | (simp -zeta -beta -iota -proj only [Sane_mk]) | apply Sound_of | split | split at e | (dsimp only)

theorem held_execPinKeeperRelease {pin : Nat} {s : State} {u : State} (e : execPinKeeperRelease pin s = .next u)
    (hs : Sane s) : Held s u := by
  have h0 := Held.self hs
  unfold execPinKeeperRelease at e
  repeat' with_reducible first
    | assumption | (refine came_held e ?_; clear e) | intro _ | apply keep_State_modPin | apply keep_State_due
    | (simp -zeta -beta -iota -proj only [Held_mk]) | apply Held_of | split | split at e | (dsimp only)

theorem held_execLandingPulseEnd {s : State} {u : State} (e : execLandingPulseEnd s = .next u)
    (hs : Sane s) : Held s u := by
  unfold execLandingPulseEnd at e
  refine came_held e ?_
  split
  · dsimp only [State.due]
    have h := Held_of (Held.self hs)
    exact Held_pins h (by simp)
  · exact Held.self hs

theorem sane_execThermtrip {temp : Int} {s : State} {u : State} (e : execThermtrip temp s = .next u)
    (hs : Sane s) : Sane u := by
  unfold execThermtrip at e
  repeat' with_reducible first
    | assumption | (refine ran_sane e ?_; clear e) | intro _ | apply keep_State_therm | split | (dsimp only)

theorem sane_execCoreSupplyRise {temp : Int} {s : State} {u : State} (e : execCoreSupplyRise temp s = .next u)
    (hs : Sane s) : Sane u := by
  unfold execCoreSupplyRise at e
  repeat' with_reducible first
    | assumption | (refine ran_sane e ?_; clear e) | intro _ | apply keep_State_therm
    | (simp -zeta -beta -iota -proj only [Sane_mk]) | apply Sound_of | split | (dsimp only)

theorem held_execHot {temp : Int} {s : State} {u : State} (e : execHot temp s = .next u) (hs : Sane s) : Held s u := by
  have h0 := Held.self hs
  unfold execHot at e
  repeat' with_reducible first
    | assumption | (refine ran_held e ?_; clear e) | intro _ | apply keep_State_modFlt | apply keep_State_raise
    | apply Held_ite | (simp -zeta -beta -iota -proj only [Held_mk]) | apply Held_of | split | split at e
    | (dsimp only)

theorem held_execRemapDone {col : Nat} {s : State} {u : State} (e : execRemapDone col s = .next u)
    (hs : Sane s) : Held s u := by
  have h0 := Held.self hs
  unfold execRemapDone at e
  repeat' with_reducible first
    | assumption | (refine ran_held e ?_; clear e) | intro _ | apply keep_State_installRemap | apply Held_ite
    | split | split at e | (dsimp only)

theorem held_execTempSample {col : Nat} {temps : List Int} {s : State} {u : State} (e : execTempSample col temps s = .next u)
    (hs : Sane s) : Held s u := by
  have h0 := Held.self hs
  unfold execTempSample at e
  repeat' with_reducible first
    | assumption | (refine ran_held e ?_; clear e) | intro _ | apply keep_State_sampleCol | apply keep_State_wake
    | apply Held_ite | split | split at e | (dsimp only)

theorem held_execRefresh {col : Nat} {s : State} {u : State} (e : execRefresh col s = .next u)
    (hs : Sane s) : Held s u := by
  have h0 := Held.self hs
  unfold execRefresh at e
  repeat' with_reducible first
    | assumption | (refine ran_held e ?_; clear e) | intro _ | apply keep_State_modCol
    | (simp -zeta -beta -iota -proj only [Held_mk]) | apply Held_of | split | (dsimp only)

theorem held_execScrubRead {off : Nat} {conn : Nat} {ecc : Ecc} {s : State} {u : State} (e : execScrubRead off conn ecc s = .next u)
    (hs : Sane s) : Held s u := by
  have h0 := Held.self hs
  unfold execScrubRead at e
  repeat' with_reducible first
    | assumption | (refine ran_held e ?_; clear e) | intro _ | apply keep_State_connError | apply keep_State_lineUe
    | apply keep_State_lineCe | apply keep_State_countActs | apply Held_ite
    | (apply Held_id; extract_lets -underBinder +onlyGivenNames y; first | (refine keep_cut (p := Held s y) ?_ fun _ => ?_; unfold y; clear y; rotate_left; clear_value y) | clear_value y)
    | split | split at e | (dsimp only) | (cases e; done)

theorem held_execScrubPassEnd {col : Nat} {s : State} {u : State} (e : execScrubPassEnd col s = .next u)
    (hs : Sane s) : Held s u := by
  have h0 := Held.self hs
  unfold execScrubPassEnd at e
  repeat' with_reducible first
    | assumption | (refine ran_held e ?_; clear e) | intro _ | apply keep_State_modCol | apply keep_State_bump
    | apply Held_ite | (simp -zeta -beta -iota -proj only [Held_mk]) | apply Held_of | split | split at e
    | (dsimp only)

theorem held_execStwRegCfgWrite {col : Nat} {w : Word} {s : State} {u : State} (e : execStwRegCfgWrite col w s = .next u)
    (hs : Sane s) : Held s u := by
  have h0 := Held.self hs
  unfold execStwRegCfgWrite at e
  repeat' with_reducible first
    | assumption | (refine ran_held e ?_; clear e) | intro _ | apply keep_State_stwRegCfg | split | (dsimp only)

theorem held_execPartitionTokenGain {col : Nat} {part : Nat} {s : State} {u : State} (e : execPartitionTokenGain col part s = .next u)
    (hs : Sane s) : Held s u := by
  have h0 := Held.self hs
  unfold execPartitionTokenGain at e
  repeat' with_reducible first
    | assumption | (refine ran_held e ?_; clear e) | intro _ | apply keep_State_wake | apply keep_State_modCol
    | apply Held_ite
    | (apply Held_id; extract_lets -underBinder +onlyGivenNames y; first | (refine keep_cut (p := Held s y) ?_ fun _ => ?_; unfold y; clear y; rotate_left; clear_value y) | clear_value y)
    | (simp -zeta -beta -iota -proj only [Held_mk]) | apply Held_of | split | split at e | (dsimp only)

theorem held_execMarchTestStart {col : Nat} {w : Word} {s : State} {u : State} (e : execMarchTestStart col w s = .next u)
    (hs : Sane s) : Held s u := by
  have h0 := Held.self hs
  unfold execMarchTestStart at e
  repeat' with_reducible first
    | assumption | (refine ran_held e ?_; clear e) | intro _ | apply keep_State_marchStart | split | (dsimp only)

theorem held_execMarchTestDone {col : Nat} {fails : List Nat} {s : State} {u : State} (e : execMarchTestDone col fails s = .next u)
    (hs : Sane s) : Held s u := by
  have h0 := Held.self hs
  unfold execMarchTestDone at e
  repeat' with_reducible first
    | assumption | (refine ran_held e ?_; clear e) | intro _ | apply keep_State_propose | apply keep_State_wake
    | apply keep_State_mntQueue | apply keep_State_modCol | apply keep_State_setReg | apply Held_ite
    | (apply Held_id; extract_lets -underBinder +onlyGivenNames y; first | (refine keep_cut (p := Held s y) ?_ fun _ => ?_; unfold y; clear y; rotate_left; clear_value y) | clear_value y)
    | (simp -zeta -beta -iota -proj only [Held_mk]) | apply Held_of | apply Held_foldl | apply Held_foldl1 | split
    | split at e | (dsimp only)

theorem held_execHostMemWrite {off : Nat} {data : List Byte} {s : State} {u : State} (e : execHostMemWrite off data s = .next u)
    (hs : Sane s) : Held s u := by
  have h0 := Held.self hs
  unfold execHostMemWrite at e
  repeat' with_reducible first
    | assumption | (refine ran_held e ?_; clear e) | intro _ | apply keep_State_wake | apply keep_State_stwWrite
    | apply keep_State_takeTokens | apply keep_State_emit | apply Held_ite
    | (apply Held_id; extract_lets -underBinder +onlyGivenNames y; first | (refine keep_cut (p := Held s y) ?_ fun _ => ?_; unfold y; clear y; rotate_left; clear_value y) | clear_value y)
    | refine Held_fst (by assumption) ?_ | split | split at e | (dsimp only) | (cases e; done)

theorem held_execHostMemRead {off : Nat} {len : Nat} {ecc : Ecc} {s : State} {u : State} (e : execHostMemRead off len ecc s = .next u)
    (hs : Sane s) : Held s u := by
  have h0 := Held.self hs
  unfold execHostMemRead at e
  repeat' with_reducible first
    | assumption | (refine ran_held e ?_; clear e) | intro _ | apply keep_State_wake | apply keep_State_stwRead
    | apply keep_State_takeTokens | apply keep_State_emit | apply Held_ite
    | (apply Held_id; extract_lets -underBinder +onlyGivenNames y; first | (refine keep_cut (p := Held s y) ?_ fun _ => ?_; unfold y; clear y; rotate_left; clear_value y) | clear_value y)
    | refine Held_fst (by assumption) ?_ | split | split at e | (dsimp only) | (cases e; done)

theorem held_execRcFill {miss : Nat} {ecc : Ecc} {s : State} {u : State} (e : execRcFill miss ecc s = .next u)
    (hs : Sane s) : Held s u := by
  have h0 := Held.self hs
  unfold execRcFill at e
  repeat' with_reducible first
    | assumption | (refine ran_held e ?_; clear e) | intro _ | apply keep_State_rcFill | apply keep_State_wake
    | apply Held_ite | split | split at e | (dsimp only)

theorem held_execRowArrival {key : Nat} {pos : Nat} {r : RowRead} {s : State} {u : State} (e : execRowArrival key pos r s = .next u)
    (hs : Sane s) : Held s u := by
  have h0 := Held.self hs
  unfold execRowArrival at e
  repeat' with_reducible first
    | assumption | (refine ran_held e ?_; clear e) | intro _ | apply keep_State_servedArrive
    | apply keep_State_wake | apply keep_State_advance | apply keep_State_rowArrive | apply Held_ite | split
    | split at e | (dsimp only)

theorem held_execMntWalkDone {s : State} {u : State} (e : execMntWalkDone s = .next u) (hs : Sane s) : Held s u := by
  have h0 := Held.self hs
  unfold execMntWalkDone at e
  repeat' with_reducible first
    | assumption | (refine ran_held e ?_; clear e) | intro _ | apply keep_State_walkDone | apply keep_State_wake
    | apply Held_ite | split | split at e | (dsimp only)

theorem held_execInvRange {s : State} {u : State} (e : execInvRange s = .next u) (hs : Sane s) : Held s u := by
  have h0 := Held.self hs
  unfold execInvRange at e
  repeat' with_reducible first
    | assumption | (refine ran_held e ?_; clear e) | intro _ | apply keep_State_mntReq
    | (apply Held_id; extract_lets -underBinder +onlyGivenNames y; first | (refine keep_cut (p := Held s y) ?_ fun _ => ?_; unfold y; clear y; rotate_left; clear_value y) | clear_value y)
    | split | (dsimp only)

theorem held_execInvTable {table : Nat} {slots : Nat} {s : State} {u : State} (e : execInvTable table slots s = .next u)
    (hs : Sane s) : Held s u := by
  have h0 := Held.self hs
  unfold execInvTable at e
  repeat' with_reducible first
    | assumption | (refine ran_held e ?_; clear e) | intro _ | apply keep_State_mntReq | split | (dsimp only)

theorem held_execInvAll {s : State} {u : State} (e : execInvAll s = .next u) (hs : Sane s) : Held s u := by
  have h0 := Held.self hs
  unfold execInvAll at e
  repeat' with_reducible first
    | assumption | (refine ran_held e ?_; clear e) | intro _ | apply keep_State_mntReq | split | (dsimp only)

theorem held_execMntNop {s : State} {u : State} (e : execMntNop s = .next u) (hs : Sane s) : Held s u := by
  have h0 := Held.self hs
  unfold execMntNop at e
  repeat' with_reducible first
    | assumption | (refine ran_held e ?_; clear e) | intro _ | apply keep_State_mntReq | split | (dsimp only)

theorem held_execRcEnable {w : Word} {s : State} {u : State} (e : execRcEnable w s = .next u)
    (hs : Sane s) : Held s u := by
  have h0 := Held.self hs
  unfold execRcEnable at e
  repeat' with_reducible first
    | assumption | (refine ran_held e ?_; clear e) | intro _ | apply keep_State_rcEnable | split | (dsimp only)

theorem held_execRcDisable {w : Word} {s : State} {u : State} (e : execRcDisable w s = .next u)
    (hs : Sane s) : Held s u := by
  have h0 := Held.self hs
  unfold execRcDisable at e
  repeat' with_reducible first
    | assumption | (refine ran_held e ?_; clear e) | intro _ | apply keep_State_rcDisable | split | (dsimp only)

theorem held_execRcPinWrite {w : Word} {s : State} {u : State} (e : execRcPinWrite w s = .next u)
    (hs : Sane s) : Held s u := by
  have h0 := Held.self hs
  unfold execRcPinWrite at e
  repeat' with_reducible first
    | assumption | (refine ran_held e ?_; clear e) | intro _ | apply keep_State_rcPin | split | (dsimp only)

theorem held_execDenseCredit {n : Nat} {s : State} {u : State} (e : execDenseCredit n s = .next u)
    (hs : Sane s) : Held s u := by
  have h0 := Held.self hs
  unfold execDenseCredit at e
  repeat' with_reducible first
    | assumption | (refine ran_held e ?_; clear e) | intro _ | apply keep_denseGo | apply keep_State_wake
    | apply keep_State_modXlt | apply Held_ite
    | (apply Held_id; extract_lets -underBinder +onlyGivenNames y; first | (refine keep_cut (p := Held s y) ?_ fun _ => ?_; unfold y; clear y; rotate_left; clear_value y) | clear_value y)
    | (simp -zeta -beta -iota -proj only [Held_mk]) | apply Held_of | split | split at e | (dsimp only)

theorem held_execStatFlush {gal : Nat} {s : State} {u : State} (e : execStatFlush gal s = .next u)
    (hs : Sane s) : Held s u := by
  have h0 := Held.self hs
  unfold execStatFlush at e
  repeat' with_reducible first
    | assumption | (refine ran_held e ?_; clear e) | intro _ | apply keep_State_statFlush | apply Held_ite | split
    | split at e | (dsimp only)

theorem held_execGalStatSnap {w : Word} {s : State} {u : State} (e : execGalStatSnap w s = .next u)
    (hs : Sane s) : Held s u := by
  have h0 := Held.self hs
  unfold execGalStatSnap at e
  repeat' with_reducible first
    | assumption | (refine ran_held e ?_; clear e) | intro _ | apply keep_State_galStatSnap | split | (dsimp only)

theorem held_execKiteUpdSnap {w : Word} {s : State} {u : State} (e : execKiteUpdSnap w s = .next u)
    (hs : Sane s) : Held s u := by
  have h0 := Held.self hs
  unfold execKiteUpdSnap at e
  repeat' with_reducible first
    | assumption | (refine ran_held e ?_; clear e) | intro _ | apply keep_State_kiteUpdSnap | split | (dsimp only)

theorem sane_execLanding {s : State} {u : State} (e : execLanding s = .next u) (hs : Sane s) : Sane u := by
  unfold execLanding at e
  repeat' with_reducible first
    | assumption | (refine came_sane e ?_; clear e) | intro _ | apply keep_State_landing | split | (dsimp only)

theorem sane_execFlightLengthChange {s : State} {u : State} (e : execFlightLengthChange s = .next u)
    (hs : Sane s) : Sane u := by
  unfold execFlightLengthChange at e
  repeat' with_reducible first
    | assumption | (refine came_sane e ?_; clear e) | intro _ | apply keep_State_landingIf | split | (dsimp only)

theorem sane_execSwitchTakesEffect {s : State} {u : State} (e : execSwitchTakesEffect s = .next u)
    (hs : Sane s) : Sane u := by
  unfold execSwitchTakesEffect at e
  repeat' with_reducible first
    | assumption | (refine came_sane e ?_; clear e) | intro _ | apply keep_State_landingIf | split | split at e
    | (dsimp only)

theorem sane_execStateChangeTakesEffect {s : State} {u : State} (e : execStateChangeTakesEffect s = .next u)
    (hs : Sane s) : Sane u := by
  unfold execStateChangeTakesEffect at e
  repeat' with_reducible first
    | assumption | (refine came_sane e ?_; clear e) | intro _ | apply keep_State_landingIf | split | split at e
    | (dsimp only)

theorem sane_execEpochBumpTakesEffect {s : State} {u : State} (e : execEpochBumpTakesEffect s = .next u)
    (hs : Sane s) : Sane u := by
  unfold execEpochBumpTakesEffect at e
  repeat' with_reducible first
    | assumption | (refine came_sane e ?_; clear e) | intro _ | apply keep_State_landingIf | split | split at e
    | (dsimp only)

theorem sane_execMigrateStart {s : State} {u : State} (e : execMigrateStart s = .next u) (hs : Sane s) : Sane u := by
  unfold execMigrateStart at e
  repeat' with_reducible first
    | assumption | (refine came_sane e ?_; clear e) | intro _ | apply keep_State_landingIf | split | split at e
    | (dsimp only)

theorem sane_execGraceEnd {s : State} {u : State} (e : execGraceEnd s = .next u) (hs : Sane s) : Sane u := by
  unfold execGraceEnd at e
  repeat' with_reducible first
    | assumption | (refine came_sane e ?_; clear e) | intro _ | apply keep_State_landingIf | split | split at e
    | (dsimp only)

theorem sane_execSlotEmpty {table : Nat} {slot : Nat} {s : State} {u : State} (e : execSlotEmpty table slot s = .next u)
    (hs : Sane s) : Sane u := by
  unfold execSlotEmpty at e
  repeat' with_reducible first
    | assumption | (refine came_sane e ?_; clear e) | intro _ | apply keep_State_landingIf | split | (dsimp only)

theorem sane_execHeldRun {s : State} {u : State} (e : execHeldRun s = .next u) (hs : Sane s) : Sane u := by
  unfold execHeldRun at e
  repeat' with_reducible first
    | assumption | (refine came_sane e ?_; clear e) | intro _ | apply keep_State_landingIf | split | (dsimp only)

theorem sane_execResyncStep {s : State} {u : State} (e : execResyncStep s = .next u) (hs : Sane s) : Sane u := by
  unfold execResyncStep at e
  repeat' with_reducible first
    | assumption | (refine came_sane e ?_; clear e) | intro _ | apply keep_State_landingIf | split | (dsimp only)

theorem sane_execSpareEnabled {s : State} {u : State} (e : execSpareEnabled s = .next u) (hs : Sane s) : Sane u := by
  unfold execSpareEnabled at e
  repeat' with_reducible first
    | assumption | (refine came_sane e ?_; clear e) | intro _ | apply keep_State_landingIf | split | (dsimp only)

theorem sane_execFloorBreach {s : State} {u : State} (e : execFloorBreach s = .next u) (hs : Sane s) : Sane u := by
  unfold execFloorBreach at e
  repeat' with_reducible first
    | assumption | (refine came_sane e ?_; clear e) | intro _ | apply keep_State_landingIf | split | (dsimp only)

theorem sane_execBeaconSend {s : State} {u : State} (e : execBeaconSend s = .next u) (hs : Sane s) : Sane u := by
  unfold execBeaconSend at e
  repeat' with_reducible first
    | assumption | (refine came_sane e ?_; clear e) | intro _ | apply keep_State_landing | apply keep_State_modHall
    | refine Sane_by (fun k => keep_State_due k) ?_ | refine Sane_by (fun k => keep_State_emit k) ?_
    | apply Sane_ite
    | (apply Sane_id; extract_lets -underBinder +onlyGivenNames y; first | (refine keep_cut (p := Sane y) ?_ fun _ => ?_; unfold y; clear y; rotate_left; clear_value y) | clear_value y)
    | (simp -zeta -beta -iota -proj only [Sane_mk]) | apply Sound_of | apply Sane_foldl | split | split at e
    | (dsimp only)

theorem sane_execBeacon {port : Nat} {b : Beacon} {s : State} {u : State} (e : execBeacon port b s = .next u)
    (hs : Sane s) : Sane u := by
  unfold execBeacon at e
  repeat' with_reducible first
    | assumption | (refine ran_sane e ?_; clear e) | intro _ | apply keep_State_takeBeacon
    | apply keep_State_modHall | apply Sane_ite | (simp -zeta -beta -iota -proj only [Sane_mk]) | apply Sound_of
    | split | split at e | (dsimp only)

theorem sane_execUpstreamSwitch {s : State} {u : State} (e : execUpstreamSwitch s = .next u)
    (hs : Sane s) : Sane u := by
  unfold execUpstreamSwitch at e
  repeat' with_reducible first
    | assumption | (refine came_sane e ?_; clear e) | intro _ | apply keep_State_modHall
    | refine Sane_by (fun k => keep_State_due k) ?_ | apply Sane_ite
    | (apply Sane_id; extract_lets -underBinder +onlyGivenNames y; first | (refine keep_cut (p := Sane y) ?_ fun _ => ?_; unfold y; clear y; rotate_left; clear_value y) | clear_value y)
    | (simp -zeta -beta -iota -proj only [Sane_mk]) | apply Sound_of | split | split at e | (dsimp only)

theorem sane_execSyncFree {s : State} {u : State} (e : execSyncFree s = .next u) (hs : Sane s) : Sane u := by
  unfold execSyncFree at e
  repeat' with_reducible first
    | assumption | (refine came_sane e ?_; clear e) | intro _ | apply keep_State_enterFree
    | refine Sane_by (fun k => keep_State_due k) ?_ | apply Sane_ite | split | split at e | (dsimp only)

theorem sane_execSyncFreeLong {s : State} {u : State} (e : execSyncFreeLong s = .next u) (hs : Sane s) : Sane u := by
  unfold execSyncFreeLong at e
  repeat' with_reducible first
    | assumption | (refine came_sane e ?_; clear e) | intro _ | apply keep_State_modHall
    | refine Sane_by (fun k => keep_State_due k) ?_ | refine Sane_by (fun k => keep_State_raise k) ?_
    | apply Sane_ite | (simp -zeta -beta -iota -proj only [Sane_mk]) | apply Sound_of | split | split at e
    | (dsimp only)

theorem sane_execRefclkLoss {s : State} {u : State} (e : execRefclkLoss s = .next u) (hs : Sane s) : Sane u := by
  unfold execRefclkLoss at e
  repeat' with_reducible first
    | assumption | (refine ran_sane e ?_; clear e) | intro _ | apply keep_State_enterFree
    | apply keep_State_modHall | refine Sane_by (fun k => keep_State_raise k) ?_ | apply Sane_ite
    | (apply Sane_id; extract_lets -underBinder +onlyGivenNames y; first | (refine keep_cut (p := Sane y) ?_ fun _ => ?_; unfold y; clear y; rotate_left; clear_value y) | clear_value y)
    | (simp -zeta -beta -iota -proj only [Sane_mk]) | apply Sound_of | split | split at e | (dsimp only)

theorem sane_execRefclkReturn {s : State} {u : State} (e : execRefclkReturn s = .next u) (hs : Sane s) : Sane u := by
  unfold execRefclkReturn at e
  repeat' with_reducible first
    | assumption | (refine ran_sane e ?_; clear e) | intro _ | apply keep_State_modHall | apply Sane_ite
    | (apply Sane_id; extract_lets -underBinder +onlyGivenNames y; first | (refine keep_cut (p := Sane y) ?_ fun _ => ?_; unfold y; clear y; rotate_left; clear_value y) | clear_value y)
    | (simp -zeta -beta -iota -proj only [Sane_mk]) | apply Sound_of | split | split at e | (dsimp only)

theorem sane_execFltRootWrite {_path : Path} {w : Word} {s : State} {u : State} (e : execFltRootWrite _path w s = .next u)
    (hs : Sane s) : Sane u := by
  unfold execFltRootWrite at e
  repeat' with_reducible first
    | assumption | (refine ran_sane e ?_; clear e) | intro _ | apply keep_State_writeRoot | apply Sane_ite | split
    | split at e | (dsimp only)

theorem sane_execResync {s : State} {u : State} (e : execResync s = .next u) (hs : Sane s) : Sane u := by
  unfold execResync at e
  repeat' with_reducible first
    | assumption | (refine ran_sane e ?_; clear e) | intro _ | apply keep_State_askResync | apply Sane_ite | split
    | split at e | (dsimp only)

theorem held_execLagClr {s : State} {u : State} (e : execLagClr s = .next u) (hs : Sane s) : Held s u := by
  have h0 := Held.self hs
  unfold execLagClr at e
  repeat' with_reducible first
    | assumption | (refine ran_held e ?_; clear e) | intro _ | apply keep_State_askLagClr | apply Held_ite | split
    | split at e | (dsimp only)

theorem held_execNrgWindow {staticNj : Nat} {measuredNj : Nat} {s : State} {u : State} (e : execNrgWindow staticNj measuredNj s = .next u)
    (hs : Sane s) : Held s u := by
  have h0 := Held.self hs
  unfold execNrgWindow at e
  repeat' with_reducible first
    | assumption | (refine ran_held e ?_; clear e) | intro _ | apply keep_State_modFlt | apply Held_ite
    | (apply Held_id; extract_lets -underBinder +onlyGivenNames y; first | (refine keep_cut (p := Held s y) ?_ fun _ => ?_; unfold y; clear y; rotate_left; clear_value y) | clear_value y)
    | (simp -zeta -beta -iota -proj only [Held_mk]) | apply Held_of | split | split at e | (dsimp only)

theorem sane_execYfRstinAssert {s : State} {u : State} (e : execYfRstinAssert s = .next u) (hs : Sane s) : Sane u := by
  unfold execYfRstinAssert at e
  repeat' with_reducible first
    | assumption | (refine ran_sane e ?_; clear e) | intro _ | apply keep_State_wideStart
    | apply keep_State_bkCount | apply keep_State_modRst | apply Sane_ite
    | (simp -zeta -beta -iota -proj only [Sane_mk]) | apply Sound_of | split | split at e | (dsimp only)

theorem sane_execYfRstinRelease {s : State} {u : State} (e : execYfRstinRelease s = .next u)
    (hs : Sane s) : Sane u := by
  unfold execYfRstinRelease at e
  repeat' with_reducible first
    | assumption | (refine ran_sane e ?_; clear e) | intro _ | apply keep_State_modRst
    | (simp -zeta -beta -iota -proj only [Sane_mk]) | apply Sound_of | split | (dsimp only)

theorem sane_execWarm {path : Path} {w : Word} {s : State} {u : State} (e : execWarm path w s = .next u)
    (hs : Sane s) : Sane u := by
  unfold execWarm at e
  repeat' with_reducible first
    | assumption | (refine ran_sane e ?_; clear e) | intro _ | apply keep_State_rstCmd | apply Sane_ite | split
    | split at e | (dsimp only)

theorem sane_execCold {path : Path} {w : Word} {s : State} {u : State} (e : execCold path w s = .next u)
    (hs : Sane s) : Sane u := by
  unfold execCold at e
  repeat' with_reducible first
    | assumption | (refine ran_sane e ?_; clear e) | intro _ | apply keep_State_rstCmd | apply Sane_ite | split
    | split at e | (dsimp only)

theorem sane_execStandbyRailFall {s : State} {u : State} (e : execStandbyRailFall s = .next u)
    (hs : Sane s) : Sane u := by
  unfold execStandbyRailFall at e
  repeat' with_reducible first
    | assumption | (refine ran_sane e ?_; clear e) | intro _ | apply keep_State_railFall | apply Sane_ite | split
    | split at e | (dsimp only)

theorem sane_execPowerOn {s : State} {u : State} (e : execPowerOn s = .next u) (hs : Sane s) : Sane u := by
  unfold execPowerOn at e
  repeat' with_reducible first
    | assumption | (refine ran_sane e ?_; clear e) | intro _ | apply keep_State_railFall | apply keep_State_bkCount
    | apply keep_State_modRst | apply Sane_ite
    | (apply Sane_id; extract_lets -underBinder +onlyGivenNames y; first | (refine keep_cut (p := Sane y) ?_ fun _ => ?_; unfold y; clear y; rotate_left; clear_value y) | clear_value y)
    | (simp -zeta -beta -iota -proj only [Sane_mk]) | apply Sound_of | split | split at e | (dsimp only)

theorem sane_execVbakLoss {s : State} {u : State} (e : execVbakLoss s = .next u) (hs : Sane s) : Sane u := by
  unfold execVbakLoss at e
  repeat' with_reducible first
    | assumption | (refine ran_sane e ?_; clear e) | intro _ | apply keep_State_modBk | apply Sane_ite
    | (simp -zeta -beta -iota -proj only [Sane_mk]) | apply Sound_of | split | split at e | (dsimp only)

theorem sane_execAbortPhaseEnd {s : State} {u : State} (e : execAbortPhaseEnd s = .next u) (hs : Sane s) : Sane u := by
  unfold execAbortPhaseEnd at e
  repeat' with_reducible first
    | assumption | (refine ran_sane e ?_; clear e) | intro _ | apply keep_State_modRst | apply Sane_ite
    | (simp -zeta -beta -iota -proj only [Sane_mk]) | apply Sound_of | split | split at e | (dsimp only)

theorem sane_execResetHoldEnd {s : State} {u : State} (e : execResetHoldEnd s = .next u) (hs : Sane s) : Sane u := by
  unfold execResetHoldEnd at e
  repeat' with_reducible first
    | assumption | (refine came_sane e ?_; clear e) | intro _ | apply keep_State_modRst
    | refine Sane_by (fun k => keep_State_due k) ?_ | apply Sane_ite
    | (simp -zeta -beta -iota -proj only [Sane_mk]) | apply Sound_of | split | split at e | (dsimp only)

theorem sane_execReleaseStep {s : State} {u : State} (e : execReleaseStep s = .next u) (hs : Sane s) : Sane u := by
  unfold execReleaseStep at e
  repeat' with_reducible first
    | assumption | (refine came_sane e ?_; clear e) | intro _ | apply keep_State_modRst
    | refine Sane_by (fun k => keep_State_modKite k) ?_ | refine Sane_by (fun k => keep_State_due k) ?_
    | apply Sane_ite
    | (apply Sane_id; extract_lets -underBinder +onlyGivenNames y; first | (refine keep_cut (p := Sane y) ?_ fun _ => ?_; unfold y; clear y; rotate_left; clear_value y) | clear_value y)
    | (simp -zeta -beta -iota -proj only [Sane_mk]) | apply Sound_of | split | split at e | (dsimp only)

theorem sane_execDomainReady {strap : Nat} {temps : List Int} {s : State} {u : State} (e : execDomainReady strap temps s = .next u)
    (hs : Sane s) : Sane u := by
  unfold execDomainReady at e
  repeat' with_reducible first
    | assumption | (refine came_sane e ?_; clear e) | intro _ | apply keep_State_step6Ready
    | refine Sane_by (fun k => keep_State_step5Ready k) ?_ | apply keep_State_step2Ready
    | apply keep_State_step1Ready | apply keep_State_modRst | refine Sane_by (fun k => keep_State_walkDone k) ?_
    | refine Sane_by (fun k => keep_State_due k) ?_ | apply Sane_ite
    | (apply Sane_id; extract_lets -underBinder +onlyGivenNames y; first | (refine keep_cut (p := Sane y) ?_ fun _ => ?_; unfold y; clear y; rotate_left; clear_value y) | clear_value y)
    | (simp -zeta -beta -iota -proj only [Sane_mk]) | apply Sound_of | split | split at e | (dsimp only)

theorem held_execBoot {s : State} {u : State} (e : execBoot s = .next u) (hs : Sane s) : Held s u := by
  have h0 := Held.self hs
  unfold execBoot at e
  repeat' with_reducible first
    | assumption | (refine ran_held e ?_; clear e) | intro _ | apply keep_State_bootStore
    | apply keep_State_modBoot | apply Held_ite | (simp -zeta -beta -iota -proj only [Held_mk]) | apply Held_of
    | split | split at e | (dsimp only)

theorem held_execBootRequest {s : State} {u : State} (e : execBootRequest s = .next u) (hs : Sane s) : Held s u := by
  have h0 := Held.self hs
  unfold execBootRequest at e
  repeat' with_reducible first
    | assumption | (refine came_held e ?_; clear e) | intro _ | apply keep_State_modBoot | apply keep_State_due
    | apply keep_State_emit | apply Held_ite
    | (apply Held_id; extract_lets -underBinder +onlyGivenNames y; first | (refine keep_cut (p := Held s y) ?_ fun _ => ?_; unfold y; clear y; rotate_left; clear_value y) | clear_value y)
    | (simp -zeta -beta -iota -proj only [Held_mk]) | apply Held_of | split | split at e | (dsimp only)

theorem held_execBootImage {off : Nat} {data : List Byte} {s : State} {u : State} (e : execBootImage off data s = .next u)
    (hs : Sane s) : Held s u := by
  have h0 := Held.self hs
  unfold execBootImage at e
  repeat' with_reducible first
    | assumption | (refine ran_held e ?_; clear e) | intro _ | apply keep_State_fwStart | apply keep_State_modBoot
    | apply Held_ite
    | (apply Held_id; extract_lets -underBinder +onlyGivenNames y; first | (refine keep_cut (p := Held s y) ?_ fun _ => ?_; unfold y; clear y; rotate_left; clear_value y) | clear_value y)
    | (simp -zeta -beta -iota -proj only [Held_mk]) | apply Held_of | apply Held_foldl | split | split at e
    | (dsimp only)

theorem sane_execWdogExpiry {s : State} {u : State} (e : execWdogExpiry s = .next u) (hs : Sane s) : Sane u := by
  unfold execWdogExpiry at e
  repeat' with_reducible first
    | assumption | (refine came_sane e ?_; clear e) | intro _ | refine Sane_by (fun k => keep_State_fwRestart k) ?_
    | apply keep_State_warmStart | refine Sane_by (fun k => keep_State_due k) ?_
    | refine Sane_by (fun k => keep_State_raise k) ?_ | apply Sane_ite
    | (apply Sane_id; extract_lets -underBinder +onlyGivenNames y; first | (refine keep_cut (p := Sane y) ?_ fun _ => ?_; unfold y; clear y; rotate_left; clear_value y) | clear_value y)
    | split | split at e | (dsimp only)

theorem held_execErrWdogKick {s : State} {u : State} (e : execErrWdogKick s = .next u) (hs : Sane s) : Held s u := by
  have h0 := Held.self hs
  unfold execErrWdogKick at e
  repeat' with_reducible first
    | assumption | (refine ran_held e ?_; clear e) | intro _ | apply keep_State_modBoot | apply Held_ite
    | (simp -zeta -beta -iota -proj only [Held_mk]) | apply Held_of | split | split at e | (dsimp only)

theorem held_execErrWdogCtlWrite {w : Word} {s : State} {u : State} (e : execErrWdogCtlWrite w s = .next u)
    (hs : Sane s) : Held s u := by
  have h0 := Held.self hs
  unfold execErrWdogCtlWrite at e
  repeat' with_reducible first
    | assumption | (refine ran_held e ?_; clear e) | intro _ | apply keep_State_modBoot | apply Held_ite
    | (simp -zeta -beta -iota -proj only [Held_mk]) | apply Held_of | split | split at e | (dsimp only)

theorem held_execSelftest {svcNs : Nat} {s : State} {u : State} (e : execSelftest svcNs s = .next u)
    (hs : Sane s) : Held s u := by
  have h0 := Held.self hs
  unfold execSelftest at e
  repeat' with_reducible first
    | assumption | (refine ran_held e ?_; clear e) | intro _ | apply keep_State_mgSelftest | apply keep_State_mgRun
    | apply Held_ite | split | split at e | (dsimp only)

theorem held_execSelftestUnitDone {code : Nat} {s : State} {u : State} (e : execSelftestUnitDone code s = .next u)
    (hs : Sane s) : Held s u := by
  have h0 := Held.self hs
  unfold execSelftestUnitDone at e
  repeat' with_reducible first
    | assumption | (refine came_held e ?_; clear e) | intro _ | apply keep_State_selfResult
    | apply keep_State_selfReturn | apply keep_State_modSelf | apply keep_State_wake | apply keep_State_due
    | apply Held_ite | (simp -zeta -beta -iota -proj only [Held_mk]) | apply Held_of | split | split at e
    | (dsimp only)

theorem held_execSelftestIdleTimeout {s : State} {u : State} (e : execSelftestIdleTimeout s = .next u)
    (hs : Sane s) : Held s u := by
  have h0 := Held.self hs
  unfold execSelftestIdleTimeout at e
  repeat' with_reducible first
    | assumption | (refine came_held e ?_; clear e) | intro _ | apply keep_State_selfReturn
    | apply keep_State_modSelf | apply keep_State_wake | apply keep_State_due | apply Held_ite
    | (simp -zeta -beta -iota -proj only [Held_mk]) | apply Held_of | split | split at e | (dsimp only)

theorem held_execFence {svcNs : Nat} {s : State} {u : State} (e : execFence svcNs s = .next u)
    (hs : Sane s) : Held s u := by
  have h0 := Held.self hs
  unfold execFence at e
  repeat' with_reducible first
    | assumption | (refine ran_held e ?_; clear e) | intro _ | apply keep_State_mgFence | apply keep_State_mgRun
    | split | (dsimp only)

theorem sane_execUnitReset {svcNs : Nat} {s : State} {u : State} (e : execUnitReset svcNs s = .next u)
    (hs : Sane s) : Sane u := by
  unfold execUnitReset at e
  repeat' with_reducible first
    | assumption | (refine ran_sane e ?_; clear e) | intro _ | apply keep_State_mgUnitReset
    | apply sane_State_mgRun | split | (dsimp only)

theorem held_execUnitResetDone {s : State} {u : State} (e : execUnitResetDone s = .next u)
    (hs : Sane s) : Held s u := by
  have h0 := Held.self hs
  unfold execUnitResetDone at e
  repeat' with_reducible first
    | assumption | (refine came_held e ?_; clear e) | intro _ | apply keep_State_colPending
    | apply keep_State_dropOp | apply keep_State_mgOk | apply keep_State_wake | apply keep_State_due
    | apply Held_ite
    | (apply Held_id; extract_lets -underBinder +onlyGivenNames y; first | (refine keep_cut (p := Held s y) ?_ fun _ => ?_; unfold y; clear y; rotate_left; clear_value y) | clear_value y)
    | split | split at e | (dsimp only)

theorem held_execDrain {svcNs : Nat} {s : State} {u : State} (e : execDrain svcNs s = .next u)
    (hs : Sane s) : Held s u := by
  have h0 := Held.self hs
  unfold execDrain at e
  repeat' with_reducible first
    | assumption | (refine ran_held e ?_; clear e) | intro _ | apply keep_State_mgDrain | apply keep_State_mgRun
    | split | (dsimp only)

theorem held_execDrained {s : State} {u : State} (e : execDrained s = .next u) (hs : Sane s) : Held s u := by
  have h0 := Held.self hs
  unfold execDrained at e
  repeat' with_reducible first
    | assumption | (refine ran_held e ?_; clear e) | intro _ | apply keep_State_dropOp | apply keep_State_mgOk
    | apply keep_State_wake | apply keep_State_modErr | apply keep_State_raise | apply Held_ite
    | (apply Held_id; extract_lets -underBinder +onlyGivenNames y; first | (refine keep_cut (p := Held s y) ?_ fun _ => ?_; unfold y; clear y; rotate_left; clear_value y) | clear_value y)
    | (simp -zeta -beta -iota -proj only [Held_mk]) | apply Held_of | apply Held_foldl | split | split at e
    | (dsimp only)

theorem held_execPersistWrite {svcNs : Nat} {s : State} {u : State} (e : execPersistWrite svcNs s = .next u)
    (hs : Sane s) : Held s u := by
  have h0 := Held.self hs
  unfold execPersistWrite at e
  repeat' with_reducible first
    | assumption | (refine ran_held e ?_; clear e) | intro _ | apply keep_State_mgPersist | apply keep_State_mgRun
    | split | (dsimp only)

theorem held_execRepairMapWrite {svcNs : Nat} {s : State} {u : State} (e : execRepairMapWrite svcNs s = .next u)
    (hs : Sane s) : Held s u := by
  have h0 := Held.self hs
  unfold execRepairMapWrite at e
  repeat' with_reducible first
    | assumption | (refine ran_held e ?_; clear e) | intro _ | apply keep_State_mgRepair | apply keep_State_mgRun
    | split | (dsimp only)

theorem held_execWearOverride {svcNs : Nat} {s : State} {u : State} (e : execWearOverride svcNs s = .next u)
    (hs : Sane s) : Held s u := by
  have h0 := Held.self hs
  unfold execWearOverride at e
  repeat' with_reducible first
    | assumption | (refine ran_held e ?_; clear e) | intro _ | apply keep_State_mgOverride | apply keep_State_mgRun
    | split | (dsimp only)

theorem held_execFwLoad {svcNs : Nat} {s : State} {u : State} (e : execFwLoad svcNs s = .next u)
    (hs : Sane s) : Held s u := by
  have h0 := Held.self hs
  unfold execFwLoad at e
  repeat' with_reducible first
    | assumption | (refine ran_held e ?_; clear e) | intro _ | apply keep_State_mgFwLoad | apply keep_State_mgRun
    | split | (dsimp only)

theorem held_execFwAccept {svcNs : Nat} {s : State} {u : State} (e : execFwAccept svcNs s = .next u)
    (hs : Sane s) : Held s u := by
  have h0 := Held.self hs
  unfold execFwAccept at e
  repeat' with_reducible first
    | assumption | (refine ran_held e ?_; clear e) | intro _ | apply keep_State_mgFwAccept | apply keep_State_mgRun
    | split | (dsimp only)

theorem held_execDebugEnable {svcNs : Nat} {s : State} {u : State} (e : execDebugEnable svcNs s = .next u)
    (hs : Sane s) : Held s u := by
  have h0 := Held.self hs
  unfold execDebugEnable at e
  repeat' with_reducible first
    | assumption | (refine ran_held e ?_; clear e) | intro _ | apply keep_State_mgDebug | apply keep_State_mgRun
    | split | (dsimp only)

theorem sane_execRemoteReset {svcNs : Nat} {s : State} {u : State} (e : execRemoteReset svcNs s = .next u)
    (hs : Sane s) : Sane u := by
  unfold execRemoteReset at e
  repeat' with_reducible first
    | assumption | (refine ran_sane e ?_; clear e) | intro _ | apply keep_State_mgRemote | apply sane_State_mgRun
    | split | (dsimp only)

theorem held_execHostLossMode {svcNs : Nat} {s : State} {u : State} (e : execHostLossMode svcNs s = .next u)
    (hs : Sane s) : Held s u := by
  have h0 := Held.self hs
  unfold execHostLossMode at e
  repeat' with_reducible first
    | assumption | (refine ran_held e ?_; clear e) | intro _ | apply keep_State_mgHostLoss | apply keep_State_mgRun
    | split | (dsimp only)

theorem held_execReattach {svcNs : Nat} {s : State} {u : State} (e : execReattach svcNs s = .next u)
    (hs : Sane s) : Held s u := by
  have h0 := Held.self hs
  unfold execReattach at e
  repeat' with_reducible first
    | assumption | (refine ran_held e ?_; clear e) | intro _ | apply keep_State_mgReattach | apply keep_State_mgRun
    | split | (dsimp only)

theorem held_execHostReadCompletion {id : Nat} {data : List Byte} {poison : Option Nat} {s : State} {u : State} (e : execHostReadCompletion id data poison s = .next u)
    (hs : Sane s) : Held s u := by
  have h0 := Held.self hs
  unfold execHostReadCompletion at e
  repeat' with_reducible first
    | assumption | (refine ran_held e ?_; clear e) | intro _ | apply keep_State_hostDone | apply keep_State_wake
    | apply Held_ite
    | (apply Held_id; extract_lets -underBinder +onlyGivenNames y; first | (refine keep_cut (p := Held s y) ?_ fun _ => ?_; unfold y; clear y; rotate_left; clear_value y) | clear_value y)
    | split | split at e | (dsimp only)

theorem held_execCopyReadError {id : Nat} {first : Nat} {s : State} {u : State} (e : execCopyReadError id first s = .next u)
    (hs : Sane s) : Held s u := by
  have h0 := Held.self hs
  unfold execCopyReadError at e
  repeat' with_reducible first
    | assumption | (refine ran_held e ?_; clear e) | intro _ | apply keep_State_hostDone | apply keep_State_wake
    | apply keep_State_cpyReadErr | split | split at e | (dsimp only)

theorem held_execAtsCompletion {id : Nat} {r : AtsReply} {s : State} {u : State} (e : execAtsCompletion id r s = .next u)
    (hs : Sane s) : Held s u := by
  have h0 := Held.self hs
  unfold execAtsCompletion at e
  repeat' with_reducible first
    | assumption | (refine ran_held e ?_; clear e) | intro _ | apply keep_State_pageMissing
    | apply keep_State_retryAccs | apply keep_State_wake | apply keep_State_pageFails | apply keep_atsPump
    | apply keep_State_tlbInsert | apply keep_State_modXlt | apply keep_State_bump | apply Held_ite
    | (apply Held_id; extract_lets -underBinder +onlyGivenNames y; first | (refine keep_cut (p := Held s y) ?_ fun _ => ?_; unfold y; clear y; rotate_left; clear_value y) | clear_value y)
    | (simp -zeta -beta -iota -proj only [Held_mk]) | apply Held_of | split | split at e | (dsimp only)

theorem held_execPageRequestResponse {id : Nat} {r : PriReply} {s : State} {u : State} (e : execPageRequestResponse id r s = .next u)
    (hs : Sane s) : Held s u := by
  have h0 := Held.self hs
  unfold execPageRequestResponse at e
  repeat' with_reducible first
    | assumption | (refine ran_held e ?_; clear e) | intro _ | apply keep_State_priNext | apply keep_State_priFails
    | apply keep_State_retryAccs | apply keep_State_wake | apply keep_State_atsAsk | apply keep_State_modXlt
    | (apply Held_id; extract_lets -underBinder +onlyGivenNames y; first | (refine keep_cut (p := Held s y) ?_ fun _ => ?_; unfold y; clear y; rotate_left; clear_value y) | clear_value y)
    | (simp -zeta -beta -iota -proj only [Held_mk]) | apply Held_of | apply Held_foldl | split | split at e
    | (dsimp only)

theorem held_execPageRequestTimeout {id : Nat} {s : State} {u : State} (e : execPageRequestTimeout id s = .next u)
    (hs : Sane s) : Held s u := by
  have h0 := Held.self hs
  unfold execPageRequestTimeout at e
  repeat' with_reducible first
    | assumption | (refine came_held e ?_; clear e) | intro _ | apply keep_State_priNext
    | apply keep_State_priFails | apply keep_State_due | apply keep_State_bump
    | (apply Held_id; extract_lets -underBinder +onlyGivenNames y; first | (refine keep_cut (p := Held s y) ?_ fun _ => ?_; unfold y; clear y; rotate_left; clear_value y) | clear_value y)
    | split | split at e | (dsimp only)

theorem held_execAtsInvalidation {pasid : Nat} {addr : Nat} {size : Nat} {s : State} {u : State} (e : execAtsInvalidation pasid addr size s = .next u)
    (hs : Sane s) : Held s u := by
  have h0 := Held.self hs
  unfold execAtsInvalidation at e
  repeat' with_reducible first
    | assumption | (refine ran_held e ?_; clear e) | intro _ | apply keep_State_retryAccs | apply keep_State_wake
    | apply keep_State_modXlt | apply keep_State_emit | apply keep_State_bump | apply Held_ite
    | (apply Held_id; extract_lets -underBinder +onlyGivenNames y; first | (refine keep_cut (p := Held s y) ?_ fun _ => ?_; unfold y; clear y; rotate_left; clear_value y) | clear_value y)
    | (simp -zeta -beta -iota -proj only [Held_mk]) | apply Held_of | split | split at e | (dsimp only)

theorem held_execPriEnableChange {ats : Bool} {pri : Bool} {s : State} {u : State} (e : execPriEnableChange ats pri s = .next u)
    (hs : Sane s) : Held s u := by
  have h0 := Held.self hs
  unfold execPriEnableChange at e
  repeat' with_reducible first
    | assumption | (refine ran_held e ?_; clear e) | intro _ | apply keep_State_retryAccs | apply keep_State_wake
    | apply keep_State_modXlt | (simp -zeta -beta -iota -proj only [Held_mk]) | apply Held_of | split
    | (dsimp only)

theorem held_execHotWindowEnd {s : State} {u : State} (e : execHotWindowEnd s = .next u) (hs : Sane s) : Held s u := by
  have h0 := Held.self hs
  unfold execHotWindowEnd at e
  repeat' with_reducible first
    | assumption | (refine ran_held e ?_; clear e) | intro _ | apply keep_State_hotRecord
    | apply keep_State_sendMsix | apply keep_State_modXlt | apply Held_ite
    | (apply Held_id; extract_lets -underBinder +onlyGivenNames y; first | (refine keep_cut (p := Held s y) ?_ fun _ => ?_; unfold y; clear y; rotate_left; clear_value y) | clear_value y)
    | refine Held_fst (by assumption) ?_ | (simp -zeta -beta -iota -proj only [Held_mk]) | apply Held_of
    | apply Held_foldl | apply Held_foldl1 | split | split at e | (dsimp only)

theorem held_execHostLinkDown {s : State} {u : State} (e : execHostLinkDown s = .next u) (hs : Sane s) : Held s u := by
  have h0 := Held.self hs
  unfold execHostLinkDown at e
  repeat' with_reducible first
    | assumption | (refine ran_held e ?_; clear e) | intro _ | apply keep_State_cutOff | apply keep_State_wake
    | apply keep_State_endMq | apply keep_State_modConc | apply keep_State_modXlt | apply keep_State_raise
    | apply keep_State_bump | apply Held_ite
    | (apply Held_id; extract_lets -underBinder +onlyGivenNames y; first | (refine keep_cut (p := Held s y) ?_ fun _ => ?_; unfold y; clear y; rotate_left; clear_value y) | clear_value y)
    | (simp -zeta -beta -iota -proj only [Held_mk]) | apply Held_of | apply Held_foldl | split | split at e
    | (dsimp only)

theorem held_execHostLinkUp {s : State} {u : State} (e : execHostLinkUp s = .next u) (hs : Sane s) : Held s u := by
  have h0 := Held.self hs
  unfold execHostLinkUp at e
  repeat' with_reducible first
    | assumption | (refine ran_held e ?_; clear e) | intro _ | apply keep_State_wake | apply keep_State_kickAll
    | apply keep_State_modXlt | apply Held_ite
    | (apply Held_id; extract_lets -underBinder +onlyGivenNames y; first | (refine keep_cut (p := Held s y) ?_ fun _ => ?_; unfold y; clear y; rotate_left; clear_value y) | clear_value y)
    | (simp -zeta -beta -iota -proj only [Held_mk]) | apply Held_of | split | split at e | (dsimp only)

theorem sane_execHostLossReset {s : State} {u : State} (e : execHostLossReset s = .next u) (hs : Sane s) : Sane u := by
  unfold execHostLossReset at e
  repeat' with_reducible first
    | assumption | (refine came_sane e ?_; clear e) | intro _ | apply keep_State_warmStart
    | refine Sane_by (fun k => keep_State_due k) ?_ | apply Sane_ite | split | split at e | (dsimp only)

theorem held_execGather {f : Frame} {ecc : Ecc} {s : State} {u : State} (e : execGather f ecc s = .next u)
    (hs : Sane s) : Held s u := by
  have h0 := Held.self hs
  unfold execGather at e
  repeat' with_reducible first
    | assumption | (refine ran_held e ?_; clear e) | intro _ | apply keep_State_arrival
    | apply keep_State_gatherArrive
    | (apply Held_id; extract_lets -underBinder +onlyGivenNames y; first | (refine keep_cut (p := Held s y) ?_ fun _ => ?_; unfold y; clear y; rotate_left; clear_value y) | clear_value y)
    | (simp -zeta -beta -iota -proj only [Held_mk]) | apply Held_of | split | (dsimp only)

theorem held_execReply {f : Frame} {s : State} {u : State} (e : execReply f s = .next u) (hs : Sane s) : Held s u := by
  have h0 := Held.self hs
  unfold execReply at e
  repeat' with_reducible first
    | assumption | (refine ran_held e ?_; clear e) | intro _ | apply keep_State_replyTake
    | apply keep_State_answerArrival
    | (apply Held_id; extract_lets -underBinder +onlyGivenNames y; first | (refine keep_cut (p := Held s y) ?_ fun _ => ?_; unfold y; clear y; rotate_left; clear_value y) | clear_value y)
    | (simp -zeta -beta -iota -proj only [Held_mk]) | apply Held_of | split | (dsimp only)

theorem held_execNack {f : Frame} {s : State} {u : State} (e : execNack f s = .next u) (hs : Sane s) : Held s u := by
  have h0 := Held.self hs
  unfold execNack at e
  repeat' with_reducible first
    | assumption | (refine ran_held e ?_; clear e) | intro _ | apply keep_State_nackArrive
    | apply keep_State_answerArrival
    | (apply Held_id; extract_lets -underBinder +onlyGivenNames y; first | (refine keep_cut (p := Held s y) ?_ fun _ => ?_; unfold y; clear y; rotate_left; clear_value y) | clear_value y)
    | (simp -zeta -beta -iota -proj only [Held_mk]) | apply Held_of | split | (dsimp only)

theorem held_execUpdate {f : Frame} {s : State} {u : State} (e : execUpdate f s = .next u)
    (hs : Sane s) : Held s u := by
  have h0 := Held.self hs
  unfold execUpdate at e
  repeat' with_reducible first
    | assumption | (refine ran_held e ?_; clear e) | intro _ | apply keep_State_arrival | apply keep_State_updCheck
    | (apply Held_id; extract_lets -underBinder +onlyGivenNames y; first | (refine keep_cut (p := Held s y) ?_ fun _ => ?_; unfold y; clear y; rotate_left; clear_value y) | clear_value y)
    | (simp -zeta -beta -iota -proj only [Held_mk]) | apply Held_of | split | (dsimp only)

theorem held_execUpdateAck {f : Frame} {s : State} {u : State} (e : execUpdateAck f s = .next u)
    (hs : Sane s) : Held s u := by
  have h0 := Held.self hs
  unfold execUpdateAck at e
  repeat' with_reducible first
    | assumption | (refine ran_held e ?_; clear e) | intro _ | apply keep_State_answerArrival
    | apply keep_State_updAckArrive
    | (apply Held_id; extract_lets -underBinder +onlyGivenNames y; first | (refine keep_cut (p := Held s y) ?_ fun _ => ?_; unfold y; clear y; rotate_left; clear_value y) | clear_value y)
    | (simp -zeta -beta -iota -proj only [Held_mk]) | apply Held_of | split | (dsimp only)

theorem held_execMigStart {f : Frame} {s : State} {u : State} (e : execMigStart f s = .next u)
    (hs : Sane s) : Held s u := by
  have h0 := Held.self hs
  unfold execMigStart at e
  repeat' with_reducible first
    | assumption | (refine ran_held e ?_; clear e) | intro _ | apply keep_State_arrival
    | apply keep_State_migStartArrive
    | (apply Held_id; extract_lets -underBinder +onlyGivenNames y; first | (refine keep_cut (p := Held s y) ?_ fun _ => ?_; unfold y; clear y; rotate_left; clear_value y) | clear_value y)
    | (simp -zeta -beta -iota -proj only [Held_mk]) | apply Held_of | split | (dsimp only)

theorem held_execMigData {f : Frame} {s : State} {u : State} (e : execMigData f s = .next u)
    (hs : Sane s) : Held s u := by
  have h0 := Held.self hs
  unfold execMigData at e
  repeat' with_reducible first
    | assumption | (refine ran_held e ?_; clear e) | intro _ | apply keep_State_arrival
    | apply keep_State_migDataArrive
    | (apply Held_id; extract_lets -underBinder +onlyGivenNames y; first | (refine keep_cut (p := Held s y) ?_ fun _ => ?_; unfold y; clear y; rotate_left; clear_value y) | clear_value y)
    | (simp -zeta -beta -iota -proj only [Held_mk]) | apply Held_of | split | (dsimp only)

theorem held_execMigAck {f : Frame} {s : State} {u : State} (e : execMigAck f s = .next u)
    (hs : Sane s) : Held s u := by
  have h0 := Held.self hs
  unfold execMigAck at e
  repeat' with_reducible first
    | assumption | (refine ran_held e ?_; clear e) | intro _ | apply keep_State_answerArrival
    | apply keep_State_migAckArrive
    | (apply Held_id; extract_lets -underBinder +onlyGivenNames y; first | (refine keep_cut (p := Held s y) ?_ fun _ => ?_; unfold y; clear y; rotate_left; clear_value y) | clear_value y)
    | (simp -zeta -beta -iota -proj only [Held_mk]) | apply Held_of | split | (dsimp only)

theorem held_execMigDone {f : Frame} {s : State} {u : State} (e : execMigDone f s = .next u)
    (hs : Sane s) : Held s u := by
  have h0 := Held.self hs
  unfold execMigDone at e
  repeat' with_reducible first
    | assumption | (refine ran_held e ?_; clear e) | intro _ | apply keep_State_answerArrival
    | apply keep_State_migDoneArrive
    | (apply Held_id; extract_lets -underBinder +onlyGivenNames y; first | (refine keep_cut (p := Held s y) ?_ fun _ => ?_; unfold y; clear y; rotate_left; clear_value y) | clear_value y)
    | (simp -zeta -beta -iota -proj only [Held_mk]) | apply Held_of | split | (dsimp only)

theorem held_execHallRead {f : Frame} {ecc : Ecc} {s : State} {u : State} (e : execHallRead f ecc s = .next u)
    (hs : Sane s) : Held s u := by
  have h0 := Held.self hs
  unfold execHallRead at e
  repeat' with_reducible first
    | assumption | (refine ran_held e ?_; clear e) | intro _ | apply keep_State_arrival
    | apply keep_State_hallArrive
    | (apply Held_id; extract_lets -underBinder +onlyGivenNames y; first | (refine keep_cut (p := Held s y) ?_ fun _ => ?_; unfold y; clear y; rotate_left; clear_value y) | clear_value y)
    | (simp -zeta -beta -iota -proj only [Held_mk]) | apply Held_of | split | (dsimp only)

theorem held_execHallWrite {f : Frame} {s : State} {u : State} (e : execHallWrite f s = .next u)
    (hs : Sane s) : Held s u := by
  have h0 := Held.self hs
  unfold execHallWrite at e
  repeat' with_reducible first
    | assumption | (refine ran_held e ?_; clear e) | intro _ | apply keep_State_arrival
    | apply keep_State_hallArrive
    | (apply Held_id; extract_lets -underBinder +onlyGivenNames y; first | (refine keep_cut (p := Held s y) ?_ fun _ => ?_; unfold y; clear y; rotate_left; clear_value y) | clear_value y)
    | (simp -zeta -beta -iota -proj only [Held_mk]) | apply Held_of | split | (dsimp only)

theorem held_execHallAck {f : Frame} {s : State} {u : State} (e : execHallAck f s = .next u)
    (hs : Sane s) : Held s u := by
  have h0 := Held.self hs
  unfold execHallAck at e
  repeat' with_reducible first
    | assumption | (refine ran_held e ?_; clear e) | intro _ | apply keep_State_answerArrival
    | apply keep_State_hallAckArrive
    | (apply Held_id; extract_lets -underBinder +onlyGivenNames y; first | (refine keep_cut (p := Held s y) ?_ fun _ => ?_; unfold y; clear y; rotate_left; clear_value y) | clear_value y)
    | (simp -zeta -beta -iota -proj only [Held_mk]) | apply Held_of | split | (dsimp only)

theorem held_execTransitFrame {f : Frame} {waitNs : Nat} {badCrc : Option Nat} {s : State} {u : State} (e : execTransitFrame f waitNs badCrc s = .next u)
    (hs : Sane s) : Held s u := by
  have h0 := Held.self hs
  unfold execTransitFrame at e
  repeat' with_reducible first
    | assumption | (refine ran_held e ?_; clear e) | intro _ | apply keep_State_transit | apply keep_State_bump
    | apply Held_ite | split | split at e | (dsimp only)

theorem held_execLinkAck {port : Nat} {count : Nat} {s : State} {u : State} (e : execLinkAck port count s = .next u)
    (hs : Sane s) : Held s u := by
  have h0 := Held.self hs
  unfold execLinkAck at e
  repeat' with_reducible first
    | assumption | (refine ran_held e ?_; clear e) | intro _ | apply keep_State_sendHeld | apply keep_State_modPort
    | apply Held_ite
    | (apply Held_id; extract_lets -underBinder +onlyGivenNames y; first | (refine keep_cut (p := Held s y) ?_ fun _ => ?_; unfold y; clear y; rotate_left; clear_value y) | clear_value y)
    | (simp -zeta -beta -iota -proj only [Held_mk]) | apply Held_of | split | split at e | (dsimp only)

theorem held_execLinkRetransmit {port : Nat} {s : State} {u : State} (e : execLinkRetransmit port s = .next u)
    (hs : Sane s) : Held s u := by
  have h0 := Held.self hs
  unfold execLinkRetransmit at e
  repeat' with_reducible first
    | assumption | (refine came_held e ?_; clear e) | intro _ | apply keep_State_linkDown | apply keep_State_wake
    | apply keep_State_modPort | apply keep_State_due | apply keep_State_emit | apply keep_State_bump
    | apply Held_ite
    | (apply Held_id; extract_lets -underBinder +onlyGivenNames y; first | (refine keep_cut (p := Held s y) ?_ fun _ => ?_; unfold y; clear y; rotate_left; clear_value y) | clear_value y)
    | (simp -zeta -beta -iota -proj only [Held_mk]) | apply Held_of | split | split at e | (dsimp only)

theorem held_execLossOfLight {port : Nat} {s : State} {u : State} (e : execLossOfLight port s = .next u)
    (hs : Sane s) : Held s u := by
  have h0 := Held.self hs
  unfold execLossOfLight at e
  repeat' with_reducible first
    | assumption | (refine ran_held e ?_; clear e) | intro _ | apply keep_State_linkDown | apply keep_State_wake
    | apply keep_State_modPort | apply Held_ite | (simp -zeta -beta -iota -proj only [Held_mk]) | apply Held_of
    | split | split at e | (dsimp only)

theorem held_execLinkUp {port : Nat} {s : State} {u : State} (e : execLinkUp port s = .next u)
    (hs : Sane s) : Held s u := by
  have h0 := Held.self hs
  unfold execLinkUp at e
  repeat' with_reducible first
    | assumption | (refine ran_held e ?_; clear e) | intro _ | apply keep_State_wake | apply keep_State_modPort
    | apply Held_ite
    | (apply Held_id; extract_lets -underBinder +onlyGivenNames y; first | (refine keep_cut (p := Held s y) ?_ fun _ => ?_; unfold y; clear y; rotate_left; clear_value y) | clear_value y)
    | (simp -zeta -beta -iota -proj only [Held_mk]) | apply Held_of | split | split at e | (dsimp only)

theorem held_execPrimaryRouteRestore {port : Nat} {s : State} {u : State} (e : execPrimaryRouteRestore port s = .next u)
    (hs : Sane s) : Held s u := by
  have h0 := Held.self hs
  unfold execPrimaryRouteRestore at e
  repeat' with_reducible first
    | assumption | (refine came_held e ?_; clear e) | intro _ | apply keep_State_modPort | apply keep_State_due
    | apply Held_ite
    | (apply Held_id; extract_lets -underBinder +onlyGivenNames y; first | (refine keep_cut (p := Held s y) ?_ fun _ => ?_; unfold y; clear y; rotate_left; clear_value y) | clear_value y)
    | (simp -zeta -beta -iota -proj only [Held_mk]) | apply Held_of | split | split at e | (dsimp only)

theorem held_execZpPortEnable {_path : Path} {s : State} {u : State} (e : execZpPortEnable _path s = .next u)
    (hs : Sane s) : Held s u := by
  have h0 := Held.self hs
  unfold execZpPortEnable at e
  repeat' with_reducible first
    | assumption | (refine ran_held e ?_; clear e) | intro _ | apply keep_State_portCtl | split | (dsimp only)

theorem held_execZpPortDisable {_path : Path} {s : State} {u : State} (e : execZpPortDisable _path s = .next u)
    (hs : Sane s) : Held s u := by
  have h0 := Held.self hs
  unfold execZpPortDisable at e
  repeat' with_reducible first
    | assumption | (refine ran_held e ?_; clear e) | intro _ | apply keep_State_portCtl | split | (dsimp only)

theorem held_execZpRouteWrite {_path : Path} {w : Word} {s : State} {u : State} (e : execZpRouteWrite _path w s = .next u)
    (hs : Sane s) : Held s u := by
  have h0 := Held.self hs
  unfold execZpRouteWrite at e
  repeat' with_reducible first
    | assumption | (refine ran_held e ?_; clear e) | intro _ | apply keep_State_routeWrite | split | (dsimp only)

theorem held_execSlotHeldExpire {slot : Nat} {s : State} {u : State} (e : execSlotHeldExpire slot s = .next u)
    (hs : Sane s) : Held s u := by
  have h0 := Held.self hs
  unfold execSlotHeldExpire at e
  repeat' with_reducible first
    | assumption | (refine came_held e ?_; clear e) | intro _ | apply keep_State_wake | apply keep_State_freeSlot
    | apply keep_State_due | split | split at e | (dsimp only)

theorem held_execKiteTimeout {slot : Nat} {s : State} {u : State} (e : execKiteTimeout slot s = .next u)
    (hs : Sane s) : Held s u := by
  have h0 := Held.self hs
  unfold execKiteTimeout at e
  repeat' with_reducible first
    | assumption | (refine came_held e ?_; clear e) | intro _ | apply keep_State_wake | apply keep_State_kiteEnds
    | apply keep_State_quarSlot | apply keep_State_due | apply keep_State_bump | split | split at e | (dsimp only)

theorem held_execQuarantineEnd {slot : Nat} {s : State} {u : State} (e : execQuarantineEnd slot s = .next u)
    (hs : Sane s) : Held s u := by
  have h0 := Held.self hs
  unfold execQuarantineEnd at e
  repeat' with_reducible first
    | assumption | (refine came_held e ?_; clear e) | intro _ | apply keep_State_wake | apply keep_State_freeSlot
    | apply keep_State_modKite | apply keep_State_due | (simp -zeta -beta -iota -proj only [Held_mk])
    | apply Held_of | split | split at e | (dsimp only)

theorem held_execKiteAbandon {id : Nat} {s : State} {u : State} (e : execKiteAbandon id s = .next u)
    (hs : Sane s) : Held s u := by
  have h0 := Held.self hs
  unfold execKiteAbandon at e
  repeat' with_reducible first
    | assumption | (refine came_held e ?_; clear e) | intro _ | apply keep_State_wake | apply keep_State_abandon
    | apply keep_State_due | apply Held_ite | split | split at e | (dsimp only)

theorem held_execCreditBackoffEnd {home : Nat} {s : State} {u : State} (e : execCreditBackoffEnd home s = .next u)
    (hs : Sane s) : Held s u := by
  have h0 := Held.self hs
  unfold execCreditBackoffEnd at e
  repeat' with_reducible first
    | assumption | (refine ran_held e ?_; clear e) | intro _ | apply keep_State_wake | apply keep_State_backoffEnd
    | split | (dsimp only)

theorem held_execAdderTake {s : State} {u : State} (e : execAdderTake s = .next u) (hs : Sane s) : Held s u := by
  have h0 := Held.self hs
  unfold execAdderTake at e
  repeat' with_reducible first
    | assumption | (refine ran_held e ?_; clear e) | intro _ | apply keep_State_noteInbox | apply keep_State_wake
    | apply keep_State_adderTakeOne | apply Held_ite | split | split at e | (dsimp only)

theorem held_execCombineFlush {line : Nat} {ecc : Ecc} {s : State} {u : State} (e : execCombineFlush line ecc s = .next u)
    (hs : Sane s) : Held s u := by
  have h0 := Held.self hs
  unfold execCombineFlush at e
  repeat' with_reducible first
    | assumption | (refine ran_held e ?_; clear e) | intro _ | apply keep_State_wake | apply keep_State_combFlush
    | split | (dsimp only)

theorem held_execUpdateApplied {id : Nat} {s : State} {u : State} (e : execUpdateApplied id s = .next u)
    (hs : Sane s) : Held s u := by
  have h0 := Held.self hs
  unfold execUpdateApplied at e
  repeat' with_reducible first
    | assumption | (refine ran_held e ?_; clear e) | intro _ | apply keep_State_wake | apply keep_State_updAnswer
    | split | (dsimp only)

theorem held_execInboxTakeupExpire {s : State} {u : State} (e : execInboxTakeupExpire s = .next u)
    (hs : Sane s) : Held s u := by
  have h0 := Held.self hs
  unfold execInboxTakeupExpire at e
  repeat' with_reducible first
    | assumption | (refine came_held e ?_; clear e) | intro _ | apply keep_State_noteInbox | apply keep_State_wake
    | apply keep_State_inboxExpire | apply keep_State_due | split | split at e | (dsimp only)

theorem held_execLedgerExpire {s : State} {u : State} (e : execLedgerExpire s = .next u) (hs : Sane s) : Held s u := by
  have h0 := Held.self hs
  unfold execLedgerExpire at e
  repeat' with_reducible first
    | assumption | (refine came_held e ?_; clear e) | intro _ | apply keep_State_ledgerSweep | apply keep_State_due
    | split | split at e | (dsimp only)

theorem held_execResetNackWindowEnd {s : State} {u : State} (e : execResetNackWindowEnd s = .next u)
    (hs : Sane s) : Held s u := by
  have h0 := Held.self hs
  unfold execResetNackWindowEnd at e
  repeat' with_reducible first
    | assumption | (refine came_held e ?_; clear e) | intro _ | apply keep_State_nackWindowEnd
    | apply keep_State_due | split | split at e | (dsimp only)

theorem held_execCpyChStop {stop : Bool} {s : State} {u : State} (e : execCpyChStop stop s = .next u)
    (hs : Sane s) : Held s u := by
  have h0 := Held.self hs
  unfold execCpyChStop at e
  repeat' with_reducible first
    | assumption | (refine ran_held e ?_; clear e) | intro _ | apply keep_State_wake | apply keep_State_setReg
    | apply Held_ite
    | (apply Held_id; extract_lets -underBinder +onlyGivenNames y; first | (refine keep_cut (p := Held s y) ?_ fun _ => ?_; unfold y; clear y; rotate_left; clear_value y) | clear_value y)
    | split | split at e | (dsimp only)

theorem held_execCpyHaltClear {s : State} {u : State} (e : execCpyHaltClear s = .next u) (hs : Sane s) : Held s u := by
  have h0 := Held.self hs
  unfold execCpyHaltClear at e
  repeat' with_reducible first
    | assumption | (refine ran_held e ?_; clear e) | intro _ | apply keep_State_wake | apply keep_State_modChan
    | apply Held_ite | (simp -zeta -beta -iota -proj only [Held_mk]) | apply Held_of | split | split at e
    | (dsimp only)

theorem held_execGalCe {gal : Nat} {s : State} {u : State} (e : execGalCe gal s = .next u)
    (hs : Sane s) : Held s u := by
  have h0 := Held.self hs
  unfold execGalCe at e
  repeat' with_reducible first
    | assumption | (refine ran_held e ?_; clear e) | intro _ | apply keep_State_galCorrected
    | apply keep_State_wake | apply Held_ite | split | split at e | (dsimp only)

theorem held_execGalError {gal : Nat} {det : Nat} {s : State} {u : State} (e : execGalError gal det s = .next u)
    (hs : Sane s) : Held s u := by
  have h0 := Held.self hs
  unfold execGalError at e
  repeat' with_reducible first
    | assumption | (refine ran_held e ?_; clear e) | intro _ | apply keep_State_galDetect | apply keep_State_wake
    | apply Held_ite | split | split at e | (dsimp only)

theorem held_execSpareTestDone {pass : Bool} {s : State} {u : State} (e : execSpareTestDone pass s = .next u)
    (hs : Sane s) : Held s u := by
  have h0 := Held.self hs
  unfold execSpareTestDone at e
  repeat' with_reducible first
    | assumption | (refine came_held e ?_; clear e) | intro _ | apply keep_State_wake | apply keep_State_fenceGal
    | apply keep_State_modErr | apply keep_State_due | apply Held_ite
    | (apply Held_id; extract_lets -underBinder +onlyGivenNames y; first | (refine keep_cut (p := Held s y) ?_ fun _ => ?_; unfold y; clear y; rotate_left; clear_value y) | clear_value y)
    | (simp -zeta -beta -iota -proj only [Held_mk]) | apply Held_of | split | split at e | (dsimp only)

theorem held_execErrInject {s : State} {u : State} (e : execErrInject s = .next u) (hs : Sane s) : Held s u := by
  have h0 := Held.self hs
  unfold execErrInject at e
  repeat' with_reducible first
    | assumption | (refine ran_held e ?_; clear e) | intro _ | apply keep_State_galCorrected
    | apply keep_State_galDetect | apply keep_State_wake | apply keep_State_modErr | apply keep_State_setReg
    | apply Held_ite
    | (apply Held_id; extract_lets -underBinder +onlyGivenNames y; first | (refine keep_cut (p := Held s y) ?_ fun _ => ?_; unfold y; clear y; rotate_left; clear_value y) | clear_value y)
    | (simp -zeta -beta -iota -proj only [Held_mk]) | apply Held_of | split | split at e | (dsimp only)

theorem held_execHourWindow {s : State} {u : State} (e : execHourWindow s = .next u) (hs : Sane s) : Held s u := by
  have h0 := Held.self hs
  unfold execHourWindow at e
  repeat' with_reducible first
    | assumption | (refine came_held e ?_; clear e) | intro _ | apply keep_State_modErr | apply keep_State_due
    | apply Held_ite
    | (apply Held_id; extract_lets -underBinder +onlyGivenNames y; first | (refine keep_cut (p := Held s y) ?_ fun _ => ?_; unfold y; clear y; rotate_left; clear_value y) | clear_value y)
    | (simp -zeta -beta -iota -proj only [Held_mk]) | refine Held_gals (Held_of ?_) (by simp [length_updAt]; done)
    | apply Held_of | split | split at e | (dsimp only)

theorem held_execFatal {which : Nat} {s : State} {u : State} (e : execFatal which s = .next u)
    (hs : Sane s) : Held s u := by
  have h0 := Held.self hs
  unfold execFatal at e
  repeat' with_reducible first
    | assumption | (refine ran_held e ?_; clear e) | intro _ | apply keep_State_wake | apply keep_State_forceDrain
    | apply keep_State_raise | apply Held_ite | split | split at e | (dsimp only)

theorem held_execErrDrainCmd {path : Path} {w : Word} {s : State} {u : State} (e : execErrDrainCmd path w s = .next u)
    (hs : Sane s) : Held s u := by
  have h0 := Held.self hs
  unfold execErrDrainCmd at e
  repeat' with_reducible first
    | assumption | (refine ran_held e ?_; clear e) | intro _ | apply keep_State_drainCmd | split | (dsimp only)

theorem held_execErrFenceCmd {path : Path} {w : Word} {s : State} {u : State} (e : execErrFenceCmd path w s = .next u)
    (hs : Sane s) : Held s u := by
  have h0 := Held.self hs
  unfold execErrFenceCmd at e
  repeat' with_reducible first
    | assumption | (refine ran_held e ?_; clear e) | intro _ | apply keep_State_fenceCmd | split | (dsimp only)

theorem held_execErrPendClear {_path : Path} {w : Word} {s : State} {u : State} (e : execErrPendClear _path w s = .next u)
    (hs : Sane s) : Held s u := by
  have h0 := Held.self hs
  unfold execErrPendClear at e
  repeat' with_reducible first
    | assumption | (refine ran_held e ?_; clear e) | intro _ | apply keep_State_pendClear | split | (dsimp only)

theorem held_execErrorRecord {s : State} {u : State} (e : execErrorRecord s = .next u) (hs : Sane s) : Held s u := by
  have h0 := Held.self hs
  unfold execErrorRecord at e
  repeat' with_reducible first
    | assumption | (refine ran_held e ?_; clear e) | intro _ | apply keep_State_modErr | apply keep_State_emit
    | apply Held_ite | (simp -zeta -beta -iota -proj only [Held_mk]) | apply Held_of | split | split at e
    | (dsimp only)

theorem held_execTelemetry {s : State} {u : State} (e : execTelemetry s = .next u) (hs : Sane s) : Held s u := by
  have h0 := Held.self hs
  unfold execTelemetry at e
  repeat' with_reducible first
    | assumption | (refine ran_held e ?_; clear e) | intro _ | apply keep_State_modConc | apply keep_State_draw
    | apply keep_State_emit | apply Held_ite
    | (apply Held_id; extract_lets -underBinder +onlyGivenNames y; first | (refine keep_cut (p := Held s y) ?_ fun _ => ?_; unfold y; clear y; rotate_left; clear_value y) | clear_value y)
    | (simp -zeta -beta -iota -proj only [Held_mk]) | apply Held_of | split | split at e | (dsimp only)

theorem held_execTelemetryWindow {s : State} {u : State} (e : execTelemetryWindow s = .next u)
    (hs : Sane s) : Held s u := by
  have h0 := Held.self hs
  unfold execTelemetryWindow at e
  repeat' with_reducible first
    | assumption | (refine ran_held e ?_; clear e) | intro _ | apply keep_State_modConc | apply Held_ite
    | (simp -zeta -beta -iota -proj only [Held_mk]) | apply Held_of | split | split at e | (dsimp only)

theorem sane_execRegisterWrite {off : Nat} {width : Nat} {val : Nat} {s : State} {u : State} (e : execRegisterWrite off width val s = .next u)
    (hs : Sane s) : Sane u := by
  unfold execRegisterWrite at e
  repeat' with_reducible first
    | assumption | (refine ran_sane e ?_; clear e) | intro _ | apply keep_State_barWrite | split | (dsimp only)

theorem sane_execLoWrite {off : Nat} {w : Word} {s : State} {u : State} (e : execLoWrite off w s = .next u)
    (hs : Sane s) : Sane u := by
  unfold execLoWrite at e
  repeat' with_reducible first
    | assumption | (refine ran_sane e ?_; clear e) | intro _ | apply keep_State_barWrite | split | (dsimp only)

theorem sane_execHiWrite {off : Nat} {w : Word} {s : State} {u : State} (e : execHiWrite off w s = .next u)
    (hs : Sane s) : Sane u := by
  unfold execHiWrite at e
  repeat' with_reducible first
    | assumption | (refine ran_sane e ?_; clear e) | intro _ | apply keep_State_barWrite | split | (dsimp only)

theorem sane_execFltLenAtHiWrite {w : Word} {s : State} {u : State} (e : execFltLenAtHiWrite w s = .next u)
    (hs : Sane s) : Sane u := by
  unfold execFltLenAtHiWrite at e
  repeat' with_reducible first
    | assumption | (refine ran_sane e ?_; clear e) | intro _ | apply keep_State_write32 | split | (dsimp only)

theorem sane_execLoRead {path : Path} {off : Nat} {s : State} {u : State} (e : execLoRead path off s = .next u)
    (hs : Sane s) : Sane u := by
  unfold execLoRead at e
  repeat' with_reducible first
    | assumption | (refine ran_sane e ?_; clear e) | intro _ | apply keep_State_read32
    | refine Sane_by (fun k => keep_State_emit k) ?_
    | (apply Sane_id; extract_lets -underBinder +onlyGivenNames y; first | (refine keep_cut (p := Sane y) ?_ fun _ => ?_; unfold y; clear y; rotate_left; clear_value y) | clear_value y)
    | refine Sane_fst (by assumption) ?_ | split | split at e | (dsimp only)

theorem sane_execRegRead {seq : Nat} {off : Nat} {s : State} {u : State} (e : execRegRead seq off s = .next u)
    (hs : Sane s) : Sane u := by
  unfold execRegRead at e
  repeat' with_reducible first
    | assumption | (refine ran_sane e ?_; clear e) | intro _ | refine Sane_by (fun k => keep_State_laneReply k) ?_
    | apply keep_State_read32 | apply Sane_ite
    | (apply Sane_id; extract_lets -underBinder +onlyGivenNames y; first | (refine keep_cut (p := Sane y) ?_ fun _ => ?_; unfold y; clear y; rotate_left; clear_value y) | clear_value y)
    | refine Sane_fst (by assumption) ?_ | (simp -zeta -beta -iota -proj only [Sane_mk]) | apply Sound_of | split
    | split at e | (dsimp only)

theorem sane_execLaneReadNoResponse {seq : Nat} {s : State} {u : State} (e : execLaneReadNoResponse seq s = .next u)
    (hs : Sane s) : Sane u := by
  unfold execLaneReadNoResponse at e
  repeat' with_reducible first
    | assumption | (refine ran_sane e ?_; clear e) | intro _ | refine Sane_by (fun k => keep_State_laneReply k) ?_
    | apply keep_State_read32 | apply Sane_ite
    | (apply Sane_id; extract_lets -underBinder +onlyGivenNames y; first | (refine keep_cut (p := Sane y) ?_ fun _ => ?_; unfold y; clear y; rotate_left; clear_value y) | clear_value y)
    | refine Sane_fst (by assumption) ?_ | (simp -zeta -beta -iota -proj only [Sane_mk]) | apply Sound_of | split
    | split at e | (dsimp only)

theorem sane_execRegWrite {seq : Nat} {off : Nat} {w : Word} {s : State} {u : State} (e : execRegWrite seq off w s = .next u)
    (hs : Sane s) : Sane u := by
  unfold execRegWrite at e
  repeat' with_reducible first
    | assumption | (refine ran_sane e ?_; clear e) | intro _ | refine Sane_by (fun k => keep_State_laneReply k) ?_
    | apply keep_State_write32 | apply Sane_ite | split | split at e | (dsimp only)

end Sys2Proof.Laws
end

