-- ==== Sys2Proof/Laws/Ops.lean ====
section
/-! SUPPORT. What the shared operations on registers, errors, control packets and the directory do, once each. -/
namespace Sys2Proof.Laws

open Sys2Proof Sys2Proof.Machine Sys2Proof.Config Sys2Proof.Safety

/-- A maximum taken twice. -/
theorem mm (a b : Nat) : max a (max a b) = max a b := by omega

/-- A meaning that takes no time goes on to what `kept` says. -/
theorem ran_eq (s t : State) : ran s t = .next (kept s t) := rfl

/-- A timed event goes on to what `keptAt` says. -/
theorem came_eq (s t : State) : came s t = .next (keptAt s t) := rfl

/-- A state keeps itself. -/
theorem kept_self (s : State) : kept s s = s := rfl

/-- A state keeps itself. -/
theorem keptAt_self (s : State) : keptAt s s = s := by simp [keptAt]

/-- A projection of a choice, where both choices have it. -/
theorem ite_proj {α β : Sort _} (f : α → β) {c : Prop} [Decidable c] {a b : α} {x : β} (ha : f a = x) (hb
    : f b = x) : f (if c then a else b) = x := by
  split <;> assumption

/-- A record to the host ring changes registers and what goes out, and nothing else. -/
theorem hostRecord_proj {β : Type} (f : State → β) (hf : ∀ s r o, f { s with regs := r, outs := o } = f s)
    (s : State) (c : Nat) (w : List Word) : f (s.hostRecord c w) = f s := by
  unfold State.hostRecord
  dsimp only
  refine ite_proj f rfl (ite_proj f (hf s _ s.outs) (ite_proj f (hf s _ _) (hf s _ _)))

/-- A record changes registers, what goes out and the error state, and nothing else. -/
theorem putRecord_proj {β : Type} (f : State → β) (hf : ∀ s r o e, f { s with regs := r, outs := o, err := e } = f s)
    (s : State) (e : Ev) (n : Nat) : f (s.putRecord e n) = f s := by
  unfold State.putRecord
  dsimp only
  rw [hostRecord_proj f (fun s r o => hf s r o s.err)]
  split
  · exact hf s _ s.outs _
  · exact hf s _ s.outs _

/-- An event changes registers, what goes out and the error state, and nothing else. -/
theorem raise_proj {β : Type} (f : State → β) (hf : ∀ s r o e, f { s with regs := r, outs := o, err := e } = f s)
    (s : State) (e : Ev) : f (s.raise e) = f s := by
  unfold State.raise
  refine ite_proj f ?_ (putRecord_proj f hf _ _ _)
  split
  · dsimp only
    refine ite_proj f (hf s _ s.outs _) ?_
    rw [putRecord_proj f hf]; exact hf s s.regs s.outs _
  · dsimp only; rw [putRecord_proj f hf]; exact hf s s.regs s.outs _

/-- An event takes no time. -/
theorem raise_now (s : State) (e : Ev) : (s.raise e).now = s.now := raise_proj State.now (fun _ _ _ _ => rfl) s e

/-- An event leaves boot alone. -/
theorem raise_boot (s : State) (e : Ev) : (s.raise e).boot = s.boot := raise_proj State.boot (fun _ _ _ _ => rfl) s e

/-- An event leaves the reset controller alone. -/
theorem raise_rst (s : State) (e : Ev) : (s.raise e).rst = s.rst := raise_proj State.rst (fun _ _ _ _ => rfl) s e

/-- A register written leaves every other one alone. -/
theorem reg_setReg_ne (s : State) (k j : Nat) (w : Word) (h : k ≠ j) : (s.setReg k w).reg j = s.reg j := by
  simp only [State.reg, State.setReg]
  split
  · rw [mapGet_mapDel_ne]; exact fun q => h q.symm
  · rw [mapGet_mapSet_ne]; exact fun q => h q.symm

/-- An event writes no register but its counts, the host ring's tail and ERR_PEND. -/
theorem raise_reg (s : State) (e : Ev) (j : Nat) (h : j ≠ Reg.ERR_HOST_SKIP_CNT) (h2 : j ≠ Reg.ERR_HOST_TAIL) (h3
    : j ≠ Reg.ERR_LANE_LOST_CNT) (h4 : j ≠ Reg.ERR_PEND) (h5 : j ≠ Reg.ERR_SUPPRESS_CNT) :
    (s.raise e).reg j = s.reg j := by
  have hh : ∀ (s : State) c w, (s.hostRecord c w).reg j = s.reg j := by
    intro s c w
    unfold State.hostRecord
    dsimp only
    refine ite_proj (fun s : State => s.reg j) rfl 
      (ite_proj (fun s : State => s.reg j) (reg_setReg_ne _ _ _ _ h.symm) (ite_proj (fun s : State => s.reg j) ?_ ?_))
    · exact reg_setReg_ne _ _ _ _ h2.symm
    · exact reg_setReg_ne _ _ _ _ h2.symm
  have hp : ∀ (s : State) e n, (s.putRecord e n).reg j = s.reg j := by
    intro s e n
    unfold State.putRecord
    dsimp only
    rw [hh, reg_setReg_ne _ _ _ _ h4.symm]
    split
    · exact reg_setReg_ne _ _ _ _ h3.symm
    · rfl
  unfold State.raise
  refine ite_proj (fun s : State => s.reg j) ?_ (hp _ _ _)
  split
  · dsimp only
    refine ite_proj (fun s : State => s.reg j) (reg_setReg_ne _ _ _ _ h5.symm) ?_
    rw [hp]; rfl
  · dsimp only; rw [hp]; rfl

/-- An event leaves the concourse alone. -/
theorem raise_conc (s : State) (e : Ev) : (s.raise e).conc = s.conc := raise_proj State.conc (fun _ _ _ _ => rfl) s e

/-- A register written leaves the error state alone. -/
theorem setReg_err (s : State) (k : Nat) (w : Word) : (s.setReg k w).err = s.err := rfl

/-- A record to the host ring leaves the error state alone. -/
theorem hostRec_err (s : State) (c : Nat) (w : List Word) : (s.hostRecord c w).err = s.err :=
  hostRecord_proj State.err (fun _ _ _ => rfl) s c w

/-- A record to the host ring writes two registers at most. -/
theorem hostRec_reg (s : State) (c : Nat) (w : List Word) (j : Nat) (h : j ≠ Reg.ERR_HOST_SKIP_CNT) (h2
    : j ≠ Reg.ERR_HOST_TAIL) :
    (s.hostRecord c w).reg j = s.reg j := by
  unfold State.hostRecord
  dsimp only
  refine ite_proj (fun s : State => s.reg j) rfl 
      (ite_proj (fun s : State => s.reg j) (reg_setReg_ne _ _ _ _ h.symm) (ite_proj (fun s : State => s.reg j) ?_ ?_))
  · exact reg_setReg_ne _ _ _ _ h2.symm
  · exact reg_setReg_ne _ _ _ _ h2.symm

/-- A record in the log (R585). -/
theorem put_err (s : State) (e : Ev) (n : Nat) :
    (s.putRecord e n).err.log = mapSet s.err.log (s.err.seq % 1024) (s.recordWords e n) ∧
    (s.putRecord e n).err.seq = s.err.seq + 1 ∧ (s.putRecord e n).err.supp = s.err.supp := by
  unfold State.putRecord
  dsimp only
  rw [hostRec_err]
  split <;> exact ⟨rfl, rfl, rfl⟩

/-- A record's class in ERR_PEND (R588). -/
theorem put_pend (s : State) (e : Ev) (n : Nat) (h : e.code < 256) :
    (s.putRecord e n).reg Reg.ERR_PEND = s.reg Reg.ERR_PEND ||| Word.ofNat (2 ^ (e.code / 16)) := by
  unfold State.putRecord
  dsimp only
  rw [hostRec_reg _ _ _ _ (by decide) (by decide)]
  have key : ∀ (t : State) (w : Word), w ≠ regReset Reg.ERR_PEND → (t.setReg Reg.ERR_PEND w).reg Reg.ERR_PEND = w := by
    intro t w hw; simp only [State.reg, State.setReg]; rw [if_neg hw, mapGet_mapSet_self]; rfl
  have z : ∀ v : Word, v ||| Word.ofNat (2 ^ (e.code / 16)) ≠ regReset Reg.ERR_PEND := by
    intro v q
    have r : regReset Reg.ERR_PEND = 0 := by decide
    rw [r] at q
    have hlt : e.code / 16 < 32 := by omega
    have hb : (v ||| Word.ofNat (2 ^ (e.code / 16))).getLsbD (e.code / 16) = true := by
      rw [BitVec.getLsbD_or]
      simp only [Word.ofNat, BitVec.getLsbD_ofNat, Nat.testBit_two_pow_self, hlt, decide_true, Bool.and_true, Bool.or_true]
    rw [q] at hb
    exact absurd hb (by simp)
  rw [key _ _ (z _)]
  congr 1
  split
  · exact reg_setReg_ne _ _ _ _ (by decide)
  · rfl

/-- The core executes a packet whose turn it is. -/
theorem turn_run {s : State} {op ns : Nat} {p : MqPkt} {u : State} (h : Turn s op p) (hu : u = s.mqTake p ns)
    (f : State → MqPkt → State) : s.mgRun op ns f = (f u p).wake := by
  obtain ⟨h1, h2, h3⟩ := h
  unfold State.mgRun
  rw [h1, h2, hu]; simp [h3]

/-- A control command in its turn. -/
theorem turn_go {s : State} {op ns : Nat} {p : MqPkt} {u : State} (h : Turn s op p) (hu : u = s.mqTake p ns)
    (f : State → MqPkt → State) {v : State} (e : f u p = v) : ran s (s.mgRun op ns f) = .next (kept s v.wake) := by
  rw [turn_run h hu, e]; rfl

/-- A control command on the directory in its turn. -/
theorem turn_dir {s : State} {op ns : Nat} {p : MqPkt} {u : State} (h : Turn s op p) (hu : u = s.mqTake p ns)
    (f : State → MqPkt → State) {v : State} (e : f u p = v) :
    ran s (s.dirRun op ns f) = .next (kept s (State.mirror s v.wake)) := by
  unfold State.dirRun; rw [turn_run h hu, e]; rfl

/-- A table that has not changed is not written. -/
theorem mirrorOne_same (s : State) (id : Nat) : State.mirrorOne s s id = s := by
  unfold State.mirrorOne
  split
  · next h => rw [h]; rfl
  · next h => dsimp only; rw [h, if_pos rfl]

/-- A directory that has not changed is not written. -/
theorem mirror_same (s : State) : State.mirror s s = s := by
  unfold State.mirror
  generalize (List.map (fun x => x.1) (s.dir.tables ++ s.dir.tables)).eraseDups = l
  suffices h : ∀ t : State, t = s → l.foldl (fun (t : State) id => State.mirrorOne s t id) t = s from h s rfl
  induction l with
  | nil => intro t h; exact h
  | cons a l ih => intro t h; rw [h]; exact ih _ (mirrorOne_same s a)

/-- Without firmware no packet is executed. -/
theorem mgRun_off {s : State} {op ns : Nat} (h : s.fwRuns = false) (f : State → MqPkt → State)
    : s.mgRun op ns f = s := by
  unfold State.mgRun; rw [h]; rfl

/-- Without a packet none is executed. -/
theorem mgRun_none {s : State} {op ns : Nat} (h : s.nextControl = none) (f : State → MqPkt → State)
    : s.mgRun op ns f = s := by
  unfold State.mgRun; rw [h]; dsimp only; split <;> rfl

/-- A packet of another opcode is not executed. -/
theorem mgRun_other {s : State} {op ns : Nat} {p : MqPkt} (h : s.nextControl = some p) (h2 : p.op ≠ op) (f
    : State → MqPkt → State) : s.mgRun op ns f = s := by
  unfold State.mgRun; rw [h]; dsimp only; rw [if_neg h2]; split <;> rfl

/-- A packet without a bad field has its effect. -/
theorem unless_none {s : State} {p : MqPkt} {bad : Option Ending} {good : State} (h : bad = none)
    : s.mgUnless p bad good = good := by subst h; rfl

end Sys2Proof.Laws
end

