-- ==== Sys2Proof/Laws/Packets.lean ====
section
/-! SUPPORT. How a packet reaches the concourse: words and their bytes, and what becomes of the packet a ring has in hand. -/
namespace Sys2Proof.Laws

open Sys2Proof Sys2Proof.Machine Sys2Proof.Config Sys2Proof.Safety

/-- A command that brings a datapath packet. -/
theorem data_exec {c : Instr} {op : Nat} {src : PktSrc} {pkt : List Word} (h : dataPkt c = some (op, src, pkt))
    (s : State) :
    exec c s = ran s (s.arrivePkt op src pkt) := by
  cases c <;> simp only [dataPkt, reduceCtorEq, Option.some.injEq, Prod.mk.injEq] at h <;>
    obtain ⟨rfl, rfl, rfl⟩ := h <;> rfl

/-- A command that brings a packet over the lane. -/
theorem lane_exec {c : Instr} {op q : Nat} {pkt : List Word} (h : lanePkt c = some (op, q, pkt)) (s : State) :
    exec c s = ran s ((s.laneArrive q (pktWords op pkt)).wake) := by
  unfold lanePkt at h
  split at h
  · cases h; rfl
  · split at h
    · next h2 => cases h; rw [data_exec h2]; rfl
    · cases h

/-- Bytes of words. -/
theorem flatMap_len (ws : List Word) : (wordsBytes ws).length = 4 * ws.length := by
  induction ws with
  | nil => rfl
  | cons w ws ih =>
    have : wordsBytes (w :: ws) = leBytes 4 w.toNat ++ wordsBytes ws := rfl
    rw [this, List.length_append, ih]; simp [leBytes]; omega

/-- Bytes of a word. -/
theorem leBytes4 (n : Nat) : (leBytes 4 n).length = 4 := rfl

/-- The bytes of one word among those of a list. -/
theorem words_at (ws : List Word) (i : Nat) (h : i < ws.length) : ((wordsBytes ws).drop
    (4 * i)).take 4 = leBytes 4 (ws[i]).toNat := by
  induction ws generalizing i with
  | nil => simp at h
  | cons w ws ih =>
    have e : wordsBytes (w :: ws) = leBytes 4 w.toNat ++ wordsBytes ws := rfl
    cases i with
    | zero => rw [e]; simp [leBytes]
    | succ i =>
      rw [e, show 4 * (i + 1) = (leBytes 4 w.toNat).length + 4 * i by rw [leBytes4]; omega, List.drop_length_add_append]
      simp at h
      simpa using ih i h

/-- A number read back from its bytes (R4). -/
theorem ofLe_leBytes (k n : Nat) : ofLe (leBytes k n) = n % 256 ^ k := by
  induction k generalizing n with
  | zero => simp [leBytes, ofLe, Nat.mod_one]
  | succ k ih =>
    simp only [leBytes, ofLe, ih, BitVec.toNat_ofNat]
    rw [show (256:Nat)^(k+1) = 256 * 256^k from Nat.pow_succ', Nat.mod_mul]

/-- A count is a range. -/
theorem upto_range (a n : Nat) : upto a n = List.range' a n := by
  induction n generalizing a with
  | zero => rfl
  | succ n ih => simp [upto, ih, List.range'_succ]

/-- Words read back from their bytes. -/
theorem bytesWords_wordsBytes (ws : List Word) : bytesWords (wordsBytes ws) ws.length = ws := by
  unfold bytesWords
  rw [upto_range]
  apply List.ext_getElem
  · simp
  · intro i h1 h2
    simp only [List.getElem_map, List.getElem_range', Nat.zero_add, Nat.one_mul]
    rw [words_at ws i h2, ofLe_leBytes]
    simp only [Word.ofNat]
    apply BitVec.eq_of_toNat_eq
    simp; omega

/-- A packet is as long as its LEN says. -/
theorem pktWords_len (op : Nat) (pkt : List Word) : (pktWords op pkt).length = 8 * max 1 (min 8
    ((pkt.getD 0 0).bits 19 16)) := by
  unfold pktWords; simp; omega

/-- A packet's opcode and LEN. -/
theorem pktWords_w0 (op : Nat) (pkt : List Word) (h : op < 65536) :
    (uw (pktWords op pkt) 1 0).bits 15 0 = op ∧ (uw (pktWords op pkt) 1 0).bits 19 16 =
    (pkt.getD 0 0).bits 19 16 := by
  have e : uw (pktWords op pkt) 1 0 = Word.ofNat (op + (pkt.getD 0 0).toNat / 65536 * 65536) := by
    unfold uw pktWords
    dsimp only
    rw [List.getD_eq_getElem?_getD, List.getElem?_take_of_lt (by omega)]; rfl
  rw [e]
  have := (pkt.getD 0 0).isLt
  constructor <;> simp [Word.bits, Word.ofNat, BitVec.toNat_ofNat] <;> omega

/-- A value changed under its key. -/
theorem mapGet_mapMod {α : Type} (m : SMap α) (k : Nat) (f : α → α) {v : α} (h : mapGet m k = some v) : mapGet
    (mapMod m k f) k = some (f v) := by
  induction m with
  | nil => simp [mapGet] at h
  | cons x m ih =>
    obtain ⟨a, b⟩ := x
    simp only [mapGet, mapMod] at h ⊢
    split at h
    · next e => cases h; simp [mapGet, e]
    · next e => simp [mapGet, e]; exact ih h

/-- A tail is as far ahead as it was set. -/
theorem sub32_add (h len : Nat) (hl : len ≤ 8) : sub32 ((h + len) % 2 ^ 32) h = len := by
  unfold sub32; omega

/-- One word read back from the bytes of words. -/
theorem bytesWords_getD (ws : List Word) (n i : Nat) (hi : i < n) (hn : n ≤ ws.length) : (bytesWords
    (wordsBytes ws) n).getD i 0 = ws.getD i 0 := by
  unfold bytesWords
  rw [upto_range, List.getD_eq_getElem?_getD, List.getD_eq_getElem?_getD]
  have h2 : i < ws.length := by omega
  rw [List.getElem?_eq_getElem (by simpa using hi), List.getElem?_eq_getElem h2]
  simp only [List.getElem_map, List.getElem_range', Nat.zero_add, Nat.one_mul, Option.getD_some]
  rw [words_at ws i h2, ofLe_leBytes]
  apply BitVec.eq_of_toNat_eq
  simp [Word.ofNat]; omega

/-- A state a is a state s in which a ring has the packet ws, of len units, in hand. -/
structure Found (s a : State) (n len : Nat) (ws : List Word) (r : CmdRing) : Prop where
  ring : s.ring n = some r
  may : s.mayRead n r = true
  wl : ws.length = 8 * len
  l1 : 1 ≤ len
  l8 : len ≤ 8
  ha : a = s.modCmd n (fun r => { r with tail := (r.head + len) % 2 ^ 32, buf := wordsBytes ws })

/-- The ring, its packet in hand. -/
theorem found_ring {s a n len ws r} (h : Found s a n len ws r) :
    a.ring n = 
      some { r with tail := (r.head + len) % 2 ^ 32, buf := wordsBytes ws } := by
  rw [h.ha]; exact mapGet_mapMod _ _ _ h.ring

/-- The ring can still be read. -/
theorem found_may {s a n len ws r} (h : Found s a n len ws r) :
    a.mayRead n { r with tail := (r.head + len) % 2 ^ 32, buf := wordsBytes ws } = true := by
  rw [← h.may, h.ha]; rfl

/-- What becomes of the packet that a ring has in hand (R109, R112, R113, R118, R126). -/
theorem found_take {s a n len ws r} (h : Found s a n len ws r) : takeUnits a n 1 =
    (if (uw ws 1 0).bits 19 16 = 0 ∨ (uw ws 1 0).bits 19 16 > 8 then
      a.haltRing n ((r.head + len) % 2 ^ 32) ((uw ws 1 0).bits 15 0) (uw ws 1 3).toNat
    else if (uw ws 1 0).bits 19 16 > len then a.readEnds n
    else if (wordsBytes ws).length < 32 * (uw ws 1 0).bits 19 16 then
      a.readMore n { r with tail := (r.head + len) % 2 ^ 32, buf := wordsBytes ws }
    else if s.ctxFull r.tenant then (a.modCmd n (fun r => { r with wait := .ctx })).readStops n
    else if ((mapGet s.conc.cpl r.cq).elim 0 CplRing.free) < 2 then a.waitCq r.cq
    else
      (State.takePkt ((a.modCpl r.cq (fun q => { q with reserved := q.reserved + 1 })).modCmd n (fun r => { r with
          head := (r.head + (uw ws 1 0).bits 19 16) % 2 ^ 32, buf := r.buf.drop (32 * (uw ws 1 0).bits 19 16) }))
        (.ring n) (some r.cq) r.head r.tenant (bytesWords (wordsBytes ws) (8 * (uw ws 1 0).bits 19 16))).readEnds n) := by
  unfold takeUnits
  rw [found_ring h]
  dsimp only
  rw [found_may h, sub32_add _ _ h.l8]
  have e : (bytesWords (wordsBytes ws) 8).getD 0 0 = uw ws 1 0 :=
    bytesWords_getD ws 8 0 (by omega) (by rw [h.wl]; have := h.l1; omega)
  have e3 : (bytesWords (wordsBytes ws) 8).getD 3 0 = uw ws 1 3 :=
    bytesWords_getD ws 8 3 (by omega) (by rw [h.wl]; have := h.l1; omega)
  rw [e, e3]
  have b : ¬ (wordsBytes ws).length < 32 := by rw [flatMap_len, h.wl]; have := h.l1; omega
  have c0 : ¬ len = 0 := by have := h.l1; omega
  rw [if_neg b, if_neg c0]
  have x : a.ctxFull r.tenant = s.ctxFull r.tenant := by rw [h.ha]; rfl
  have y : a.conc.cpl = s.conc.cpl := by rw [h.ha]; rfl
  rw [x, y]
  rfl

/-- LEN of a packet's words. -/
theorem lenOf_pkt (op : Nat) (pkt : List Word) (h : op < 65536) : lenOf (pktWords op pkt) = max 1 (min 8 ((uw
    (pktWords op pkt) 1 0).bits 19 16)) := by
  unfold lenOf; rw [pktWords_len, (pktWords_w0 op pkt h).2]; omega

/-- Opcodes have 16 bits. -/
theorem data_op {c : Instr} {op : Nat} {src : PktSrc} {pkt : List Word} (h : dataPkt c = some (op, src, pkt))
    : op < 65536 := by
  cases c <;> simp only [dataPkt, reduceCtorEq, Option.some.injEq, Prod.mk.injEq] at h <;> omega

/-- A datapath packet from a ring that takes one. -/
theorem ring_found {c : Instr} {op n : Nat} {pkt ws : List Word} (h : dataPkt c = some (op, .ring n, pkt)) (hw
    : ws = pktWords op pkt)
    (s a : State) (r : CmdRing) (h1 : s.ring n = some r) (h2 : s.mayRead n r = true) (h3 : s.ringBusy n = false)
    (ha : a = s.modCmd n (fun r => { r with tail := (r.head + lenOf ws) % 2 ^ 32, buf := wordsBytes ws })) :
    exec c s = .next (kept s ((takeUnits a n 1).wake)) ∧ Found s a n (lenOf ws) ws r := by
  constructor
  · rw [data_exec h]; unfold State.arrivePkt; dsimp only; rw [← hw]; unfold State.ringArrive
    rw [h1]; simp only [h2, h3, Bool.not_true, Bool.or_self, Bool.false_eq_true, if_false]; rw [ha]; rfl
  · refine ⟨h1, h2, ?_, ?_, ?_, ha⟩ <;> rw [hw]
    · rw [lenOf_pkt _ _ (data_op h), pktWords_len, (pktWords_w0 _ _ (data_op h)).2]
    · rw [lenOf_pkt _ _ (data_op h)]; omega
    · rw [lenOf_pkt _ _ (data_op h)]; omega

end Sys2Proof.Laws
end

