-- ==== Sys2Proof/Laws/State.lean ====
section
/-! SUPPORT. Every field after every update of one part of the state. -/
namespace Sys2Proof.Laws

open Sys2Proof Sys2Proof.Machine Sys2Proof.Config

/-! ### modErr -/

@[simp] theorem State.modErr_now (s : State) (f : Err → Err) : (s.modErr f).now = s.now := rfl
@[simp] theorem State.modErr_active (s : State) (f : Err → Err) : (s.modErr f).active = s.active := rfl
@[simp] theorem State.modErr_regs (s : State) (f : Err → Err) : (s.modErr f).regs = s.regs := rfl
@[simp] theorem State.modErr_latch (s : State) (f : Err → Err) : (s.modErr f).latch = s.latch := rfl
@[simp] theorem State.modErr_heldLo (s : State) (f : Err → Err) : (s.modErr f).heldLo = s.heldLo := rfl
@[simp] theorem State.modErr_hall (s : State) (f : Err → Err) : (s.modErr f).hall = s.hall := rfl
@[simp] theorem State.modErr_flt (s : State) (f : Err → Err) : (s.modErr f).flt = s.flt := rfl
@[simp] theorem State.modErr_conc (s : State) (f : Err → Err) : (s.modErr f).conc = s.conc := rfl
@[simp] theorem State.modErr_dir (s : State) (f : Err → Err) : (s.modErr f).dir = s.dir := rfl
@[simp] theorem State.modErr_gals (s : State) (f : Err → Err) : (s.modErr f).gals = s.gals := rfl
@[simp] theorem State.modErr_tiles (s : State) (f : Err → Err) : (s.modErr f).tiles = s.tiles := rfl
@[simp] theorem State.modErr_rc (s : State) (f : Err → Err) : (s.modErr f).rc = s.rc := rfl
@[simp] theorem State.modErr_stw (s : State) (f : Err → Err) : (s.modErr f).stw = s.stw := rfl
@[simp] theorem State.modErr_kite (s : State) (f : Err → Err) : (s.modErr f).kite = s.kite := rfl
@[simp] theorem State.modErr_zp (s : State) (f : Err → Err) : (s.modErr f).zp = s.zp := rfl
@[simp] theorem State.modErr_xlt (s : State) (f : Err → Err) : (s.modErr f).xlt = s.xlt := rfl
@[simp] theorem State.modErr_cpy (s : State) (f : Err → Err) : (s.modErr f).cpy = s.cpy := rfl
@[simp] theorem State.modErr_rst (s : State) (f : Err → Err) : (s.modErr f).rst = s.rst := rfl
@[simp] theorem State.modErr_pins (s : State) (f : Err → Err) : (s.modErr f).pins = s.pins := rfl
@[simp] theorem State.modErr_pres (s : State) (f : Err → Err) : (s.modErr f).pres = s.pres := rfl
@[simp] theorem State.modErr_bk (s : State) (f : Err → Err) : (s.modErr f).bk = s.bk := rfl
@[simp] theorem State.modErr_ps (s : State) (f : Err → Err) : (s.modErr f).ps = s.ps := rfl
@[simp] theorem State.modErr_boot (s : State) (f : Err → Err) : (s.modErr f).boot = s.boot := rfl
@[simp] theorem State.modErr_selftest (s : State) (f : Err → Err) : (s.modErr f).selftest = s.selftest := rfl
@[simp] theorem State.modErr_err (s : State) (f : Err → Err) : (s.modErr f).err = f s.err := rfl
@[simp] theorem State.modErr_laneReqs (s : State) (f : Err → Err) : (s.modErr f).laneReqs = s.laneReqs := rfl
@[simp] theorem State.modErr_outs (s : State) (f : Err → Err) : (s.modErr f).outs = s.outs := rfl
@[simp] theorem State.modErr_freeSeq (s : State) (f : Err → Err) : (s.modErr f).freeSeq = s.freeSeq := rfl
@[simp] theorem State.modErr_pending (s : State) (f : Err → Err) : (s.modErr f).pending = s.pending := rfl

/-! ### modFlt -/

@[simp] theorem State.modFlt_now (s : State) (f : Flight → Flight) : (s.modFlt f).now = s.now := rfl
@[simp] theorem State.modFlt_active (s : State) (f : Flight → Flight) : (s.modFlt f).active = s.active := rfl
@[simp] theorem State.modFlt_regs (s : State) (f : Flight → Flight) : (s.modFlt f).regs = s.regs := rfl
@[simp] theorem State.modFlt_latch (s : State) (f : Flight → Flight) : (s.modFlt f).latch = s.latch := rfl
@[simp] theorem State.modFlt_heldLo (s : State) (f : Flight → Flight) : (s.modFlt f).heldLo = s.heldLo := rfl
@[simp] theorem State.modFlt_hall (s : State) (f : Flight → Flight) : (s.modFlt f).hall = s.hall := rfl
@[simp] theorem State.modFlt_flt (s : State) (f : Flight → Flight) : (s.modFlt f).flt = f s.flt := rfl
@[simp] theorem State.modFlt_conc (s : State) (f : Flight → Flight) : (s.modFlt f).conc = s.conc := rfl
@[simp] theorem State.modFlt_dir (s : State) (f : Flight → Flight) : (s.modFlt f).dir = s.dir := rfl
@[simp] theorem State.modFlt_gals (s : State) (f : Flight → Flight) : (s.modFlt f).gals = s.gals := rfl
@[simp] theorem State.modFlt_tiles (s : State) (f : Flight → Flight) : (s.modFlt f).tiles = s.tiles := rfl
@[simp] theorem State.modFlt_rc (s : State) (f : Flight → Flight) : (s.modFlt f).rc = s.rc := rfl
@[simp] theorem State.modFlt_stw (s : State) (f : Flight → Flight) : (s.modFlt f).stw = s.stw := rfl
@[simp] theorem State.modFlt_kite (s : State) (f : Flight → Flight) : (s.modFlt f).kite = s.kite := rfl
@[simp] theorem State.modFlt_zp (s : State) (f : Flight → Flight) : (s.modFlt f).zp = s.zp := rfl
@[simp] theorem State.modFlt_xlt (s : State) (f : Flight → Flight) : (s.modFlt f).xlt = s.xlt := rfl
@[simp] theorem State.modFlt_cpy (s : State) (f : Flight → Flight) : (s.modFlt f).cpy = s.cpy := rfl
@[simp] theorem State.modFlt_rst (s : State) (f : Flight → Flight) : (s.modFlt f).rst = s.rst := rfl
@[simp] theorem State.modFlt_pins (s : State) (f : Flight → Flight) : (s.modFlt f).pins = s.pins := rfl
@[simp] theorem State.modFlt_pres (s : State) (f : Flight → Flight) : (s.modFlt f).pres = s.pres := rfl
@[simp] theorem State.modFlt_bk (s : State) (f : Flight → Flight) : (s.modFlt f).bk = s.bk := rfl
@[simp] theorem State.modFlt_ps (s : State) (f : Flight → Flight) : (s.modFlt f).ps = s.ps := rfl
@[simp] theorem State.modFlt_boot (s : State) (f : Flight → Flight) : (s.modFlt f).boot = s.boot := rfl
@[simp] theorem State.modFlt_selftest (s : State) (f : Flight → Flight) : (s.modFlt f).selftest = s.selftest := rfl
@[simp] theorem State.modFlt_err (s : State) (f : Flight → Flight) : (s.modFlt f).err = s.err := rfl
@[simp] theorem State.modFlt_laneReqs (s : State) (f : Flight → Flight) : (s.modFlt f).laneReqs = s.laneReqs := rfl
@[simp] theorem State.modFlt_outs (s : State) (f : Flight → Flight) : (s.modFlt f).outs = s.outs := rfl
@[simp] theorem State.modFlt_freeSeq (s : State) (f : Flight → Flight) : (s.modFlt f).freeSeq = s.freeSeq := rfl
@[simp] theorem State.modFlt_pending (s : State) (f : Flight → Flight) : (s.modFlt f).pending = s.pending := rfl

/-! ### modChan -/

@[simp] theorem State.modChan_now (s : State) (n : Nat) (f : Chan → Chan) : (s.modChan n f).now = s.now := rfl
@[simp] theorem State.modChan_active (s : State) (n : Nat) (f : Chan → Chan) : (s.modChan n f).active = s.active := rfl
@[simp] theorem State.modChan_regs (s : State) (n : Nat) (f : Chan → Chan) : (s.modChan n f).regs = s.regs := rfl
@[simp] theorem State.modChan_latch (s : State) (n : Nat) (f : Chan → Chan) : (s.modChan n f).latch = s.latch := rfl
@[simp] theorem State.modChan_heldLo (s : State) (n : Nat) (f : Chan → Chan) : (s.modChan n f).heldLo = s.heldLo := rfl
@[simp] theorem State.modChan_hall (s : State) (n : Nat) (f : Chan → Chan) : (s.modChan n f).hall = s.hall := rfl
@[simp] theorem State.modChan_flt (s : State) (n : Nat) (f : Chan → Chan) : (s.modChan n f).flt = s.flt := rfl
@[simp] theorem State.modChan_conc (s : State) (n : Nat) (f : Chan → Chan) : (s.modChan n f).conc = s.conc := rfl
@[simp] theorem State.modChan_dir (s : State) (n : Nat) (f : Chan → Chan) : (s.modChan n f).dir = s.dir := rfl
@[simp] theorem State.modChan_gals (s : State) (n : Nat) (f : Chan → Chan) : (s.modChan n f).gals = s.gals := rfl
@[simp] theorem State.modChan_tiles (s : State) (n : Nat) (f : Chan → Chan) : (s.modChan n f).tiles = s.tiles := rfl
@[simp] theorem State.modChan_rc (s : State) (n : Nat) (f : Chan → Chan) : (s.modChan n f).rc = s.rc := rfl
@[simp] theorem State.modChan_stw (s : State) (n : Nat) (f : Chan → Chan) : (s.modChan n f).stw = s.stw := rfl
@[simp] theorem State.modChan_kite (s : State) (n : Nat) (f : Chan → Chan) : (s.modChan n f).kite = s.kite := rfl
@[simp] theorem State.modChan_zp (s : State) (n : Nat) (f : Chan → Chan) : (s.modChan n f).zp = s.zp := rfl
@[simp] theorem State.modChan_xlt (s : State) (n : Nat) (f : Chan → Chan) : (s.modChan n f).xlt = s.xlt := rfl
@[simp] theorem State.modChan_cpy (s : State) (n : Nat) (f : Chan → Chan) : (s.modChan n f).cpy = updAt s.cpy n f := rfl
@[simp] theorem State.modChan_rst (s : State) (n : Nat) (f : Chan → Chan) : (s.modChan n f).rst = s.rst := rfl
@[simp] theorem State.modChan_pins (s : State) (n : Nat) (f : Chan → Chan) : (s.modChan n f).pins = s.pins := rfl
@[simp] theorem State.modChan_pres (s : State) (n : Nat) (f : Chan → Chan) : (s.modChan n f).pres = s.pres := rfl
@[simp] theorem State.modChan_bk (s : State) (n : Nat) (f : Chan → Chan) : (s.modChan n f).bk = s.bk := rfl
@[simp] theorem State.modChan_ps (s : State) (n : Nat) (f : Chan → Chan) : (s.modChan n f).ps = s.ps := rfl
@[simp] theorem State.modChan_boot (s : State) (n : Nat) (f : Chan → Chan) : (s.modChan n f).boot = s.boot := rfl
@[simp] theorem State.modChan_selftest (s : State) (n : Nat) (f : Chan → Chan)
    : (s.modChan n f).selftest = s.selftest := rfl
@[simp] theorem State.modChan_err (s : State) (n : Nat) (f : Chan → Chan) : (s.modChan n f).err = s.err := rfl
@[simp] theorem State.modChan_laneReqs (s : State) (n : Nat) (f : Chan → Chan)
    : (s.modChan n f).laneReqs = s.laneReqs := rfl
@[simp] theorem State.modChan_outs (s : State) (n : Nat) (f : Chan → Chan) : (s.modChan n f).outs = s.outs := rfl
@[simp] theorem State.modChan_freeSeq (s : State) (n : Nat) (f : Chan → Chan)
    : (s.modChan n f).freeSeq = s.freeSeq := rfl
@[simp] theorem State.modChan_pending (s : State) (n : Nat) (f : Chan → Chan)
    : (s.modChan n f).pending = s.pending := rfl

/-! ### modTile -/

@[simp] theorem State.modTile_now (s : State) (n : Nat) (f : Tile → Tile) : (s.modTile n f).now = s.now := rfl
@[simp] theorem State.modTile_active (s : State) (n : Nat) (f : Tile → Tile) : (s.modTile n f).active = s.active := rfl
@[simp] theorem State.modTile_regs (s : State) (n : Nat) (f : Tile → Tile) : (s.modTile n f).regs = s.regs := rfl
@[simp] theorem State.modTile_latch (s : State) (n : Nat) (f : Tile → Tile) : (s.modTile n f).latch = s.latch := rfl
@[simp] theorem State.modTile_heldLo (s : State) (n : Nat) (f : Tile → Tile) : (s.modTile n f).heldLo = s.heldLo := rfl
@[simp] theorem State.modTile_hall (s : State) (n : Nat) (f : Tile → Tile) : (s.modTile n f).hall = s.hall := rfl
@[simp] theorem State.modTile_flt (s : State) (n : Nat) (f : Tile → Tile) : (s.modTile n f).flt = s.flt := rfl
@[simp] theorem State.modTile_conc (s : State) (n : Nat) (f : Tile → Tile) : (s.modTile n f).conc = s.conc := rfl
@[simp] theorem State.modTile_dir (s : State) (n : Nat) (f : Tile → Tile) : (s.modTile n f).dir = s.dir := rfl
@[simp] theorem State.modTile_gals (s : State) (n : Nat) (f : Tile → Tile) : (s.modTile n f).gals = s.gals := rfl
@[simp] theorem State.modTile_tiles (s : State) (n : Nat) (f : Tile → Tile)
    : (s.modTile n f).tiles = mapMod s.tiles n f := rfl
@[simp] theorem State.modTile_rc (s : State) (n : Nat) (f : Tile → Tile) : (s.modTile n f).rc = s.rc := rfl
@[simp] theorem State.modTile_stw (s : State) (n : Nat) (f : Tile → Tile) : (s.modTile n f).stw = s.stw := rfl
@[simp] theorem State.modTile_kite (s : State) (n : Nat) (f : Tile → Tile) : (s.modTile n f).kite = s.kite := rfl
@[simp] theorem State.modTile_zp (s : State) (n : Nat) (f : Tile → Tile) : (s.modTile n f).zp = s.zp := rfl
@[simp] theorem State.modTile_xlt (s : State) (n : Nat) (f : Tile → Tile) : (s.modTile n f).xlt = s.xlt := rfl
@[simp] theorem State.modTile_cpy (s : State) (n : Nat) (f : Tile → Tile) : (s.modTile n f).cpy = s.cpy := rfl
@[simp] theorem State.modTile_rst (s : State) (n : Nat) (f : Tile → Tile) : (s.modTile n f).rst = s.rst := rfl
@[simp] theorem State.modTile_pins (s : State) (n : Nat) (f : Tile → Tile) : (s.modTile n f).pins = s.pins := rfl
@[simp] theorem State.modTile_pres (s : State) (n : Nat) (f : Tile → Tile) : (s.modTile n f).pres = s.pres := rfl
@[simp] theorem State.modTile_bk (s : State) (n : Nat) (f : Tile → Tile) : (s.modTile n f).bk = s.bk := rfl
@[simp] theorem State.modTile_ps (s : State) (n : Nat) (f : Tile → Tile) : (s.modTile n f).ps = s.ps := rfl
@[simp] theorem State.modTile_boot (s : State) (n : Nat) (f : Tile → Tile) : (s.modTile n f).boot = s.boot := rfl
@[simp] theorem State.modTile_selftest (s : State) (n : Nat) (f : Tile → Tile)
    : (s.modTile n f).selftest = s.selftest := rfl
@[simp] theorem State.modTile_err (s : State) (n : Nat) (f : Tile → Tile) : (s.modTile n f).err = s.err := rfl
@[simp] theorem State.modTile_laneReqs (s : State) (n : Nat) (f : Tile → Tile)
    : (s.modTile n f).laneReqs = s.laneReqs := rfl
@[simp] theorem State.modTile_outs (s : State) (n : Nat) (f : Tile → Tile) : (s.modTile n f).outs = s.outs := rfl
@[simp] theorem State.modTile_freeSeq (s : State) (n : Nat) (f : Tile → Tile)
    : (s.modTile n f).freeSeq = s.freeSeq := rfl
@[simp] theorem State.modTile_pending (s : State) (n : Nat) (f : Tile → Tile)
    : (s.modTile n f).pending = s.pending := rfl

/-! ### modPort -/

@[simp] theorem State.modPort_now (s : State) (n : Nat) (f : Port → Port) : (s.modPort n f).now = s.now := rfl
@[simp] theorem State.modPort_active (s : State) (n : Nat) (f : Port → Port) : (s.modPort n f).active = s.active := rfl
@[simp] theorem State.modPort_regs (s : State) (n : Nat) (f : Port → Port) : (s.modPort n f).regs = s.regs := rfl
@[simp] theorem State.modPort_latch (s : State) (n : Nat) (f : Port → Port) : (s.modPort n f).latch = s.latch := rfl
@[simp] theorem State.modPort_heldLo (s : State) (n : Nat) (f : Port → Port) : (s.modPort n f).heldLo = s.heldLo := rfl
@[simp] theorem State.modPort_hall (s : State) (n : Nat) (f : Port → Port) : (s.modPort n f).hall = s.hall := rfl
@[simp] theorem State.modPort_flt (s : State) (n : Nat) (f : Port → Port) : (s.modPort n f).flt = s.flt := rfl
@[simp] theorem State.modPort_conc (s : State) (n : Nat) (f : Port → Port) : (s.modPort n f).conc = s.conc := rfl
@[simp] theorem State.modPort_dir (s : State) (n : Nat) (f : Port → Port) : (s.modPort n f).dir = s.dir := rfl
@[simp] theorem State.modPort_gals (s : State) (n : Nat) (f : Port → Port) : (s.modPort n f).gals = s.gals := rfl
@[simp] theorem State.modPort_tiles (s : State) (n : Nat) (f : Port → Port) : (s.modPort n f).tiles = s.tiles := rfl
@[simp] theorem State.modPort_rc (s : State) (n : Nat) (f : Port → Port) : (s.modPort n f).rc = s.rc := rfl
@[simp] theorem State.modPort_stw (s : State) (n : Nat) (f : Port → Port) : (s.modPort n f).stw = s.stw := rfl
@[simp] theorem State.modPort_kite (s : State) (n : Nat) (f : Port → Port) : (s.modPort n f).kite = s.kite := rfl
@[simp] theorem State.modPort_zp (s : State) (n : Nat) (f : Port → Port)
    : (s.modPort n f).zp = ⟨updAt s.zp.ports n f⟩ := rfl
@[simp] theorem State.modPort_xlt (s : State) (n : Nat) (f : Port → Port) : (s.modPort n f).xlt = s.xlt := rfl
@[simp] theorem State.modPort_cpy (s : State) (n : Nat) (f : Port → Port) : (s.modPort n f).cpy = s.cpy := rfl
@[simp] theorem State.modPort_rst (s : State) (n : Nat) (f : Port → Port) : (s.modPort n f).rst = s.rst := rfl
@[simp] theorem State.modPort_pins (s : State) (n : Nat) (f : Port → Port) : (s.modPort n f).pins = s.pins := rfl
@[simp] theorem State.modPort_pres (s : State) (n : Nat) (f : Port → Port) : (s.modPort n f).pres = s.pres := rfl
@[simp] theorem State.modPort_bk (s : State) (n : Nat) (f : Port → Port) : (s.modPort n f).bk = s.bk := rfl
@[simp] theorem State.modPort_ps (s : State) (n : Nat) (f : Port → Port) : (s.modPort n f).ps = s.ps := rfl
@[simp] theorem State.modPort_boot (s : State) (n : Nat) (f : Port → Port) : (s.modPort n f).boot = s.boot := rfl
@[simp] theorem State.modPort_selftest (s : State) (n : Nat) (f : Port → Port)
    : (s.modPort n f).selftest = s.selftest := rfl
@[simp] theorem State.modPort_err (s : State) (n : Nat) (f : Port → Port) : (s.modPort n f).err = s.err := rfl
@[simp] theorem State.modPort_laneReqs (s : State) (n : Nat) (f : Port → Port)
    : (s.modPort n f).laneReqs = s.laneReqs := rfl
@[simp] theorem State.modPort_outs (s : State) (n : Nat) (f : Port → Port) : (s.modPort n f).outs = s.outs := rfl
@[simp] theorem State.modPort_freeSeq (s : State) (n : Nat) (f : Port → Port)
    : (s.modPort n f).freeSeq = s.freeSeq := rfl
@[simp] theorem State.modPort_pending (s : State) (n : Nat) (f : Port → Port)
    : (s.modPort n f).pending = s.pending := rfl

/-! ### modHall -/

@[simp] theorem State.modHall_now (s : State) (f : Hall → Hall) : (s.modHall f).now = s.now := rfl
@[simp] theorem State.modHall_active (s : State) (f : Hall → Hall) : (s.modHall f).active = s.active := rfl
@[simp] theorem State.modHall_regs (s : State) (f : Hall → Hall) : (s.modHall f).regs = s.regs := rfl
@[simp] theorem State.modHall_latch (s : State) (f : Hall → Hall) : (s.modHall f).latch = s.latch := rfl
@[simp] theorem State.modHall_heldLo (s : State) (f : Hall → Hall) : (s.modHall f).heldLo = s.heldLo := rfl
@[simp] theorem State.modHall_hall (s : State) (f : Hall → Hall) : (s.modHall f).hall = f s.hall := rfl
@[simp] theorem State.modHall_flt (s : State) (f : Hall → Hall) : (s.modHall f).flt = s.flt := rfl
@[simp] theorem State.modHall_conc (s : State) (f : Hall → Hall) : (s.modHall f).conc = s.conc := rfl
@[simp] theorem State.modHall_dir (s : State) (f : Hall → Hall) : (s.modHall f).dir = s.dir := rfl
@[simp] theorem State.modHall_gals (s : State) (f : Hall → Hall) : (s.modHall f).gals = s.gals := rfl
@[simp] theorem State.modHall_tiles (s : State) (f : Hall → Hall) : (s.modHall f).tiles = s.tiles := rfl
@[simp] theorem State.modHall_rc (s : State) (f : Hall → Hall) : (s.modHall f).rc = s.rc := rfl
@[simp] theorem State.modHall_stw (s : State) (f : Hall → Hall) : (s.modHall f).stw = s.stw := rfl
@[simp] theorem State.modHall_kite (s : State) (f : Hall → Hall) : (s.modHall f).kite = s.kite := rfl
@[simp] theorem State.modHall_zp (s : State) (f : Hall → Hall) : (s.modHall f).zp = s.zp := rfl
@[simp] theorem State.modHall_xlt (s : State) (f : Hall → Hall) : (s.modHall f).xlt = s.xlt := rfl
@[simp] theorem State.modHall_cpy (s : State) (f : Hall → Hall) : (s.modHall f).cpy = s.cpy := rfl
@[simp] theorem State.modHall_rst (s : State) (f : Hall → Hall) : (s.modHall f).rst = s.rst := rfl
@[simp] theorem State.modHall_pins (s : State) (f : Hall → Hall) : (s.modHall f).pins = s.pins := rfl
@[simp] theorem State.modHall_pres (s : State) (f : Hall → Hall) : (s.modHall f).pres = s.pres := rfl
@[simp] theorem State.modHall_bk (s : State) (f : Hall → Hall) : (s.modHall f).bk = s.bk := rfl
@[simp] theorem State.modHall_ps (s : State) (f : Hall → Hall) : (s.modHall f).ps = s.ps := rfl
@[simp] theorem State.modHall_boot (s : State) (f : Hall → Hall) : (s.modHall f).boot = s.boot := rfl
@[simp] theorem State.modHall_selftest (s : State) (f : Hall → Hall) : (s.modHall f).selftest = s.selftest := rfl
@[simp] theorem State.modHall_err (s : State) (f : Hall → Hall) : (s.modHall f).err = s.err := rfl
@[simp] theorem State.modHall_laneReqs (s : State) (f : Hall → Hall) : (s.modHall f).laneReqs = s.laneReqs := rfl
@[simp] theorem State.modHall_outs (s : State) (f : Hall → Hall) : (s.modHall f).outs = s.outs := rfl
@[simp] theorem State.modHall_freeSeq (s : State) (f : Hall → Hall) : (s.modHall f).freeSeq = s.freeSeq := rfl
@[simp] theorem State.modHall_pending (s : State) (f : Hall → Hall) : (s.modHall f).pending = s.pending := rfl

/-! ### modKite -/

@[simp] theorem State.modKite_now (s : State) (f : Kites → Kites) : (s.modKite f).now = s.now := rfl
@[simp] theorem State.modKite_active (s : State) (f : Kites → Kites) : (s.modKite f).active = s.active := rfl
@[simp] theorem State.modKite_regs (s : State) (f : Kites → Kites) : (s.modKite f).regs = s.regs := rfl
@[simp] theorem State.modKite_latch (s : State) (f : Kites → Kites) : (s.modKite f).latch = s.latch := rfl
@[simp] theorem State.modKite_heldLo (s : State) (f : Kites → Kites) : (s.modKite f).heldLo = s.heldLo := rfl
@[simp] theorem State.modKite_hall (s : State) (f : Kites → Kites) : (s.modKite f).hall = s.hall := rfl
@[simp] theorem State.modKite_flt (s : State) (f : Kites → Kites) : (s.modKite f).flt = s.flt := rfl
@[simp] theorem State.modKite_conc (s : State) (f : Kites → Kites) : (s.modKite f).conc = s.conc := rfl
@[simp] theorem State.modKite_dir (s : State) (f : Kites → Kites) : (s.modKite f).dir = s.dir := rfl
@[simp] theorem State.modKite_gals (s : State) (f : Kites → Kites) : (s.modKite f).gals = s.gals := rfl
@[simp] theorem State.modKite_tiles (s : State) (f : Kites → Kites) : (s.modKite f).tiles = s.tiles := rfl
@[simp] theorem State.modKite_rc (s : State) (f : Kites → Kites) : (s.modKite f).rc = s.rc := rfl
@[simp] theorem State.modKite_stw (s : State) (f : Kites → Kites) : (s.modKite f).stw = s.stw := rfl
@[simp] theorem State.modKite_kite (s : State) (f : Kites → Kites) : (s.modKite f).kite = f s.kite := rfl
@[simp] theorem State.modKite_zp (s : State) (f : Kites → Kites) : (s.modKite f).zp = s.zp := rfl
@[simp] theorem State.modKite_xlt (s : State) (f : Kites → Kites) : (s.modKite f).xlt = s.xlt := rfl
@[simp] theorem State.modKite_cpy (s : State) (f : Kites → Kites) : (s.modKite f).cpy = s.cpy := rfl
@[simp] theorem State.modKite_rst (s : State) (f : Kites → Kites) : (s.modKite f).rst = s.rst := rfl
@[simp] theorem State.modKite_pins (s : State) (f : Kites → Kites) : (s.modKite f).pins = s.pins := rfl
@[simp] theorem State.modKite_pres (s : State) (f : Kites → Kites) : (s.modKite f).pres = s.pres := rfl
@[simp] theorem State.modKite_bk (s : State) (f : Kites → Kites) : (s.modKite f).bk = s.bk := rfl
@[simp] theorem State.modKite_ps (s : State) (f : Kites → Kites) : (s.modKite f).ps = s.ps := rfl
@[simp] theorem State.modKite_boot (s : State) (f : Kites → Kites) : (s.modKite f).boot = s.boot := rfl
@[simp] theorem State.modKite_selftest (s : State) (f : Kites → Kites) : (s.modKite f).selftest = s.selftest := rfl
@[simp] theorem State.modKite_err (s : State) (f : Kites → Kites) : (s.modKite f).err = s.err := rfl
@[simp] theorem State.modKite_laneReqs (s : State) (f : Kites → Kites) : (s.modKite f).laneReqs = s.laneReqs := rfl
@[simp] theorem State.modKite_outs (s : State) (f : Kites → Kites) : (s.modKite f).outs = s.outs := rfl
@[simp] theorem State.modKite_freeSeq (s : State) (f : Kites → Kites) : (s.modKite f).freeSeq = s.freeSeq := rfl
@[simp] theorem State.modKite_pending (s : State) (f : Kites → Kites) : (s.modKite f).pending = s.pending := rfl

/-! ### modSelf -/

@[simp] theorem State.modSelf_now (s : State) (f : SelfTest → SelfTest) : (s.modSelf f).now = s.now := rfl
@[simp] theorem State.modSelf_active (s : State) (f : SelfTest → SelfTest) : (s.modSelf f).active = s.active := rfl
@[simp] theorem State.modSelf_regs (s : State) (f : SelfTest → SelfTest) : (s.modSelf f).regs = s.regs := rfl
@[simp] theorem State.modSelf_latch (s : State) (f : SelfTest → SelfTest) : (s.modSelf f).latch = s.latch := rfl
@[simp] theorem State.modSelf_heldLo (s : State) (f : SelfTest → SelfTest) : (s.modSelf f).heldLo = s.heldLo := rfl
@[simp] theorem State.modSelf_hall (s : State) (f : SelfTest → SelfTest) : (s.modSelf f).hall = s.hall := rfl
@[simp] theorem State.modSelf_flt (s : State) (f : SelfTest → SelfTest) : (s.modSelf f).flt = s.flt := rfl
@[simp] theorem State.modSelf_conc (s : State) (f : SelfTest → SelfTest) : (s.modSelf f).conc = s.conc := rfl
@[simp] theorem State.modSelf_dir (s : State) (f : SelfTest → SelfTest) : (s.modSelf f).dir = s.dir := rfl
@[simp] theorem State.modSelf_gals (s : State) (f : SelfTest → SelfTest) : (s.modSelf f).gals = s.gals := rfl
@[simp] theorem State.modSelf_tiles (s : State) (f : SelfTest → SelfTest) : (s.modSelf f).tiles = s.tiles := rfl
@[simp] theorem State.modSelf_rc (s : State) (f : SelfTest → SelfTest) : (s.modSelf f).rc = s.rc := rfl
@[simp] theorem State.modSelf_stw (s : State) (f : SelfTest → SelfTest) : (s.modSelf f).stw = s.stw := rfl
@[simp] theorem State.modSelf_kite (s : State) (f : SelfTest → SelfTest) : (s.modSelf f).kite = s.kite := rfl
@[simp] theorem State.modSelf_zp (s : State) (f : SelfTest → SelfTest) : (s.modSelf f).zp = s.zp := rfl
@[simp] theorem State.modSelf_xlt (s : State) (f : SelfTest → SelfTest) : (s.modSelf f).xlt = s.xlt := rfl
@[simp] theorem State.modSelf_cpy (s : State) (f : SelfTest → SelfTest) : (s.modSelf f).cpy = s.cpy := rfl
@[simp] theorem State.modSelf_rst (s : State) (f : SelfTest → SelfTest) : (s.modSelf f).rst = s.rst := rfl
@[simp] theorem State.modSelf_pins (s : State) (f : SelfTest → SelfTest) : (s.modSelf f).pins = s.pins := rfl
@[simp] theorem State.modSelf_pres (s : State) (f : SelfTest → SelfTest) : (s.modSelf f).pres = s.pres := rfl
@[simp] theorem State.modSelf_bk (s : State) (f : SelfTest → SelfTest) : (s.modSelf f).bk = s.bk := rfl
@[simp] theorem State.modSelf_ps (s : State) (f : SelfTest → SelfTest) : (s.modSelf f).ps = s.ps := rfl
@[simp] theorem State.modSelf_boot (s : State) (f : SelfTest → SelfTest) : (s.modSelf f).boot = s.boot := rfl
@[simp] theorem State.modSelf_selftest (s : State) (f : SelfTest → SelfTest)
    : (s.modSelf f).selftest = s.selftest.map f := rfl
@[simp] theorem State.modSelf_err (s : State) (f : SelfTest → SelfTest) : (s.modSelf f).err = s.err := rfl
@[simp] theorem State.modSelf_laneReqs (s : State) (f : SelfTest → SelfTest)
    : (s.modSelf f).laneReqs = s.laneReqs := rfl
@[simp] theorem State.modSelf_outs (s : State) (f : SelfTest → SelfTest) : (s.modSelf f).outs = s.outs := rfl
@[simp] theorem State.modSelf_freeSeq (s : State) (f : SelfTest → SelfTest) : (s.modSelf f).freeSeq = s.freeSeq := rfl
@[simp] theorem State.modSelf_pending (s : State) (f : SelfTest → SelfTest) : (s.modSelf f).pending = s.pending := rfl

/-! ### setReg -/

@[simp] theorem State.setReg_now (s : State) (n : Nat) (w : Word) : (s.setReg n w).now = s.now := rfl
@[simp] theorem State.setReg_active (s : State) (n : Nat) (w : Word) : (s.setReg n w).active = s.active := rfl
@[simp] theorem State.setReg_regs (s : State) (n : Nat) (w : Word)
    : (s.setReg n w).regs = if w = regReset n then mapDel s.regs n else mapSet s.regs n w := rfl
@[simp] theorem State.setReg_latch (s : State) (n : Nat) (w : Word) : (s.setReg n w).latch = s.latch := rfl
@[simp] theorem State.setReg_heldLo (s : State) (n : Nat) (w : Word) : (s.setReg n w).heldLo = s.heldLo := rfl
@[simp] theorem State.setReg_hall (s : State) (n : Nat) (w : Word) : (s.setReg n w).hall = s.hall := rfl
@[simp] theorem State.setReg_flt (s : State) (n : Nat) (w : Word) : (s.setReg n w).flt = s.flt := rfl
@[simp] theorem State.setReg_conc (s : State) (n : Nat) (w : Word) : (s.setReg n w).conc = s.conc := rfl
@[simp] theorem State.setReg_dir (s : State) (n : Nat) (w : Word) : (s.setReg n w).dir = s.dir := rfl
@[simp] theorem State.setReg_gals (s : State) (n : Nat) (w : Word) : (s.setReg n w).gals = s.gals := rfl
@[simp] theorem State.setReg_tiles (s : State) (n : Nat) (w : Word) : (s.setReg n w).tiles = s.tiles := rfl
@[simp] theorem State.setReg_rc (s : State) (n : Nat) (w : Word) : (s.setReg n w).rc = s.rc := rfl
@[simp] theorem State.setReg_stw (s : State) (n : Nat) (w : Word) : (s.setReg n w).stw = s.stw := rfl
@[simp] theorem State.setReg_kite (s : State) (n : Nat) (w : Word) : (s.setReg n w).kite = s.kite := rfl
@[simp] theorem State.setReg_zp (s : State) (n : Nat) (w : Word) : (s.setReg n w).zp = s.zp := rfl
@[simp] theorem State.setReg_xlt (s : State) (n : Nat) (w : Word) : (s.setReg n w).xlt = s.xlt := rfl
@[simp] theorem State.setReg_cpy (s : State) (n : Nat) (w : Word) : (s.setReg n w).cpy = s.cpy := rfl
@[simp] theorem State.setReg_rst (s : State) (n : Nat) (w : Word) : (s.setReg n w).rst = s.rst := rfl
@[simp] theorem State.setReg_pins (s : State) (n : Nat) (w : Word) : (s.setReg n w).pins = s.pins := rfl
@[simp] theorem State.setReg_pres (s : State) (n : Nat) (w : Word) : (s.setReg n w).pres = s.pres := rfl
@[simp] theorem State.setReg_bk (s : State) (n : Nat) (w : Word) : (s.setReg n w).bk = s.bk := rfl
@[simp] theorem State.setReg_ps (s : State) (n : Nat) (w : Word) : (s.setReg n w).ps = s.ps := rfl
@[simp] theorem State.setReg_boot (s : State) (n : Nat) (w : Word) : (s.setReg n w).boot = s.boot := rfl
@[simp] theorem State.setReg_selftest (s : State) (n : Nat) (w : Word) : (s.setReg n w).selftest = s.selftest := rfl
@[simp] theorem State.setReg_err (s : State) (n : Nat) (w : Word) : (s.setReg n w).err = s.err := rfl
@[simp] theorem State.setReg_laneReqs (s : State) (n : Nat) (w : Word) : (s.setReg n w).laneReqs = s.laneReqs := rfl
@[simp] theorem State.setReg_outs (s : State) (n : Nat) (w : Word) : (s.setReg n w).outs = s.outs := rfl
@[simp] theorem State.setReg_freeSeq (s : State) (n : Nat) (w : Word) : (s.setReg n w).freeSeq = s.freeSeq := rfl
@[simp] theorem State.setReg_pending (s : State) (n : Nat) (w : Word) : (s.setReg n w).pending = s.pending := rfl

/-! ### emit -/

@[simp] theorem State.emit_now (s : State) (o : Out) : (s.emit o).now = s.now := rfl
@[simp] theorem State.emit_active (s : State) (o : Out) : (s.emit o).active = s.active := rfl
@[simp] theorem State.emit_regs (s : State) (o : Out) : (s.emit o).regs = s.regs := rfl
@[simp] theorem State.emit_latch (s : State) (o : Out) : (s.emit o).latch = s.latch := rfl
@[simp] theorem State.emit_heldLo (s : State) (o : Out) : (s.emit o).heldLo = s.heldLo := rfl
@[simp] theorem State.emit_hall (s : State) (o : Out) : (s.emit o).hall = s.hall := rfl
@[simp] theorem State.emit_flt (s : State) (o : Out) : (s.emit o).flt = s.flt := rfl
@[simp] theorem State.emit_conc (s : State) (o : Out) : (s.emit o).conc = s.conc := rfl
@[simp] theorem State.emit_dir (s : State) (o : Out) : (s.emit o).dir = s.dir := rfl
@[simp] theorem State.emit_gals (s : State) (o : Out) : (s.emit o).gals = s.gals := rfl
@[simp] theorem State.emit_tiles (s : State) (o : Out) : (s.emit o).tiles = s.tiles := rfl
@[simp] theorem State.emit_rc (s : State) (o : Out) : (s.emit o).rc = s.rc := rfl
@[simp] theorem State.emit_stw (s : State) (o : Out) : (s.emit o).stw = s.stw := rfl
@[simp] theorem State.emit_kite (s : State) (o : Out) : (s.emit o).kite = s.kite := rfl
@[simp] theorem State.emit_zp (s : State) (o : Out) : (s.emit o).zp = s.zp := rfl
@[simp] theorem State.emit_xlt (s : State) (o : Out) : (s.emit o).xlt = s.xlt := rfl
@[simp] theorem State.emit_cpy (s : State) (o : Out) : (s.emit o).cpy = s.cpy := rfl
@[simp] theorem State.emit_rst (s : State) (o : Out) : (s.emit o).rst = s.rst := rfl
@[simp] theorem State.emit_pins (s : State) (o : Out) : (s.emit o).pins = s.pins := rfl
@[simp] theorem State.emit_pres (s : State) (o : Out) : (s.emit o).pres = s.pres := rfl
@[simp] theorem State.emit_bk (s : State) (o : Out) : (s.emit o).bk = s.bk := rfl
@[simp] theorem State.emit_ps (s : State) (o : Out) : (s.emit o).ps = s.ps := rfl
@[simp] theorem State.emit_boot (s : State) (o : Out) : (s.emit o).boot = s.boot := rfl
@[simp] theorem State.emit_selftest (s : State) (o : Out) : (s.emit o).selftest = s.selftest := rfl
@[simp] theorem State.emit_err (s : State) (o : Out) : (s.emit o).err = s.err := rfl
@[simp] theorem State.emit_laneReqs (s : State) (o : Out) : (s.emit o).laneReqs = s.laneReqs := rfl
@[simp] theorem State.emit_outs (s : State) (o : Out) : (s.emit o).outs = s.outs ++ [o] := rfl
@[simp] theorem State.emit_freeSeq (s : State) (o : Out) : (s.emit o).freeSeq = s.freeSeq := rfl
@[simp] theorem State.emit_pending (s : State) (o : Out) : (s.emit o).pending = s.pending := rfl

/-! ### draw -/

@[simp] theorem State.draw_now (s : State) : (s.draw).now = s.now := rfl
@[simp] theorem State.draw_active (s : State) : (s.draw).active = s.active := rfl
@[simp] theorem State.draw_regs (s : State) : (s.draw).regs = s.regs := rfl
@[simp] theorem State.draw_latch (s : State) : (s.draw).latch = s.latch := rfl
@[simp] theorem State.draw_heldLo (s : State) : (s.draw).heldLo = s.heldLo := rfl
@[simp] theorem State.draw_hall (s : State) : (s.draw).hall = s.hall := rfl
@[simp] theorem State.draw_flt (s : State) : (s.draw).flt = s.flt := rfl
@[simp] theorem State.draw_conc (s : State) : (s.draw).conc = s.conc := rfl
@[simp] theorem State.draw_dir (s : State) : (s.draw).dir = s.dir := rfl
@[simp] theorem State.draw_gals (s : State) : (s.draw).gals = s.gals := rfl
@[simp] theorem State.draw_tiles (s : State) : (s.draw).tiles = s.tiles := rfl
@[simp] theorem State.draw_rc (s : State) : (s.draw).rc = s.rc := rfl
@[simp] theorem State.draw_stw (s : State) : (s.draw).stw = s.stw := rfl
@[simp] theorem State.draw_kite (s : State) : (s.draw).kite = s.kite := rfl
@[simp] theorem State.draw_zp (s : State) : (s.draw).zp = s.zp := rfl
@[simp] theorem State.draw_xlt (s : State) : (s.draw).xlt = s.xlt := rfl
@[simp] theorem State.draw_cpy (s : State) : (s.draw).cpy = s.cpy := rfl
@[simp] theorem State.draw_rst (s : State) : (s.draw).rst = s.rst := rfl
@[simp] theorem State.draw_pins (s : State) : (s.draw).pins = s.pins := rfl
@[simp] theorem State.draw_pres (s : State) : (s.draw).pres = s.pres := rfl
@[simp] theorem State.draw_bk (s : State) : (s.draw).bk = s.bk := rfl
@[simp] theorem State.draw_ps (s : State) : (s.draw).ps = s.ps := rfl
@[simp] theorem State.draw_boot (s : State) : (s.draw).boot = s.boot := rfl
@[simp] theorem State.draw_selftest (s : State) : (s.draw).selftest = s.selftest := rfl
@[simp] theorem State.draw_err (s : State) : (s.draw).err = s.err := rfl
@[simp] theorem State.draw_laneReqs (s : State) : (s.draw).laneReqs = s.laneReqs := rfl
@[simp] theorem State.draw_outs (s : State) : (s.draw).outs = s.outs := rfl
@[simp] theorem State.draw_freeSeq (s : State) : (s.draw).freeSeq = s.freeSeq + 1 := rfl
@[simp] theorem State.draw_pending (s : State) : (s.draw).pending = s.pending := rfl

/-! ### modGal -/

@[simp] theorem State.modGal_now (s : State) (n : Nat) (f : Gal → Gal) : (s.modGal n f).now = s.now := rfl
@[simp] theorem State.modGal_active (s : State) (n : Nat) (f : Gal → Gal) : (s.modGal n f).active = s.active := rfl
@[simp] theorem State.modGal_regs (s : State) (n : Nat) (f : Gal → Gal) : (s.modGal n f).regs = s.regs := rfl
@[simp] theorem State.modGal_latch (s : State) (n : Nat) (f : Gal → Gal) : (s.modGal n f).latch = s.latch := rfl
@[simp] theorem State.modGal_heldLo (s : State) (n : Nat) (f : Gal → Gal) : (s.modGal n f).heldLo = s.heldLo := rfl
@[simp] theorem State.modGal_hall (s : State) (n : Nat) (f : Gal → Gal) : (s.modGal n f).hall = s.hall := rfl
@[simp] theorem State.modGal_flt (s : State) (n : Nat) (f : Gal → Gal) : (s.modGal n f).flt = s.flt := rfl
@[simp] theorem State.modGal_conc (s : State) (n : Nat) (f : Gal → Gal) : (s.modGal n f).conc = s.conc := rfl
@[simp] theorem State.modGal_dir (s : State) (n : Nat) (f : Gal → Gal) : (s.modGal n f).dir = s.dir := rfl
@[simp] theorem State.modGal_gals (s : State) (n : Nat) (f : Gal → Gal) : (s.modGal n f).gals = updAt s.gals n f := rfl
@[simp] theorem State.modGal_tiles (s : State) (n : Nat) (f : Gal → Gal) : (s.modGal n f).tiles = s.tiles := rfl
@[simp] theorem State.modGal_rc (s : State) (n : Nat) (f : Gal → Gal) : (s.modGal n f).rc = s.rc := rfl
@[simp] theorem State.modGal_stw (s : State) (n : Nat) (f : Gal → Gal) : (s.modGal n f).stw = s.stw := rfl
@[simp] theorem State.modGal_kite (s : State) (n : Nat) (f : Gal → Gal) : (s.modGal n f).kite = s.kite := rfl
@[simp] theorem State.modGal_zp (s : State) (n : Nat) (f : Gal → Gal) : (s.modGal n f).zp = s.zp := rfl
@[simp] theorem State.modGal_xlt (s : State) (n : Nat) (f : Gal → Gal) : (s.modGal n f).xlt = s.xlt := rfl
@[simp] theorem State.modGal_cpy (s : State) (n : Nat) (f : Gal → Gal) : (s.modGal n f).cpy = s.cpy := rfl
@[simp] theorem State.modGal_rst (s : State) (n : Nat) (f : Gal → Gal) : (s.modGal n f).rst = s.rst := rfl
@[simp] theorem State.modGal_pins (s : State) (n : Nat) (f : Gal → Gal) : (s.modGal n f).pins = s.pins := rfl
@[simp] theorem State.modGal_pres (s : State) (n : Nat) (f : Gal → Gal) : (s.modGal n f).pres = s.pres := rfl
@[simp] theorem State.modGal_bk (s : State) (n : Nat) (f : Gal → Gal) : (s.modGal n f).bk = s.bk := rfl
@[simp] theorem State.modGal_ps (s : State) (n : Nat) (f : Gal → Gal) : (s.modGal n f).ps = s.ps := rfl
@[simp] theorem State.modGal_boot (s : State) (n : Nat) (f : Gal → Gal) : (s.modGal n f).boot = s.boot := rfl
@[simp] theorem State.modGal_selftest (s : State) (n : Nat) (f : Gal → Gal)
    : (s.modGal n f).selftest = s.selftest := rfl
@[simp] theorem State.modGal_err (s : State) (n : Nat) (f : Gal → Gal) : (s.modGal n f).err = s.err := rfl
@[simp] theorem State.modGal_laneReqs (s : State) (n : Nat) (f : Gal → Gal)
    : (s.modGal n f).laneReqs = s.laneReqs := rfl
@[simp] theorem State.modGal_outs (s : State) (n : Nat) (f : Gal → Gal) : (s.modGal n f).outs = s.outs := rfl
@[simp] theorem State.modGal_freeSeq (s : State) (n : Nat) (f : Gal → Gal) : (s.modGal n f).freeSeq = s.freeSeq := rfl
@[simp] theorem State.modGal_pending (s : State) (n : Nat) (f : Gal → Gal) : (s.modGal n f).pending = s.pending := rfl

/-! ### modCol -/

@[simp] theorem State.modCol_now (s : State) (n : Nat) (f : Col → Col) : (s.modCol n f).now = s.now := rfl
@[simp] theorem State.modCol_active (s : State) (n : Nat) (f : Col → Col) : (s.modCol n f).active = s.active := rfl
@[simp] theorem State.modCol_regs (s : State) (n : Nat) (f : Col → Col) : (s.modCol n f).regs = s.regs := rfl
@[simp] theorem State.modCol_latch (s : State) (n : Nat) (f : Col → Col) : (s.modCol n f).latch = s.latch := rfl
@[simp] theorem State.modCol_heldLo (s : State) (n : Nat) (f : Col → Col) : (s.modCol n f).heldLo = s.heldLo := rfl
@[simp] theorem State.modCol_hall (s : State) (n : Nat) (f : Col → Col) : (s.modCol n f).hall = s.hall := rfl
@[simp] theorem State.modCol_flt (s : State) (n : Nat) (f : Col → Col) : (s.modCol n f).flt = s.flt := rfl
@[simp] theorem State.modCol_conc (s : State) (n : Nat) (f : Col → Col) : (s.modCol n f).conc = s.conc := rfl
@[simp] theorem State.modCol_dir (s : State) (n : Nat) (f : Col → Col) : (s.modCol n f).dir = s.dir := rfl
@[simp] theorem State.modCol_gals (s : State) (n : Nat) (f : Col → Col) : (s.modCol n f).gals = s.gals := rfl
@[simp] theorem State.modCol_tiles (s : State) (n : Nat) (f : Col → Col) : (s.modCol n f).tiles = s.tiles := rfl
@[simp] theorem State.modCol_rc (s : State) (n : Nat) (f : Col → Col) : (s.modCol n f).rc = s.rc := rfl
@[simp] theorem State.modCol_stw (s : State) (n : Nat) (f : Col → Col)
    : (s.modCol n f).stw = { s.stw with cols := updAt s.stw.cols n f } := rfl
@[simp] theorem State.modCol_kite (s : State) (n : Nat) (f : Col → Col) : (s.modCol n f).kite = s.kite := rfl
@[simp] theorem State.modCol_zp (s : State) (n : Nat) (f : Col → Col) : (s.modCol n f).zp = s.zp := rfl
@[simp] theorem State.modCol_xlt (s : State) (n : Nat) (f : Col → Col) : (s.modCol n f).xlt = s.xlt := rfl
@[simp] theorem State.modCol_cpy (s : State) (n : Nat) (f : Col → Col) : (s.modCol n f).cpy = s.cpy := rfl
@[simp] theorem State.modCol_rst (s : State) (n : Nat) (f : Col → Col) : (s.modCol n f).rst = s.rst := rfl
@[simp] theorem State.modCol_pins (s : State) (n : Nat) (f : Col → Col) : (s.modCol n f).pins = s.pins := rfl
@[simp] theorem State.modCol_pres (s : State) (n : Nat) (f : Col → Col) : (s.modCol n f).pres = s.pres := rfl
@[simp] theorem State.modCol_bk (s : State) (n : Nat) (f : Col → Col) : (s.modCol n f).bk = s.bk := rfl
@[simp] theorem State.modCol_ps (s : State) (n : Nat) (f : Col → Col) : (s.modCol n f).ps = s.ps := rfl
@[simp] theorem State.modCol_boot (s : State) (n : Nat) (f : Col → Col) : (s.modCol n f).boot = s.boot := rfl
@[simp] theorem State.modCol_selftest (s : State) (n : Nat) (f : Col → Col)
    : (s.modCol n f).selftest = s.selftest := rfl
@[simp] theorem State.modCol_err (s : State) (n : Nat) (f : Col → Col) : (s.modCol n f).err = s.err := rfl
@[simp] theorem State.modCol_laneReqs (s : State) (n : Nat) (f : Col → Col)
    : (s.modCol n f).laneReqs = s.laneReqs := rfl
@[simp] theorem State.modCol_outs (s : State) (n : Nat) (f : Col → Col) : (s.modCol n f).outs = s.outs := rfl
@[simp] theorem State.modCol_freeSeq (s : State) (n : Nat) (f : Col → Col) : (s.modCol n f).freeSeq = s.freeSeq := rfl
@[simp] theorem State.modCol_pending (s : State) (n : Nat) (f : Col → Col) : (s.modCol n f).pending = s.pending := rfl

/-! ### memStore -/

@[simp] theorem State.memStore_now (s : State) (n : Nat) (bs : List Byte) : (s.memStore n bs).now = s.now := rfl
@[simp] theorem State.memStore_active (s : State) (n : Nat) (bs : List Byte)
    : (s.memStore n bs).active = s.active := rfl
@[simp] theorem State.memStore_regs (s : State) (n : Nat) (bs : List Byte) : (s.memStore n bs).regs = s.regs := rfl
@[simp] theorem State.memStore_latch (s : State) (n : Nat) (bs : List Byte) : (s.memStore n bs).latch = s.latch := rfl
@[simp] theorem State.memStore_heldLo (s : State) (n : Nat) (bs : List Byte)
    : (s.memStore n bs).heldLo = s.heldLo := rfl
@[simp] theorem State.memStore_hall (s : State) (n : Nat) (bs : List Byte) : (s.memStore n bs).hall = s.hall := rfl
@[simp] theorem State.memStore_flt (s : State) (n : Nat) (bs : List Byte) : (s.memStore n bs).flt = s.flt := rfl
@[simp] theorem State.memStore_conc (s : State) (n : Nat) (bs : List Byte) : (s.memStore n bs).conc = s.conc := rfl
@[simp] theorem State.memStore_dir (s : State) (n : Nat) (bs : List Byte) : (s.memStore n bs).dir = s.dir := rfl
@[simp] theorem State.memStore_gals (s : State) (n : Nat) (bs : List Byte) : (s.memStore n bs).gals = s.gals := rfl
@[simp] theorem State.memStore_tiles (s : State) (n : Nat) (bs : List Byte) : (s.memStore n bs).tiles = s.tiles := rfl
@[simp] theorem State.memStore_rc (s : State) (n : Nat) (bs : List Byte) : (s.memStore n bs).rc = s.rc := rfl
@[simp] theorem State.memStore_stw (s : State) (n : Nat) (bs : List Byte)
    : (s.memStore n bs).stw = { s.stw with mem := cellsPut s.stw.mem n bs } := rfl
@[simp] theorem State.memStore_kite (s : State) (n : Nat) (bs : List Byte) : (s.memStore n bs).kite = s.kite := rfl
@[simp] theorem State.memStore_zp (s : State) (n : Nat) (bs : List Byte) : (s.memStore n bs).zp = s.zp := rfl
@[simp] theorem State.memStore_xlt (s : State) (n : Nat) (bs : List Byte) : (s.memStore n bs).xlt = s.xlt := rfl
@[simp] theorem State.memStore_cpy (s : State) (n : Nat) (bs : List Byte) : (s.memStore n bs).cpy = s.cpy := rfl
@[simp] theorem State.memStore_rst (s : State) (n : Nat) (bs : List Byte) : (s.memStore n bs).rst = s.rst := rfl
@[simp] theorem State.memStore_pins (s : State) (n : Nat) (bs : List Byte) : (s.memStore n bs).pins = s.pins := rfl
@[simp] theorem State.memStore_pres (s : State) (n : Nat) (bs : List Byte) : (s.memStore n bs).pres = s.pres := rfl
@[simp] theorem State.memStore_bk (s : State) (n : Nat) (bs : List Byte) : (s.memStore n bs).bk = s.bk := rfl
@[simp] theorem State.memStore_ps (s : State) (n : Nat) (bs : List Byte) : (s.memStore n bs).ps = s.ps := rfl
@[simp] theorem State.memStore_boot (s : State) (n : Nat) (bs : List Byte) : (s.memStore n bs).boot = s.boot := rfl
@[simp] theorem State.memStore_selftest (s : State) (n : Nat) (bs : List Byte)
    : (s.memStore n bs).selftest = s.selftest := rfl
@[simp] theorem State.memStore_err (s : State) (n : Nat) (bs : List Byte) : (s.memStore n bs).err = s.err := rfl
@[simp] theorem State.memStore_laneReqs (s : State) (n : Nat) (bs : List Byte)
    : (s.memStore n bs).laneReqs = s.laneReqs := rfl
@[simp] theorem State.memStore_outs (s : State) (n : Nat) (bs : List Byte) : (s.memStore n bs).outs = s.outs := rfl
@[simp] theorem State.memStore_freeSeq (s : State) (n : Nat) (bs : List Byte)
    : (s.memStore n bs).freeSeq = s.freeSeq := rfl
@[simp] theorem State.memStore_pending (s : State) (n : Nat) (bs : List Byte)
    : (s.memStore n bs).pending = s.pending := rfl

/-! ### due -/

@[simp] theorem State.due_now (s : State) (n : Nat) : (s.due n).now = max s.now n := rfl
@[simp] theorem State.due_active (s : State) (n : Nat) : (s.due n).active = s.active := rfl
@[simp] theorem State.due_regs (s : State) (n : Nat) : (s.due n).regs = s.regs := rfl
@[simp] theorem State.due_latch (s : State) (n : Nat) : (s.due n).latch = s.latch := rfl
@[simp] theorem State.due_heldLo (s : State) (n : Nat) : (s.due n).heldLo = s.heldLo := rfl
@[simp] theorem State.due_hall (s : State) (n : Nat) : (s.due n).hall = s.hall := rfl
@[simp] theorem State.due_flt (s : State) (n : Nat) : (s.due n).flt = s.flt := rfl
@[simp] theorem State.due_conc (s : State) (n : Nat) : (s.due n).conc = s.conc := rfl
@[simp] theorem State.due_dir (s : State) (n : Nat) : (s.due n).dir = s.dir := rfl
@[simp] theorem State.due_gals (s : State) (n : Nat) : (s.due n).gals = s.gals := rfl
@[simp] theorem State.due_tiles (s : State) (n : Nat) : (s.due n).tiles = s.tiles := rfl
@[simp] theorem State.due_rc (s : State) (n : Nat) : (s.due n).rc = s.rc := rfl
@[simp] theorem State.due_stw (s : State) (n : Nat) : (s.due n).stw = s.stw := rfl
@[simp] theorem State.due_kite (s : State) (n : Nat) : (s.due n).kite = s.kite := rfl
@[simp] theorem State.due_zp (s : State) (n : Nat) : (s.due n).zp = s.zp := rfl
@[simp] theorem State.due_xlt (s : State) (n : Nat) : (s.due n).xlt = s.xlt := rfl
@[simp] theorem State.due_cpy (s : State) (n : Nat) : (s.due n).cpy = s.cpy := rfl
@[simp] theorem State.due_rst (s : State) (n : Nat) : (s.due n).rst = s.rst := rfl
@[simp] theorem State.due_pins (s : State) (n : Nat) : (s.due n).pins = s.pins := rfl
@[simp] theorem State.due_pres (s : State) (n : Nat) : (s.due n).pres = s.pres := rfl
@[simp] theorem State.due_bk (s : State) (n : Nat) : (s.due n).bk = s.bk := rfl
@[simp] theorem State.due_ps (s : State) (n : Nat) : (s.due n).ps = s.ps := rfl
@[simp] theorem State.due_boot (s : State) (n : Nat) : (s.due n).boot = s.boot := rfl
@[simp] theorem State.due_selftest (s : State) (n : Nat) : (s.due n).selftest = s.selftest := rfl
@[simp] theorem State.due_err (s : State) (n : Nat) : (s.due n).err = s.err := rfl
@[simp] theorem State.due_laneReqs (s : State) (n : Nat) : (s.due n).laneReqs = s.laneReqs := rfl
@[simp] theorem State.due_outs (s : State) (n : Nat) : (s.due n).outs = s.outs := rfl
@[simp] theorem State.due_freeSeq (s : State) (n : Nat) : (s.due n).freeSeq = s.freeSeq := rfl
@[simp] theorem State.due_pending (s : State) (n : Nat) : (s.due n).pending = s.pending := rfl

/-! ### modPs -/

@[simp] theorem State.modPs_now (s : State) (f : Ps → Ps) : (s.modPs f).now = s.now := rfl
@[simp] theorem State.modPs_active (s : State) (f : Ps → Ps) : (s.modPs f).active = s.active := rfl
@[simp] theorem State.modPs_regs (s : State) (f : Ps → Ps) : (s.modPs f).regs = s.regs := rfl
@[simp] theorem State.modPs_latch (s : State) (f : Ps → Ps) : (s.modPs f).latch = s.latch := rfl
@[simp] theorem State.modPs_heldLo (s : State) (f : Ps → Ps) : (s.modPs f).heldLo = s.heldLo := rfl
@[simp] theorem State.modPs_hall (s : State) (f : Ps → Ps) : (s.modPs f).hall = s.hall := rfl
@[simp] theorem State.modPs_flt (s : State) (f : Ps → Ps) : (s.modPs f).flt = s.flt := rfl
@[simp] theorem State.modPs_conc (s : State) (f : Ps → Ps) : (s.modPs f).conc = s.conc := rfl
@[simp] theorem State.modPs_dir (s : State) (f : Ps → Ps) : (s.modPs f).dir = s.dir := rfl
@[simp] theorem State.modPs_gals (s : State) (f : Ps → Ps) : (s.modPs f).gals = s.gals := rfl
@[simp] theorem State.modPs_tiles (s : State) (f : Ps → Ps) : (s.modPs f).tiles = s.tiles := rfl
@[simp] theorem State.modPs_rc (s : State) (f : Ps → Ps) : (s.modPs f).rc = s.rc := rfl
@[simp] theorem State.modPs_stw (s : State) (f : Ps → Ps) : (s.modPs f).stw = s.stw := rfl
@[simp] theorem State.modPs_kite (s : State) (f : Ps → Ps) : (s.modPs f).kite = s.kite := rfl
@[simp] theorem State.modPs_zp (s : State) (f : Ps → Ps) : (s.modPs f).zp = s.zp := rfl
@[simp] theorem State.modPs_xlt (s : State) (f : Ps → Ps) : (s.modPs f).xlt = s.xlt := rfl
@[simp] theorem State.modPs_cpy (s : State) (f : Ps → Ps) : (s.modPs f).cpy = s.cpy := rfl
@[simp] theorem State.modPs_rst (s : State) (f : Ps → Ps) : (s.modPs f).rst = s.rst := rfl
@[simp] theorem State.modPs_pins (s : State) (f : Ps → Ps) : (s.modPs f).pins = s.pins := rfl
@[simp] theorem State.modPs_pres (s : State) (f : Ps → Ps) : (s.modPs f).pres = s.pres := rfl
@[simp] theorem State.modPs_bk (s : State) (f : Ps → Ps) : (s.modPs f).bk = s.bk := rfl
@[simp] theorem State.modPs_ps (s : State) (f : Ps → Ps) : (s.modPs f).ps = f s.ps := rfl
@[simp] theorem State.modPs_boot (s : State) (f : Ps → Ps) : (s.modPs f).boot = s.boot := rfl
@[simp] theorem State.modPs_selftest (s : State) (f : Ps → Ps) : (s.modPs f).selftest = s.selftest := rfl
@[simp] theorem State.modPs_err (s : State) (f : Ps → Ps) : (s.modPs f).err = s.err := rfl
@[simp] theorem State.modPs_laneReqs (s : State) (f : Ps → Ps) : (s.modPs f).laneReqs = s.laneReqs := rfl
@[simp] theorem State.modPs_outs (s : State) (f : Ps → Ps) : (s.modPs f).outs = s.outs := rfl
@[simp] theorem State.modPs_freeSeq (s : State) (f : Ps → Ps) : (s.modPs f).freeSeq = s.freeSeq := rfl
@[simp] theorem State.modPs_pending (s : State) (f : Ps → Ps) : (s.modPs f).pending = s.pending := rfl

/-! ### modPres -/

@[simp] theorem State.modPres_now (s : State) (f : Pres → Pres) : (s.modPres f).now = s.now := rfl
@[simp] theorem State.modPres_active (s : State) (f : Pres → Pres) : (s.modPres f).active = s.active := rfl
@[simp] theorem State.modPres_regs (s : State) (f : Pres → Pres) : (s.modPres f).regs = s.regs := rfl
@[simp] theorem State.modPres_latch (s : State) (f : Pres → Pres) : (s.modPres f).latch = s.latch := rfl
@[simp] theorem State.modPres_heldLo (s : State) (f : Pres → Pres) : (s.modPres f).heldLo = s.heldLo := rfl
@[simp] theorem State.modPres_hall (s : State) (f : Pres → Pres) : (s.modPres f).hall = s.hall := rfl
@[simp] theorem State.modPres_flt (s : State) (f : Pres → Pres) : (s.modPres f).flt = s.flt := rfl
@[simp] theorem State.modPres_conc (s : State) (f : Pres → Pres) : (s.modPres f).conc = s.conc := rfl
@[simp] theorem State.modPres_dir (s : State) (f : Pres → Pres) : (s.modPres f).dir = s.dir := rfl
@[simp] theorem State.modPres_gals (s : State) (f : Pres → Pres) : (s.modPres f).gals = s.gals := rfl
@[simp] theorem State.modPres_tiles (s : State) (f : Pres → Pres) : (s.modPres f).tiles = s.tiles := rfl
@[simp] theorem State.modPres_rc (s : State) (f : Pres → Pres) : (s.modPres f).rc = s.rc := rfl
@[simp] theorem State.modPres_stw (s : State) (f : Pres → Pres) : (s.modPres f).stw = s.stw := rfl
@[simp] theorem State.modPres_kite (s : State) (f : Pres → Pres) : (s.modPres f).kite = s.kite := rfl
@[simp] theorem State.modPres_zp (s : State) (f : Pres → Pres) : (s.modPres f).zp = s.zp := rfl
@[simp] theorem State.modPres_xlt (s : State) (f : Pres → Pres) : (s.modPres f).xlt = s.xlt := rfl
@[simp] theorem State.modPres_cpy (s : State) (f : Pres → Pres) : (s.modPres f).cpy = s.cpy := rfl
@[simp] theorem State.modPres_rst (s : State) (f : Pres → Pres) : (s.modPres f).rst = s.rst := rfl
@[simp] theorem State.modPres_pins (s : State) (f : Pres → Pres) : (s.modPres f).pins = s.pins := rfl
@[simp] theorem State.modPres_pres (s : State) (f : Pres → Pres) : (s.modPres f).pres = f s.pres := rfl
@[simp] theorem State.modPres_bk (s : State) (f : Pres → Pres) : (s.modPres f).bk = s.bk := rfl
@[simp] theorem State.modPres_ps (s : State) (f : Pres → Pres) : (s.modPres f).ps = s.ps := rfl
@[simp] theorem State.modPres_boot (s : State) (f : Pres → Pres) : (s.modPres f).boot = s.boot := rfl
@[simp] theorem State.modPres_selftest (s : State) (f : Pres → Pres) : (s.modPres f).selftest = s.selftest := rfl
@[simp] theorem State.modPres_err (s : State) (f : Pres → Pres) : (s.modPres f).err = s.err := rfl
@[simp] theorem State.modPres_laneReqs (s : State) (f : Pres → Pres) : (s.modPres f).laneReqs = s.laneReqs := rfl
@[simp] theorem State.modPres_outs (s : State) (f : Pres → Pres) : (s.modPres f).outs = s.outs := rfl
@[simp] theorem State.modPres_freeSeq (s : State) (f : Pres → Pres) : (s.modPres f).freeSeq = s.freeSeq := rfl
@[simp] theorem State.modPres_pending (s : State) (f : Pres → Pres) : (s.modPres f).pending = s.pending := rfl

/-! ### modBk -/

@[simp] theorem State.modBk_now (s : State) (f : Bk → Bk) : (s.modBk f).now = s.now := rfl
@[simp] theorem State.modBk_active (s : State) (f : Bk → Bk) : (s.modBk f).active = s.active := rfl
@[simp] theorem State.modBk_regs (s : State) (f : Bk → Bk) : (s.modBk f).regs = s.regs := rfl
@[simp] theorem State.modBk_latch (s : State) (f : Bk → Bk) : (s.modBk f).latch = s.latch := rfl
@[simp] theorem State.modBk_heldLo (s : State) (f : Bk → Bk) : (s.modBk f).heldLo = s.heldLo := rfl
@[simp] theorem State.modBk_hall (s : State) (f : Bk → Bk) : (s.modBk f).hall = s.hall := rfl
@[simp] theorem State.modBk_flt (s : State) (f : Bk → Bk) : (s.modBk f).flt = s.flt := rfl
@[simp] theorem State.modBk_conc (s : State) (f : Bk → Bk) : (s.modBk f).conc = s.conc := rfl
@[simp] theorem State.modBk_dir (s : State) (f : Bk → Bk) : (s.modBk f).dir = s.dir := rfl
@[simp] theorem State.modBk_gals (s : State) (f : Bk → Bk) : (s.modBk f).gals = s.gals := rfl
@[simp] theorem State.modBk_tiles (s : State) (f : Bk → Bk) : (s.modBk f).tiles = s.tiles := rfl
@[simp] theorem State.modBk_rc (s : State) (f : Bk → Bk) : (s.modBk f).rc = s.rc := rfl
@[simp] theorem State.modBk_stw (s : State) (f : Bk → Bk) : (s.modBk f).stw = s.stw := rfl
@[simp] theorem State.modBk_kite (s : State) (f : Bk → Bk) : (s.modBk f).kite = s.kite := rfl
@[simp] theorem State.modBk_zp (s : State) (f : Bk → Bk) : (s.modBk f).zp = s.zp := rfl
@[simp] theorem State.modBk_xlt (s : State) (f : Bk → Bk) : (s.modBk f).xlt = s.xlt := rfl
@[simp] theorem State.modBk_cpy (s : State) (f : Bk → Bk) : (s.modBk f).cpy = s.cpy := rfl
@[simp] theorem State.modBk_rst (s : State) (f : Bk → Bk) : (s.modBk f).rst = s.rst := rfl
@[simp] theorem State.modBk_pins (s : State) (f : Bk → Bk) : (s.modBk f).pins = s.pins := rfl
@[simp] theorem State.modBk_pres (s : State) (f : Bk → Bk) : (s.modBk f).pres = s.pres := rfl
@[simp] theorem State.modBk_bk (s : State) (f : Bk → Bk) : (s.modBk f).bk = f s.bk := rfl
@[simp] theorem State.modBk_ps (s : State) (f : Bk → Bk) : (s.modBk f).ps = s.ps := rfl
@[simp] theorem State.modBk_boot (s : State) (f : Bk → Bk) : (s.modBk f).boot = s.boot := rfl
@[simp] theorem State.modBk_selftest (s : State) (f : Bk → Bk) : (s.modBk f).selftest = s.selftest := rfl
@[simp] theorem State.modBk_err (s : State) (f : Bk → Bk) : (s.modBk f).err = s.err := rfl
@[simp] theorem State.modBk_laneReqs (s : State) (f : Bk → Bk) : (s.modBk f).laneReqs = s.laneReqs := rfl
@[simp] theorem State.modBk_outs (s : State) (f : Bk → Bk) : (s.modBk f).outs = s.outs := rfl
@[simp] theorem State.modBk_freeSeq (s : State) (f : Bk → Bk) : (s.modBk f).freeSeq = s.freeSeq := rfl
@[simp] theorem State.modBk_pending (s : State) (f : Bk → Bk) : (s.modBk f).pending = s.pending := rfl

/-! ### modPin -/

@[simp] theorem State.modPin_now (s : State) (n : Nat) (f : Pin → Pin) : (s.modPin n f).now = s.now := rfl
@[simp] theorem State.modPin_active (s : State) (n : Nat) (f : Pin → Pin) : (s.modPin n f).active = s.active := rfl
@[simp] theorem State.modPin_regs (s : State) (n : Nat) (f : Pin → Pin) : (s.modPin n f).regs = s.regs := rfl
@[simp] theorem State.modPin_latch (s : State) (n : Nat) (f : Pin → Pin) : (s.modPin n f).latch = s.latch := rfl
@[simp] theorem State.modPin_heldLo (s : State) (n : Nat) (f : Pin → Pin) : (s.modPin n f).heldLo = s.heldLo := rfl
@[simp] theorem State.modPin_hall (s : State) (n : Nat) (f : Pin → Pin) : (s.modPin n f).hall = s.hall := rfl
@[simp] theorem State.modPin_flt (s : State) (n : Nat) (f : Pin → Pin) : (s.modPin n f).flt = s.flt := rfl
@[simp] theorem State.modPin_conc (s : State) (n : Nat) (f : Pin → Pin) : (s.modPin n f).conc = s.conc := rfl
@[simp] theorem State.modPin_dir (s : State) (n : Nat) (f : Pin → Pin) : (s.modPin n f).dir = s.dir := rfl
@[simp] theorem State.modPin_gals (s : State) (n : Nat) (f : Pin → Pin) : (s.modPin n f).gals = s.gals := rfl
@[simp] theorem State.modPin_tiles (s : State) (n : Nat) (f : Pin → Pin) : (s.modPin n f).tiles = s.tiles := rfl
@[simp] theorem State.modPin_rc (s : State) (n : Nat) (f : Pin → Pin) : (s.modPin n f).rc = s.rc := rfl
@[simp] theorem State.modPin_stw (s : State) (n : Nat) (f : Pin → Pin) : (s.modPin n f).stw = s.stw := rfl
@[simp] theorem State.modPin_kite (s : State) (n : Nat) (f : Pin → Pin) : (s.modPin n f).kite = s.kite := rfl
@[simp] theorem State.modPin_zp (s : State) (n : Nat) (f : Pin → Pin) : (s.modPin n f).zp = s.zp := rfl
@[simp] theorem State.modPin_xlt (s : State) (n : Nat) (f : Pin → Pin) : (s.modPin n f).xlt = s.xlt := rfl
@[simp] theorem State.modPin_cpy (s : State) (n : Nat) (f : Pin → Pin) : (s.modPin n f).cpy = s.cpy := rfl
@[simp] theorem State.modPin_rst (s : State) (n : Nat) (f : Pin → Pin) : (s.modPin n f).rst = s.rst := rfl
@[simp] theorem State.modPin_pins (s : State) (n : Nat) (f : Pin → Pin) : (s.modPin n f).pins = updAt s.pins n f := rfl
@[simp] theorem State.modPin_pres (s : State) (n : Nat) (f : Pin → Pin) : (s.modPin n f).pres = s.pres := rfl
@[simp] theorem State.modPin_bk (s : State) (n : Nat) (f : Pin → Pin) : (s.modPin n f).bk = s.bk := rfl
@[simp] theorem State.modPin_ps (s : State) (n : Nat) (f : Pin → Pin) : (s.modPin n f).ps = s.ps := rfl
@[simp] theorem State.modPin_boot (s : State) (n : Nat) (f : Pin → Pin) : (s.modPin n f).boot = s.boot := rfl
@[simp] theorem State.modPin_selftest (s : State) (n : Nat) (f : Pin → Pin)
    : (s.modPin n f).selftest = s.selftest := rfl
@[simp] theorem State.modPin_err (s : State) (n : Nat) (f : Pin → Pin) : (s.modPin n f).err = s.err := rfl
@[simp] theorem State.modPin_laneReqs (s : State) (n : Nat) (f : Pin → Pin)
    : (s.modPin n f).laneReqs = s.laneReqs := rfl
@[simp] theorem State.modPin_outs (s : State) (n : Nat) (f : Pin → Pin) : (s.modPin n f).outs = s.outs := rfl
@[simp] theorem State.modPin_freeSeq (s : State) (n : Nat) (f : Pin → Pin) : (s.modPin n f).freeSeq = s.freeSeq := rfl
@[simp] theorem State.modPin_pending (s : State) (n : Nat) (f : Pin → Pin) : (s.modPin n f).pending = s.pending := rfl

/-! ### modConc -/

@[simp] theorem State.modConc_now (s : State) (f : Conc → Conc) : (s.modConc f).now = s.now := rfl
@[simp] theorem State.modConc_active (s : State) (f : Conc → Conc) : (s.modConc f).active = s.active := rfl
@[simp] theorem State.modConc_regs (s : State) (f : Conc → Conc) : (s.modConc f).regs = s.regs := rfl
@[simp] theorem State.modConc_latch (s : State) (f : Conc → Conc) : (s.modConc f).latch = s.latch := rfl
@[simp] theorem State.modConc_heldLo (s : State) (f : Conc → Conc) : (s.modConc f).heldLo = s.heldLo := rfl
@[simp] theorem State.modConc_hall (s : State) (f : Conc → Conc) : (s.modConc f).hall = s.hall := rfl
@[simp] theorem State.modConc_flt (s : State) (f : Conc → Conc) : (s.modConc f).flt = s.flt := rfl
@[simp] theorem State.modConc_conc (s : State) (f : Conc → Conc) : (s.modConc f).conc = f s.conc := rfl
@[simp] theorem State.modConc_dir (s : State) (f : Conc → Conc) : (s.modConc f).dir = s.dir := rfl
@[simp] theorem State.modConc_gals (s : State) (f : Conc → Conc) : (s.modConc f).gals = s.gals := rfl
@[simp] theorem State.modConc_tiles (s : State) (f : Conc → Conc) : (s.modConc f).tiles = s.tiles := rfl
@[simp] theorem State.modConc_rc (s : State) (f : Conc → Conc) : (s.modConc f).rc = s.rc := rfl
@[simp] theorem State.modConc_stw (s : State) (f : Conc → Conc) : (s.modConc f).stw = s.stw := rfl
@[simp] theorem State.modConc_kite (s : State) (f : Conc → Conc) : (s.modConc f).kite = s.kite := rfl
@[simp] theorem State.modConc_zp (s : State) (f : Conc → Conc) : (s.modConc f).zp = s.zp := rfl
@[simp] theorem State.modConc_xlt (s : State) (f : Conc → Conc) : (s.modConc f).xlt = s.xlt := rfl
@[simp] theorem State.modConc_cpy (s : State) (f : Conc → Conc) : (s.modConc f).cpy = s.cpy := rfl
@[simp] theorem State.modConc_rst (s : State) (f : Conc → Conc) : (s.modConc f).rst = s.rst := rfl
@[simp] theorem State.modConc_pins (s : State) (f : Conc → Conc) : (s.modConc f).pins = s.pins := rfl
@[simp] theorem State.modConc_pres (s : State) (f : Conc → Conc) : (s.modConc f).pres = s.pres := rfl
@[simp] theorem State.modConc_bk (s : State) (f : Conc → Conc) : (s.modConc f).bk = s.bk := rfl
@[simp] theorem State.modConc_ps (s : State) (f : Conc → Conc) : (s.modConc f).ps = s.ps := rfl
@[simp] theorem State.modConc_boot (s : State) (f : Conc → Conc) : (s.modConc f).boot = s.boot := rfl
@[simp] theorem State.modConc_selftest (s : State) (f : Conc → Conc) : (s.modConc f).selftest = s.selftest := rfl
@[simp] theorem State.modConc_err (s : State) (f : Conc → Conc) : (s.modConc f).err = s.err := rfl
@[simp] theorem State.modConc_laneReqs (s : State) (f : Conc → Conc) : (s.modConc f).laneReqs = s.laneReqs := rfl
@[simp] theorem State.modConc_outs (s : State) (f : Conc → Conc) : (s.modConc f).outs = s.outs := rfl
@[simp] theorem State.modConc_freeSeq (s : State) (f : Conc → Conc) : (s.modConc f).freeSeq = s.freeSeq := rfl
@[simp] theorem State.modConc_pending (s : State) (f : Conc → Conc) : (s.modConc f).pending = s.pending := rfl

/-! ### modRst -/

@[simp] theorem State.modRst_now (s : State) (f : Rst → Rst) : (s.modRst f).now = s.now := rfl
@[simp] theorem State.modRst_active (s : State) (f : Rst → Rst) : (s.modRst f).active = s.active := rfl
@[simp] theorem State.modRst_regs (s : State) (f : Rst → Rst) : (s.modRst f).regs = s.regs := rfl
@[simp] theorem State.modRst_latch (s : State) (f : Rst → Rst) : (s.modRst f).latch = s.latch := rfl
@[simp] theorem State.modRst_heldLo (s : State) (f : Rst → Rst) : (s.modRst f).heldLo = s.heldLo := rfl
@[simp] theorem State.modRst_hall (s : State) (f : Rst → Rst) : (s.modRst f).hall = s.hall := rfl
@[simp] theorem State.modRst_flt (s : State) (f : Rst → Rst) : (s.modRst f).flt = s.flt := rfl
@[simp] theorem State.modRst_conc (s : State) (f : Rst → Rst) : (s.modRst f).conc = s.conc := rfl
@[simp] theorem State.modRst_dir (s : State) (f : Rst → Rst) : (s.modRst f).dir = s.dir := rfl
@[simp] theorem State.modRst_gals (s : State) (f : Rst → Rst) : (s.modRst f).gals = s.gals := rfl
@[simp] theorem State.modRst_tiles (s : State) (f : Rst → Rst) : (s.modRst f).tiles = s.tiles := rfl
@[simp] theorem State.modRst_rc (s : State) (f : Rst → Rst) : (s.modRst f).rc = s.rc := rfl
@[simp] theorem State.modRst_stw (s : State) (f : Rst → Rst) : (s.modRst f).stw = s.stw := rfl
@[simp] theorem State.modRst_kite (s : State) (f : Rst → Rst) : (s.modRst f).kite = s.kite := rfl
@[simp] theorem State.modRst_zp (s : State) (f : Rst → Rst) : (s.modRst f).zp = s.zp := rfl
@[simp] theorem State.modRst_xlt (s : State) (f : Rst → Rst) : (s.modRst f).xlt = s.xlt := rfl
@[simp] theorem State.modRst_cpy (s : State) (f : Rst → Rst) : (s.modRst f).cpy = s.cpy := rfl
@[simp] theorem State.modRst_rst (s : State) (f : Rst → Rst) : (s.modRst f).rst = f s.rst := rfl
@[simp] theorem State.modRst_pins (s : State) (f : Rst → Rst) : (s.modRst f).pins = s.pins := rfl
@[simp] theorem State.modRst_pres (s : State) (f : Rst → Rst) : (s.modRst f).pres = s.pres := rfl
@[simp] theorem State.modRst_bk (s : State) (f : Rst → Rst) : (s.modRst f).bk = s.bk := rfl
@[simp] theorem State.modRst_ps (s : State) (f : Rst → Rst) : (s.modRst f).ps = s.ps := rfl
@[simp] theorem State.modRst_boot (s : State) (f : Rst → Rst) : (s.modRst f).boot = s.boot := rfl
@[simp] theorem State.modRst_selftest (s : State) (f : Rst → Rst) : (s.modRst f).selftest = s.selftest := rfl
@[simp] theorem State.modRst_err (s : State) (f : Rst → Rst) : (s.modRst f).err = s.err := rfl
@[simp] theorem State.modRst_laneReqs (s : State) (f : Rst → Rst) : (s.modRst f).laneReqs = s.laneReqs := rfl
@[simp] theorem State.modRst_outs (s : State) (f : Rst → Rst) : (s.modRst f).outs = s.outs := rfl
@[simp] theorem State.modRst_freeSeq (s : State) (f : Rst → Rst) : (s.modRst f).freeSeq = s.freeSeq := rfl
@[simp] theorem State.modRst_pending (s : State) (f : Rst → Rst) : (s.modRst f).pending = s.pending := rfl

/-! ### modBoot -/

@[simp] theorem State.modBoot_now (s : State) (f : Boot → Boot) : (s.modBoot f).now = s.now := rfl
@[simp] theorem State.modBoot_active (s : State) (f : Boot → Boot) : (s.modBoot f).active = s.active := rfl
@[simp] theorem State.modBoot_regs (s : State) (f : Boot → Boot) : (s.modBoot f).regs = s.regs := rfl
@[simp] theorem State.modBoot_latch (s : State) (f : Boot → Boot) : (s.modBoot f).latch = s.latch := rfl
@[simp] theorem State.modBoot_heldLo (s : State) (f : Boot → Boot) : (s.modBoot f).heldLo = s.heldLo := rfl
@[simp] theorem State.modBoot_hall (s : State) (f : Boot → Boot) : (s.modBoot f).hall = s.hall := rfl
@[simp] theorem State.modBoot_flt (s : State) (f : Boot → Boot) : (s.modBoot f).flt = s.flt := rfl
@[simp] theorem State.modBoot_conc (s : State) (f : Boot → Boot) : (s.modBoot f).conc = s.conc := rfl
@[simp] theorem State.modBoot_dir (s : State) (f : Boot → Boot) : (s.modBoot f).dir = s.dir := rfl
@[simp] theorem State.modBoot_gals (s : State) (f : Boot → Boot) : (s.modBoot f).gals = s.gals := rfl
@[simp] theorem State.modBoot_tiles (s : State) (f : Boot → Boot) : (s.modBoot f).tiles = s.tiles := rfl
@[simp] theorem State.modBoot_rc (s : State) (f : Boot → Boot) : (s.modBoot f).rc = s.rc := rfl
@[simp] theorem State.modBoot_stw (s : State) (f : Boot → Boot) : (s.modBoot f).stw = s.stw := rfl
@[simp] theorem State.modBoot_kite (s : State) (f : Boot → Boot) : (s.modBoot f).kite = s.kite := rfl
@[simp] theorem State.modBoot_zp (s : State) (f : Boot → Boot) : (s.modBoot f).zp = s.zp := rfl
@[simp] theorem State.modBoot_xlt (s : State) (f : Boot → Boot) : (s.modBoot f).xlt = s.xlt := rfl
@[simp] theorem State.modBoot_cpy (s : State) (f : Boot → Boot) : (s.modBoot f).cpy = s.cpy := rfl
@[simp] theorem State.modBoot_rst (s : State) (f : Boot → Boot) : (s.modBoot f).rst = s.rst := rfl
@[simp] theorem State.modBoot_pins (s : State) (f : Boot → Boot) : (s.modBoot f).pins = s.pins := rfl
@[simp] theorem State.modBoot_pres (s : State) (f : Boot → Boot) : (s.modBoot f).pres = s.pres := rfl
@[simp] theorem State.modBoot_bk (s : State) (f : Boot → Boot) : (s.modBoot f).bk = s.bk := rfl
@[simp] theorem State.modBoot_ps (s : State) (f : Boot → Boot) : (s.modBoot f).ps = s.ps := rfl
@[simp] theorem State.modBoot_boot (s : State) (f : Boot → Boot) : (s.modBoot f).boot = f s.boot := rfl
@[simp] theorem State.modBoot_selftest (s : State) (f : Boot → Boot) : (s.modBoot f).selftest = s.selftest := rfl
@[simp] theorem State.modBoot_err (s : State) (f : Boot → Boot) : (s.modBoot f).err = s.err := rfl
@[simp] theorem State.modBoot_laneReqs (s : State) (f : Boot → Boot) : (s.modBoot f).laneReqs = s.laneReqs := rfl
@[simp] theorem State.modBoot_outs (s : State) (f : Boot → Boot) : (s.modBoot f).outs = s.outs := rfl
@[simp] theorem State.modBoot_freeSeq (s : State) (f : Boot → Boot) : (s.modBoot f).freeSeq = s.freeSeq := rfl
@[simp] theorem State.modBoot_pending (s : State) (f : Boot → Boot) : (s.modBoot f).pending = s.pending := rfl

/-! ### modRc -/

@[simp] theorem State.modRc_now (s : State) (f : RCache → RCache) : (s.modRc f).now = s.now := rfl
@[simp] theorem State.modRc_active (s : State) (f : RCache → RCache) : (s.modRc f).active = s.active := rfl
@[simp] theorem State.modRc_regs (s : State) (f : RCache → RCache) : (s.modRc f).regs = s.regs := rfl
@[simp] theorem State.modRc_latch (s : State) (f : RCache → RCache) : (s.modRc f).latch = s.latch := rfl
@[simp] theorem State.modRc_heldLo (s : State) (f : RCache → RCache) : (s.modRc f).heldLo = s.heldLo := rfl
@[simp] theorem State.modRc_hall (s : State) (f : RCache → RCache) : (s.modRc f).hall = s.hall := rfl
@[simp] theorem State.modRc_flt (s : State) (f : RCache → RCache) : (s.modRc f).flt = s.flt := rfl
@[simp] theorem State.modRc_conc (s : State) (f : RCache → RCache) : (s.modRc f).conc = s.conc := rfl
@[simp] theorem State.modRc_dir (s : State) (f : RCache → RCache) : (s.modRc f).dir = s.dir := rfl
@[simp] theorem State.modRc_gals (s : State) (f : RCache → RCache) : (s.modRc f).gals = s.gals := rfl
@[simp] theorem State.modRc_tiles (s : State) (f : RCache → RCache) : (s.modRc f).tiles = s.tiles := rfl
@[simp] theorem State.modRc_rc (s : State) (f : RCache → RCache) : (s.modRc f).rc = f s.rc := rfl
@[simp] theorem State.modRc_stw (s : State) (f : RCache → RCache) : (s.modRc f).stw = s.stw := rfl
@[simp] theorem State.modRc_kite (s : State) (f : RCache → RCache) : (s.modRc f).kite = s.kite := rfl
@[simp] theorem State.modRc_zp (s : State) (f : RCache → RCache) : (s.modRc f).zp = s.zp := rfl
@[simp] theorem State.modRc_xlt (s : State) (f : RCache → RCache) : (s.modRc f).xlt = s.xlt := rfl
@[simp] theorem State.modRc_cpy (s : State) (f : RCache → RCache) : (s.modRc f).cpy = s.cpy := rfl
@[simp] theorem State.modRc_rst (s : State) (f : RCache → RCache) : (s.modRc f).rst = s.rst := rfl
@[simp] theorem State.modRc_pins (s : State) (f : RCache → RCache) : (s.modRc f).pins = s.pins := rfl
@[simp] theorem State.modRc_pres (s : State) (f : RCache → RCache) : (s.modRc f).pres = s.pres := rfl
@[simp] theorem State.modRc_bk (s : State) (f : RCache → RCache) : (s.modRc f).bk = s.bk := rfl
@[simp] theorem State.modRc_ps (s : State) (f : RCache → RCache) : (s.modRc f).ps = s.ps := rfl
@[simp] theorem State.modRc_boot (s : State) (f : RCache → RCache) : (s.modRc f).boot = s.boot := rfl
@[simp] theorem State.modRc_selftest (s : State) (f : RCache → RCache) : (s.modRc f).selftest = s.selftest := rfl
@[simp] theorem State.modRc_err (s : State) (f : RCache → RCache) : (s.modRc f).err = s.err := rfl
@[simp] theorem State.modRc_laneReqs (s : State) (f : RCache → RCache) : (s.modRc f).laneReqs = s.laneReqs := rfl
@[simp] theorem State.modRc_outs (s : State) (f : RCache → RCache) : (s.modRc f).outs = s.outs := rfl
@[simp] theorem State.modRc_freeSeq (s : State) (f : RCache → RCache) : (s.modRc f).freeSeq = s.freeSeq := rfl
@[simp] theorem State.modRc_pending (s : State) (f : RCache → RCache) : (s.modRc f).pending = s.pending := rfl

/-! ### modXlt -/

@[simp] theorem State.modXlt_now (s : State) (f : Xlt → Xlt) : (s.modXlt f).now = s.now := rfl
@[simp] theorem State.modXlt_active (s : State) (f : Xlt → Xlt) : (s.modXlt f).active = s.active := rfl
@[simp] theorem State.modXlt_regs (s : State) (f : Xlt → Xlt) : (s.modXlt f).regs = s.regs := rfl
@[simp] theorem State.modXlt_latch (s : State) (f : Xlt → Xlt) : (s.modXlt f).latch = s.latch := rfl
@[simp] theorem State.modXlt_heldLo (s : State) (f : Xlt → Xlt) : (s.modXlt f).heldLo = s.heldLo := rfl
@[simp] theorem State.modXlt_hall (s : State) (f : Xlt → Xlt) : (s.modXlt f).hall = s.hall := rfl
@[simp] theorem State.modXlt_flt (s : State) (f : Xlt → Xlt) : (s.modXlt f).flt = s.flt := rfl
@[simp] theorem State.modXlt_conc (s : State) (f : Xlt → Xlt) : (s.modXlt f).conc = s.conc := rfl
@[simp] theorem State.modXlt_dir (s : State) (f : Xlt → Xlt) : (s.modXlt f).dir = s.dir := rfl
@[simp] theorem State.modXlt_gals (s : State) (f : Xlt → Xlt) : (s.modXlt f).gals = s.gals := rfl
@[simp] theorem State.modXlt_tiles (s : State) (f : Xlt → Xlt) : (s.modXlt f).tiles = s.tiles := rfl
@[simp] theorem State.modXlt_rc (s : State) (f : Xlt → Xlt) : (s.modXlt f).rc = s.rc := rfl
@[simp] theorem State.modXlt_stw (s : State) (f : Xlt → Xlt) : (s.modXlt f).stw = s.stw := rfl
@[simp] theorem State.modXlt_kite (s : State) (f : Xlt → Xlt) : (s.modXlt f).kite = s.kite := rfl
@[simp] theorem State.modXlt_zp (s : State) (f : Xlt → Xlt) : (s.modXlt f).zp = s.zp := rfl
@[simp] theorem State.modXlt_xlt (s : State) (f : Xlt → Xlt) : (s.modXlt f).xlt = f s.xlt := rfl
@[simp] theorem State.modXlt_cpy (s : State) (f : Xlt → Xlt) : (s.modXlt f).cpy = s.cpy := rfl
@[simp] theorem State.modXlt_rst (s : State) (f : Xlt → Xlt) : (s.modXlt f).rst = s.rst := rfl
@[simp] theorem State.modXlt_pins (s : State) (f : Xlt → Xlt) : (s.modXlt f).pins = s.pins := rfl
@[simp] theorem State.modXlt_pres (s : State) (f : Xlt → Xlt) : (s.modXlt f).pres = s.pres := rfl
@[simp] theorem State.modXlt_bk (s : State) (f : Xlt → Xlt) : (s.modXlt f).bk = s.bk := rfl
@[simp] theorem State.modXlt_ps (s : State) (f : Xlt → Xlt) : (s.modXlt f).ps = s.ps := rfl
@[simp] theorem State.modXlt_boot (s : State) (f : Xlt → Xlt) : (s.modXlt f).boot = s.boot := rfl
@[simp] theorem State.modXlt_selftest (s : State) (f : Xlt → Xlt) : (s.modXlt f).selftest = s.selftest := rfl
@[simp] theorem State.modXlt_err (s : State) (f : Xlt → Xlt) : (s.modXlt f).err = s.err := rfl
@[simp] theorem State.modXlt_laneReqs (s : State) (f : Xlt → Xlt) : (s.modXlt f).laneReqs = s.laneReqs := rfl
@[simp] theorem State.modXlt_outs (s : State) (f : Xlt → Xlt) : (s.modXlt f).outs = s.outs := rfl
@[simp] theorem State.modXlt_freeSeq (s : State) (f : Xlt → Xlt) : (s.modXlt f).freeSeq = s.freeSeq := rfl
@[simp] theorem State.modXlt_pending (s : State) (f : Xlt → Xlt) : (s.modXlt f).pending = s.pending := rfl

/-! ### withQueue -/

@[simp] theorem State.withQueue_now (s : State) (q : List Instr) : (s.withQueue q).now = s.now := rfl
@[simp] theorem State.withQueue_active (s : State) (q : List Instr) : (s.withQueue q).active = s.active := rfl
@[simp] theorem State.withQueue_regs (s : State) (q : List Instr) : (s.withQueue q).regs = s.regs := rfl
@[simp] theorem State.withQueue_latch (s : State) (q : List Instr) : (s.withQueue q).latch = s.latch := rfl
@[simp] theorem State.withQueue_heldLo (s : State) (q : List Instr) : (s.withQueue q).heldLo = s.heldLo := rfl
@[simp] theorem State.withQueue_hall (s : State) (q : List Instr) : (s.withQueue q).hall = s.hall := rfl
@[simp] theorem State.withQueue_flt (s : State) (q : List Instr) : (s.withQueue q).flt = s.flt := rfl
@[simp] theorem State.withQueue_conc (s : State) (q : List Instr) : (s.withQueue q).conc = s.conc := rfl
@[simp] theorem State.withQueue_dir (s : State) (q : List Instr) : (s.withQueue q).dir = s.dir := rfl
@[simp] theorem State.withQueue_gals (s : State) (q : List Instr) : (s.withQueue q).gals = s.gals := rfl
@[simp] theorem State.withQueue_tiles (s : State) (q : List Instr) : (s.withQueue q).tiles = s.tiles := rfl
@[simp] theorem State.withQueue_rc (s : State) (q : List Instr) : (s.withQueue q).rc = s.rc := rfl
@[simp] theorem State.withQueue_stw (s : State) (q : List Instr) : (s.withQueue q).stw = s.stw := rfl
@[simp] theorem State.withQueue_kite (s : State) (q : List Instr) : (s.withQueue q).kite = s.kite := rfl
@[simp] theorem State.withQueue_zp (s : State) (q : List Instr) : (s.withQueue q).zp = s.zp := rfl
@[simp] theorem State.withQueue_xlt (s : State) (q : List Instr) : (s.withQueue q).xlt = s.xlt := rfl
@[simp] theorem State.withQueue_cpy (s : State) (q : List Instr) : (s.withQueue q).cpy = s.cpy := rfl
@[simp] theorem State.withQueue_rst (s : State) (q : List Instr) : (s.withQueue q).rst = s.rst := rfl
@[simp] theorem State.withQueue_pins (s : State) (q : List Instr) : (s.withQueue q).pins = s.pins := rfl
@[simp] theorem State.withQueue_pres (s : State) (q : List Instr) : (s.withQueue q).pres = s.pres := rfl
@[simp] theorem State.withQueue_bk (s : State) (q : List Instr) : (s.withQueue q).bk = s.bk := rfl
@[simp] theorem State.withQueue_ps (s : State) (q : List Instr) : (s.withQueue q).ps = s.ps := rfl
@[simp] theorem State.withQueue_boot (s : State) (q : List Instr) : (s.withQueue q).boot = s.boot := rfl
@[simp] theorem State.withQueue_selftest (s : State) (q : List Instr) : (s.withQueue q).selftest = s.selftest := rfl
@[simp] theorem State.withQueue_err (s : State) (q : List Instr) : (s.withQueue q).err = s.err := rfl
@[simp] theorem State.withQueue_laneReqs (s : State) (q : List Instr) : (s.withQueue q).laneReqs = s.laneReqs := rfl
@[simp] theorem State.withQueue_outs (s : State) (q : List Instr) : (s.withQueue q).outs = s.outs := rfl
@[simp] theorem State.withQueue_freeSeq (s : State) (q : List Instr) : (s.withQueue q).freeSeq = s.freeSeq := rfl
@[simp] theorem State.withQueue_pending (s : State) (q : List Instr) : (s.withQueue q).pending = q := rfl

/-! ### idle -/

@[simp] theorem State.idle_now (s : State) : (s.idle).now = s.now + Config.idleNs := rfl
@[simp] theorem State.idle_active (s : State) : (s.idle).active = s.active := rfl
@[simp] theorem State.idle_regs (s : State) : (s.idle).regs = s.regs := rfl
@[simp] theorem State.idle_latch (s : State) : (s.idle).latch = s.latch := rfl
@[simp] theorem State.idle_heldLo (s : State) : (s.idle).heldLo = s.heldLo := rfl
@[simp] theorem State.idle_hall (s : State) : (s.idle).hall = s.hall := rfl
@[simp] theorem State.idle_flt (s : State) : (s.idle).flt = s.flt := rfl
@[simp] theorem State.idle_conc (s : State) : (s.idle).conc = s.conc := rfl
@[simp] theorem State.idle_dir (s : State) : (s.idle).dir = s.dir := rfl
@[simp] theorem State.idle_gals (s : State) : (s.idle).gals = s.gals := rfl
@[simp] theorem State.idle_tiles (s : State) : (s.idle).tiles = s.tiles := rfl
@[simp] theorem State.idle_rc (s : State) : (s.idle).rc = s.rc := rfl
@[simp] theorem State.idle_stw (s : State) : (s.idle).stw = s.stw := rfl
@[simp] theorem State.idle_kite (s : State) : (s.idle).kite = s.kite := rfl
@[simp] theorem State.idle_zp (s : State) : (s.idle).zp = s.zp := rfl
@[simp] theorem State.idle_xlt (s : State) : (s.idle).xlt = s.xlt := rfl
@[simp] theorem State.idle_cpy (s : State) : (s.idle).cpy = s.cpy := rfl
@[simp] theorem State.idle_rst (s : State) : (s.idle).rst = s.rst := rfl
@[simp] theorem State.idle_pins (s : State) : (s.idle).pins = s.pins := rfl
@[simp] theorem State.idle_pres (s : State) : (s.idle).pres = s.pres := rfl
@[simp] theorem State.idle_bk (s : State) : (s.idle).bk = s.bk := rfl
@[simp] theorem State.idle_ps (s : State) : (s.idle).ps = s.ps := rfl
@[simp] theorem State.idle_boot (s : State) : (s.idle).boot = s.boot := rfl
@[simp] theorem State.idle_selftest (s : State) : (s.idle).selftest = s.selftest := rfl
@[simp] theorem State.idle_err (s : State) : (s.idle).err = s.err := rfl
@[simp] theorem State.idle_laneReqs (s : State) : (s.idle).laneReqs = s.laneReqs := rfl
@[simp] theorem State.idle_outs (s : State) : (s.idle).outs = s.outs := rfl
@[simp] theorem State.idle_freeSeq (s : State) : (s.idle).freeSeq = s.freeSeq := rfl
@[simp] theorem State.idle_pending (s : State) : (s.idle).pending = s.pending := rfl

end Sys2Proof.Laws
end

