-- ==== Sys2Proof/WellFormed.lean ====
section
/-! DEFINITION. Which command terms spell a command of the part: every operand inside the width the spec gives it. -/
namespace Sys2Proof

/-- A packet is one to eight units of eight words (R106, R119). -/
def pktWf (pkt : List Word) : Bool := pkt.length % 8 == 0 && decide (1 ≤ pkt.length / 8) && decide (pkt.length / 8 ≤ 8)

/-- Command ring, as large as rings can be numbered (R137), or a lane message. -/
def PktSrc.wf : PktSrc → Bool
  | .ring n => decide (n < 8192)
  | .lane seq => decide (seq < 2 ^ 32)

/-- The header fields of R268 fit, and the payload is whole 4-byte words of at most 4,096 bytes (R268, R270). -/
def Frame.wf (f : Frame) : Bool :=
  decide (f.kind < 16) && decide (f.cls < 4) && decide (f.hops < 64) && decide (f.age < 65536)
    && decide (f.dst < 2 ^ 18) && decide (f.origin < 2 ^ 18) && decide (f.slot < 65536) && decide (f.gen < 16)
    && decide (f.table < 65536) && decide (f.epoch < 65536) && decide (f.tenant < 2 ^ 20) && decide (f.vslot < 2)
    && decide (f.nrows < 128) && decide (f.payload.length ≤ 4096)

/-- The line an uncorrectable error names is one of engine memory. -/
def Ecc.wf : Ecc → Bool
  | .uncorrectable l => decide (l < 2 ^ 32)
  | _ => true

/-- What a row read brings back fits (R193, R195: at most 2,048 elements of 4 bytes). -/
def RowRead.wf : RowRead → Bool
  | .stored e => e.wf
  | .balloon d => decide (d.length ≤ 8192)
  | _ => true

/-- A command term is well formed. -/
def Instr.wf : Instr → Bool
  | .nop s p => s.wf && pktWf p
  | .bag s p => s.wf && pktWf p
  | .bagInteract s p => s.wf && pktWf p
  | .arrayOp s p => s.wf && pktWf p
  | .tileRead s p => s.wf && pktWf p
  | .tileWrite s p => s.wf && pktWf p
  | .vecChain s p => s.wf && pktWf p
  | .updateBatch s p => s.wf && pktWf p
  | .splitReduce s p => s.wf && pktWf p
  | .copy s p => s.wf && pktWf p
  | .recheck s p => s.wf && pktWf p
  | .inlineWrite s p => s.wf && pktWf p
  | .packet q p => decide (q < 2 ^ 32) && pktWf p
  | .ringFullAdvisory r => decide (r < 8192)
  | .slotEmpty t v => decide (t < 65536) && decide (v < 2)
  | .beacon p _ => decide (p < 16)
  | .gather f e => f.wf && e.wf
  | .reply f => f.wf
  | .nack f => f.wf
  | .update f => f.wf
  | .updateAck f => f.wf
  | .migStart f => f.wf
  | .migData f => f.wf
  | .migAck f => f.wf
  | .migDone f => f.wf
  | .hallRead f e => f.wf && e.wf
  | .hallWrite f => f.wf
  | .hallAck f => f.wf
  | .transitFrame f _ badCrc => f.wf && badCrc.all (fun p => decide (p < 16))
  | .linkAck p _ => decide (p < 16)
  | .linkRetransmit p => decide (p < 16)
  | .lossOfLight p => decide (p < 16)
  | .linkUp p => decide (p < 16)
  | .primaryRouteRestore p => decide (p < 16)
  | .slotHeldExpire n => decide (n < 65536)
  | .kiteTimeout n => decide (n < 65536)
  | .quarantineEnd n => decide (n < 65536)
  | .creditBackoffEnd h => decide (h < 2 ^ 18)
  | .statFlush g => decide (g < 18)
  | .rowArrival _ _ r => r.wf
  | .rcFill _ e => e.wf
  | .invTable t k => decide (t < 65536) && decide (k < 4)
  | .hostMemRead _ n e => decide (1 ≤ n) && decide (n ≤ 64) && e.wf
  | .hostMemWrite _ d => decide (1 ≤ d.length) && decide (d.length ≤ 64)
  | .refresh k => decide (k < 4)
  | .tempSample k ts => decide (k < 4) && decide (ts.length = 16)
  | .scrubRead _ _ e => e.wf
  | .scrubPassEnd k => decide (k < 4)
  | .remapDone k => decide (k < 4)
  | .stwRegCfgWrite k _ => decide (k < 4)
  | .marchTestStart k _ => decide (k < 4)
  | .marchTestDone k _ => decide (k < 4)
  | .partitionTokenGain k p => decide (k < 4) && decide (p < 64)
  | .galCe g => decide (g < 18)
  | .galError g d => decide (g < 18) && decide (d < 8)
  | .chunkAdmit _ g => decide (g < 18)
  | .domainReady c ts => decide (c < 256) && decide (ts.length = 64)
  | .pinKeeperRelease p => decide (p < 4)
  | .registerWrite off w _ => decide (off < 0x1000000) && (w == 4 || w == 8)
  | .rwpRegisterWrite off _ => decide (off < 0x1000000) && off % 4 == 0
  | .loRead _ off => decide (off < 0x1000000) && off % 4 == 0
  | .loWrite off _ => decide (off < 0x1000000) && off % 4 == 0
  | .hiWrite off _ => decide (off < 0x1000000) && off % 4 == 0
  | _ => true

end Sys2Proof
end

