-- ==== Sys2Proof/Tests/Slice0.lean ====
section
/-! SUPPORT. The package's own tests: ill-formed terms that the checks refuse, worked values of the spec, and for every
statement with hypotheses states and operands that meet them, clause by clause. -/
namespace Sys2Proof.Tests

open Sys2Proof Sys2Proof.Machine Sys2Proof.Safety

/-! ### Small states and operands -/

/-- The state right after reset. -/
abbrev r0 : State := State.reset

/-- Every domain held in reset. -/
def held : State := r0.modRst (fun r => { r with phase := .held, step := 0, ready := 0 })

/-- A step of the release sequence taken, with the domains up to another ready. -/
def releasing (step ready : Nat) : State :=
  r0.modRst (fun r => { r with phase := .releasing, step := step, ready := ready })

/-- Firmware runs. -/
def fw : State := r0.modBoot (fun x => { x with state := 3, running := true })

/-- A control packet of ring 0 with an opcode, OPARG, TABLE, AT_LANDING and units of payload; it has
one flight. -/
def ctl (op arg table at_ units : Nat) (pl : List Word) : MqPkt where
  seq := 0
  tenant := 0
  src := .ring 0
  cq := some 0
  index := 0
  words := [Word.ofNat (op + (units + 1) * 65536 + 16777216), 0, Word.ofNat (table + arg * 65536), 0, Word.ofNat at_, 0, 0, 0]
    ++ (pl ++ List.replicate (8 * units) 0).take (8 * units)
  due := 1

/-- A control packet is the only one in the queue. -/
def turn (s : State) (p : MqPkt) : State := s.modConc (fun c => { c with mq := [p] })

/-- A frame of an age. -/
def aFrame (age : Nat) : Frame where
  kind := 1
  cls := 0
  hops := 0
  fwd := false
  admin := false
  age := age
  dst := 0
  origin := 1
  slot := 0
  gen := 0
  table := 3
  epoch := 0
  tenant := 0
  vslot := 0
  nrows := 0
  arg0 := 0
  arg1 := 0
  payload := []

/-- A table of one shard, not replicated, with its slots in two states. -/
def aTable (st : TState) (s0 s1 : SState) : Table :=
  { Table.define (List.replicate 16 0) 0 with st := st, slot0 := ⟨s0, 0, none⟩, slot1 := ⟨s1, 0, none⟩ }

/-- Table 3 is in the directory. -/
def withTable (s : State) (t : Table) : State := { s with dir := ⟨[(3, t)], [], []⟩ }

/-- A command ring of tenant 0. -/
def aCmd : CmdRing := ⟨0, false, false, 6, 0, 0, 0, 0, 0, false, false, .no, 0, none, [], false⟩

/-- A completion ring of tenant 0. -/
def aCpl : CplRing := ⟨0, false, 6, 0, 0, 0, 0, 0, 0, 0, 0, false, none⟩

/-- The words of a NOP packet with a LEN and one flight; 9 stands for LEN 0. -/
def nopPkt (len : Nat) : List Word := Word.ofNat (len % 9 * 65536 + 16777216) :: List.replicate (8 * len - 1) 0

/-- A context that holds a NOP. -/
def anItem : Item := r0.newItem (.ring 1) (some 0) 0 0 (nopPkt 1)

/-- A self-test with a unit under test. -/
def aTest (kind unit : Nat) (started : Option Nat) : SelfTest where
  pkt := ctl 0x8040 0 0 0 0 []
  gals := []
  slices := []
  cols := []
  cur := some (kind, unit)
  started := started
  since := 0
  retest := none
  failG := 0
  failS := 0
  failC := 0
  skipG := 0
  code := 0

/-- A self-test is in progress. -/
def testing (kind unit : Nat) (started : Option Nat) : State := { r0 with selftest := some (aTest kind unit started) }

/-- The state after reset is sound. -/
theorem sane_r0 : Sane r0 := by unfold Sane Sound; decide

/-- A pair with a known second part. -/
theorem pairOf {α β : Type} {x : α × β} {b : β} (h : x.2 = b) : x = (x.1, b) := by rw [← h]

/-- A list whose words from a place on are zero. -/
theorem zero_from {ws : List Word} {k : Nat} (h : ws.drop k = List.replicate (ws.length - k) 0) {n : Nat} (hn : k ≤ n) :
    ws.getD n 0 = 0 := by
  have e : ws.getD n 0 = (ws.drop k).getD (n - k) 0 := by
    simp only [List.getD_eq_getElem?_getD, List.getElem?_drop]; congr 2; omega
  rw [e, h, List.getD_eq_getElem?_getD, List.getElem?_replicate]
  split <;> rfl

/-- Placements of zero are good, and not in the balloon. -/
theorem place_zero {ws : List Word} (h : ws.drop 10 = List.replicate (ws.length - 10) 0) (j : Nat) :
    plBad ws (smwByte j) = none ∧ plTier (plAt ws (smwByte j)) ≠ 1 := by
  have e : plAt ws (smwByte j) = 0 := by
    unfold plAt smwByte
    rw [zero_from h (by omega), zero_from h (by omega)]; rfl
  unfold plBad
  rw [e]
  constructor
  · simp [firstBad, chk, plTier, natBits]
  · simp [plTier, natBits]

/-- Repair entries of zero are good. -/
theorem repair_zero {ws : List Word} (h : ws.drop 9 = List.replicate (ws.length - 9) 0) (j : Nat) :
    repairBad ws (9 + j) = none := by
  have e : ws.getD (9 + j) 0 = 0 := zero_from h (by omega)
  unfold repairBad
  dsimp only
  rw [e]
  simp [firstBad, chk, Word.bit, Word.bits]

/-! ### Hypotheses that can be met -/

theorem witness_PresenceRows :
    (∃ (s : State), s.pres.sealOpen = false ∧ s.rst.standby = true) ∧
    (∃ (s : State), (s.pres.sealOpen = true ∨ s.rst.standby = false)) ∧
    (∃ (s : State) (t : Nat), s.pres.press = some t) ∧
    (∃ (s : State), s.rst.standby = true ∧ s.pres.openRun ≠ 1) ∧
    (∃ (s : State), s.rst.standby = true) ∧
    (∃ (s : State), s.rst.standby = true ∧ s.pres.openRun = 1) ∧
    (∃ (s : State), s.rst.standby = false ∧ s.bk.gone = false) ∧
    (∃ (s : State), (s.labPresence = true ∨ (s.buttonPresence = false ∧ s.pres.sealOpen = true))) ∧
    (∃ (s : State), s.labPresence = false ∧ (s.buttonPresence = true ∨ s.pres.sealOpen = false)) :=
  ⟨⟨r0, by decide, by decide⟩,
   ⟨(r0.modPres (fun p => { p with sealOpen := true })), by decide⟩,
   ⟨(r0.modPres (fun p => { p with press := some 0 })), 0, by decide⟩,
   ⟨r0, by decide, by decide⟩,
   ⟨r0, by decide⟩,
   ⟨(r0.modPres (fun p => { p with openRun := 1 })), by decide, by decide⟩,
   ⟨(r0.modRst (fun r => { r with standby := false })), by decide, by decide⟩,
   ⟨(r0.modPres (fun p => { p with sealOpen := true })), by decide⟩,
   ⟨r0, by decide, by decide⟩⟩

theorem witness_PinRows :
    (∃ (s : State) (n t : Nat) (b : Bool), (s.pins.getD n (Pin.reset 0)).keep = some (t, b)) ∧
    (∃ (s : State) (t : Nat), s.pins.findSome? (·.pulse) = some t) ∧
    (∃ (s : State) (temp : Int), 125 ≤ temp ∧ s.err.therm = false) ∧
    (∃ (temp : Int), temp < 125) ∧
    (∃ (temp : Int), 125 ≤ temp) ∧
    (∃ (s : State) (temp : Int), 105 < temp ∧ s.flt.hotNext = false) ∧
    (∃ (temp : Int), temp ≤ 100) ∧
    (∃ (s : State) (temp : Int), 100 < temp ∧ (temp ≤ 105 ∨ s.flt.hotNext = true)) :=
  ⟨⟨(r0.modPin 0 (fun p => { p with keep := some (5, true) })), 0, 5, true, by decide⟩,
   ⟨(r0.modPin 0 (fun p => { p with pulse := some 7 })), 7, by decide⟩,
   ⟨r0, 125, by decide, by decide⟩,
   ⟨124, by decide⟩,
   ⟨125, by decide⟩,
   ⟨r0, 106, by decide, by decide⟩,
   ⟨100, by decide⟩,
   ⟨r0, 105, by decide, by decide⟩⟩

theorem witness_PersistentRegisters :
    (∃ (s : State) (off word : Nat) (w v : Word), psWordOf off = some word ∧ s.rwpValue word w = some v ∧ s.psValue
      word ≠ v ∧ s.psCount word < psGate ∧ (s.ps.busy = none ∨ s.ps.queue.length < 8)) ∧
    (∃ (s : State) (w v : Word), s.rwpValue 5 w = some v ∧ s.psValue 5 ≠ v ∧ s.psCount 5 < psGate ∧ (s.ps.busy = none
      ∨ s.ps.queue.length < 8)) ∧
    (∃ (s : State) (off word : Nat) (w : Word), psWordOf off = some word ∧ s.rwpValue word w = none) ∧
    (∃ (s : State) (off word : Nat) (w v : Word), psWordOf off = some word ∧ s.rwpValue word w = some v ∧ s.psValue
      word ≠ v ∧ psLimit ≤ s.psCount word) ∧
    (∃ (s : State) (x : PsWrite) (t : Nat), s.ps.busy = some (x, t)) :=
  ⟨⟨r0, Reg.XLT_HLOSS, 2, 1, 1, by decide, by decide, by decide, by decide, by decide⟩,
   ⟨r0, 0x05000001, 0x05000001, by decide, by decide, by decide, by decide⟩,
   ⟨r0, Reg.ENG_PROFILE, 0, 3, by decide, by decide⟩,
   ⟨(r0.modPs (fun p => { p with counts := [(2, psLimit)] })), Reg.XLT_HLOSS, 2, 1, 1, by decide, by decide, by
     decide, by decide⟩,
   ⟨(r0.modPs (fun p => { p with busy := some (⟨2, 1, false⟩, 0) })), ⟨2, 1, false⟩, 0, by decide⟩⟩

theorem witness_ColdSources :
    (∃ (s : State), s.rst.standby = true ∧ s.rst.coldPin = false) ∧
    (∃ (s : State) (w : Word), w.bits 1 0 = 2 ∧ w.bits 31 16 = 0xA5C3 ∧ s.domHeld 1 = false ∧ s.laneTerms = true) ∧
    (∃ (s : State) (w : Word), w.bits 1 0 = 2 ∧ w.bits 31 16 = 0xA5C3 ∧ s.domHeld 1 = false) ∧
    (∃ (s : State), s.rst.standby = false ∧ s.rst.coldPin = false ∧ s.bk.gone = false) ∧
    (∃ (s : State), s.rst.standby = true) ∧
    (∃ (s : State), s.rst.standby = false) :=
  ⟨⟨r0, by decide, by decide⟩,
   ⟨(r0.modPres (fun p => { p with press := some 0 })), 0xA5C30002, by decide, by decide, by decide, by decide⟩,
   ⟨r0, 0xA5C30002, by decide, by decide, by decide⟩,
   ⟨(r0.modRst (fun r => { r with standby := false })), by decide, by decide, by decide⟩,
   ⟨r0, by decide⟩,
   ⟨(r0.modRst (fun r => { r with standby := false })), by decide⟩⟩

theorem witness_WarmSources :
    (∃ (s : State) (path : Path) (w : Word), Sane s ∧ w.bits 1 0 = 1 ∧ w.bits 31 16 = 0xA5C3 ∧ s.rst.phase = .run ∧
      (path = .bar ∨ s.laneTerms = true)) ∧
    (∃ (s : State), Sane s ∧ s.boot.running = true ∧ s.boot.wdogCtl.bit 16 = true ∧ s.rst.phase = .run ∧
      s.boot.wdogStage ≠ 0) ∧
    (∃ (s : State), Sane s ∧ s.rst.phase = .run ∧ s.xlt.host = .detached ∧ s.xlt.fresh = false ∧ s.xlt.mode = false) ∧
    (∃ (s : State) (path : Path) (w : Word), w.bits 1 0 = 1 ∧ s.domHeld 1 = false ∧ (w.bits 31 16 ≠ 0xA5C3 ∨ (path =
      .lane ∧ s.laneTerms = false))) :=
  ⟨⟨r0, .bar, 0xA5C30001, sane_r0, by decide, by decide, by decide, by decide⟩,
   ⟨(fw.modBoot (fun x => { x with wdogStage := 1 })), sane_r0, by decide, by decide, by decide, by decide⟩,
   ⟨(r0.modXlt (fun x => { x with host := .detached })), sane_r0, by decide, by decide, by decide, by decide⟩,
   ⟨r0, .bar, 1, by decide, by decide, by decide⟩⟩

theorem witness_ReleaseSequence :
    (∃ (s : State), s.rst.phase = .abort) ∧
    (∃ (s : State) (c : Nat), s.rst.phase ≠ .abort ∧ s.rst.coldCmd = some c ∧ (∀ w, s.rst.warm = some w → c ≤ w)) ∧
    (∃ (s : State) (w : Nat), s.rst.phase ≠ .abort ∧ s.rst.warm = some w ∧ (∀ c, s.rst.coldCmd = some c → w < c)) ∧
    (∃ (s : State), (s.rst.phase = .held ∨ s.rst.phase = .releasing) ∧ s.rst.step = s.rst.ready ∧ s.rst.step < 6 ∧
      s.stepHeld (s.rst.step + 1) = false ∧ (s.rst.step < 5 ∨ s.kite.quarWait = false)) ∧
    (∃ (s : State), (s.rst.phase = .held ∨ s.rst.phase = .releasing) ∧ s.rst.step = 5 ∧ s.rst.ready = 5 ∧ s.stepHeld
      6 = false ∧ s.kite.quarWait = true) ∧
    (∃ (s : State), s.rst.phase = .releasing ∧ s.rst.step = s.rst.ready + 1) ∧
    (∃ (s : State), s.rst.phase = .releasing ∧ s.rst.step = s.rst.ready + 1 ∧ s.rst.step = 1) ∧
    (∃ (s : State), s.rst.phase = .releasing ∧ s.rst.step = s.rst.ready + 1 ∧ s.rst.step = 2) ∧
    (∃ (s : State), s.rst.phase = .releasing ∧ s.rst.step = s.rst.ready + 1 ∧ s.rst.step = 3) ∧
    (∃ (s : State), s.rst.phase = .releasing ∧ s.rst.step = s.rst.ready + 1 ∧ s.rst.step = 4) ∧
    (∃ (s : State), s.rst.phase = .releasing ∧ s.rst.step = s.rst.ready + 1 ∧ s.rst.step = 5) ∧
    (∃ (s : State), s.rst.phase = .releasing ∧ s.rst.step = s.rst.ready + 1 ∧ s.rst.step = 6) ∧
    (∃ (s : State), s.rst.phase = .releasing ∧ s.rst.step = 1 ∧ s.rst.ready = 0) ∧
    (∃ (s : State), Sane s ∧ s.rst.phase = .releasing ∧ s.rst.step = 6 ∧ s.rst.ready = 5) :=
  ⟨⟨(r0.modRst (fun r => { r with phase := .abort })), by decide⟩,
   ⟨(r0.modRst (fun r => { r with coldCmd := some 5, warm := some 5 })), 5, by decide, by decide, (fun w h =>
     Nat.le_of_eq (Option.some.inj h))⟩,
   ⟨(r0.modRst (fun r => { r with coldCmd := some 6, warm := some 5 })), 5, by decide, by decide, (fun c h =>
     Nat.lt_of_lt_of_le (by decide) (Nat.le_of_eq (Option.some.inj h)))⟩,
   ⟨held, by decide, by decide, by decide, by decide, by decide⟩,
   ⟨((releasing 5 5).modKite (fun k => { k with quarWait := true })), by decide, by decide, by decide, by decide, by
     decide⟩,
   ⟨(releasing 1 0), by decide, by decide⟩,
   ⟨(releasing 1 0), by decide, by decide, by decide⟩,
   ⟨(releasing 2 1), by decide, by decide, by decide⟩,
   ⟨(releasing 3 2), by decide, by decide, by decide⟩,
   ⟨(releasing 4 3), by decide, by decide, by decide⟩,
   ⟨(releasing 5 4), by decide, by decide, by decide⟩,
   ⟨(releasing 6 5), by decide, by decide, by decide⟩,
   ⟨(releasing 1 0), by decide, by decide, by decide⟩,
   ⟨(releasing 6 5), sane_r0, by decide, by decide, by decide⟩⟩

theorem witness_BootAndWatchdog :
    (∃ (s : State), s.boot.state = 0 ∧ s.domHeld 4 = false ∧ s.boot.fromLane = true) ∧
    (∃ (s : State) (k : Nat), s.boot.state = 0 ∧ s.domHeld 4 = false ∧ s.boot.fromLane = false ∧ k = (s.psStored
      576).toNat % 2) ∧
    (∃ (s : State), s.boot.state = 2 ∧ s.domHeld 4 = false ∧ s.boot.lastReq = none) ∧
    (∃ (s : State) (t : Nat), s.boot.state = 2 ∧ s.domHeld 4 = false ∧ s.boot.lastReq = some t) ∧
    (∃ (s : State) (off : Nat) (data : List Byte), s.boot.state = 2 ∧ s.domHeld 4 = false ∧ off + data.length ≤ 24576
      ∧ (imagePut s.boot off data).received = none) ∧
    (∃ (s : State) (off : Nat) (data img : List Byte), s.boot.state = 2 ∧ s.domHeld 4 = false ∧ off + data.length ≤
      24576 ∧ (imagePut s.boot off data).received = some img) ∧
    (∃ (s : State), s.fwRuns = true ∧ s.boot.wdogCtl.bit 16 = true) ∧
    (∃ (s : State) (w : Word), s.fwRuns = true ∧ s.boot.wdogWritten = false ∧ s.boot.wdogStage = 0 ∧ 10 ≤ w.bits 15
      0) ∧
    (∃ (s : State) (w : Word), (s.boot.wdogWritten = true ∨ s.boot.wdogStage ≠ 0 ∨ w.bits 15 0 < 10)) ∧
    (∃ (s : State), s.boot.running = true ∧ s.boot.wdogCtl.bit 16 = true ∧ s.rst.phase = .run ∧ s.boot.wdogStage = 0) :=
  ⟨⟨(r0.modBoot (fun x => { x with fromLane := true })), by decide, by decide, by decide⟩,
   ⟨r0, _, by decide, by decide, by decide, rfl⟩,
   ⟨(r0.modBoot (fun x => { x with state := 2 })), by decide, by decide, by decide⟩,
   ⟨(r0.modBoot (fun x => { x with state := 2, lastReq := some 0 })), 0, by decide, by decide, by decide⟩,
   ⟨(r0.modBoot (fun x => { x with state := 2 })), 24575, [0], by decide, by decide, by decide, by decide⟩,
   ⟨(r0.modBoot (fun x => { x with state := 2 })), 0, [7], [7], by decide, by decide, by decide, by decide⟩,
   ⟨fw, by decide, by decide⟩,
   ⟨fw, 10, by decide, by decide, by decide, by decide⟩,
   ⟨r0, 9, by decide⟩,
   ⟨fw, by decide, by decide, by decide, by decide⟩⟩

theorem witness_GalleryFaults :
    (∃ (s : State) (g : Nat), s.galRuns g = true ∧ (s.gal g).ceHour + 1 < s.rbits Reg.ERR_CFG 15 0) ∧
    (∃ (s : State) (g : Nat), s.galRuns g = true) ∧
    (∃ (s : State) (g det : Nat), s.galRuns g = true ∧ 1 ≤ det ∧ det ≤ 3) ∧
    (∃ (s : State) (g : Nat), s.galRuns g = false) ∧
    (∃ (s : State) (g t : Nat), s.err.spareTest = some (g, t) ∧ s.rst.phase = .run) ∧
    (∃ (s : State), (s.reg Reg.ERR_INJECT).bit 31 = true ∧ s.galRuns (s.rbits Reg.ERR_INJECT 6 2) = true ∧ (s.reg
      Reg.ERR_INJECT).bits 1 0 = 1) ∧
    (∃ (s : State), (s.reg Reg.ERR_INJECT).bit 31 = true ∧ s.galRuns (s.rbits Reg.ERR_INJECT 6 2) = true ∧ (s.reg
      Reg.ERR_INJECT).bits 1 0 = 2) ∧
    (∃ (s : State), (s.reg Reg.ERR_INJECT).bit 31 = true ∧ s.galRuns (s.rbits Reg.ERR_INJECT 6 2) = true ∧ (s.reg
      Reg.ERR_INJECT).bits 1 0 = 3) ∧
    (∃ (s : State), (s.reg Reg.ERR_INJECT).bit 31 = false) ∧
    (∃ (s : State), s.domHeld 1 = false) :=
  ⟨⟨r0, 0, by decide, by decide⟩,
   ⟨r0, 15, by decide⟩,
   ⟨r0, 15, 3, by decide, by decide, by decide⟩,
   ⟨r0, 16, by decide⟩,
   ⟨(r0.modErr (fun e => { e with spareTest := some (16, 0) })), 16, 0, by decide, by decide⟩,
   ⟨(r0.setReg Reg.ERR_INJECT 0x8000003D), by decide, by decide, by decide⟩,
   ⟨(r0.setReg Reg.ERR_INJECT 0x8000003E), by decide, by decide, by decide⟩,
   ⟨(r0.setReg Reg.ERR_INJECT 0x8000003F), by decide, by decide, by decide⟩,
   ⟨r0, by decide⟩,
   ⟨r0, by decide⟩⟩

theorem witness_DrainAndFenceRegisters :
    (∃ (s : State), s.domHeld 1 = false) ∧
    (∃ (s : State) (path : Path) (w : Word), s.domHeld 1 = false ∧ s.laneRefused path = false ∧ w.bits 31 16 =
      0xD3A1) ∧
    (∃ (s : State) (path : Path) (w : Word), s.laneRefused path = false ∧ w.bits 31 16 ≠ 0xD3A1) ∧
    (∃ (s : State), (s.err.drain = .draining ∨ s.err.drain = .drained)) ∧
    (∃ (s : State) (path : Path) (w : Word), s.domHeld 1 = false ∧ s.laneRefused path = false ∧ w.bits 31 16 = 0x5EC7
      ∧ w.bits 4 0 ≤ 17 ∧ (s.gal (w.bits 4 0)).fenced = false ∧ 8 ≤ s.servingWithout (w.bits 4 0)) ∧
    (∃ (s : State) (path : Path) (w : Word), s.domHeld 1 = false ∧ (s.laneRefused path = true ∨ w.bits 31 16 ≠ 0x5EC7
      ∨ 17 < w.bits 4 0 ∨ (s.gal (w.bits 4 0)).fenced = true ∨ s.servingWithout (w.bits 4 0) < 8)) ∧
    (∃ (s : State) (path : Path), s.domHeld 1 = false ∧ s.laneRefused path = true) ∧
    (∃ (s : State), s.domHeld 1 = false) ∧
    (∃ (s : State), s.rst.phase = .run ∧ s.err.drain = .draining ∧ s.conc.items = [] ∧ s.selftest = none ∧ (∀ o ∈
      s.conc.ops, o.kind = .drain)) ∧
    (∃ (s : State), (s.err.drain ≠ .draining ∨ s.conc.items ≠ [])) :=
  ⟨⟨r0, by decide⟩,
   ⟨r0, .bar, 0xD3A10000, by decide, by decide, by decide⟩,
   ⟨r0, .bar, 0, by decide, by decide⟩,
   ⟨(r0.modErr (fun e => { e with drain := .draining })), by decide⟩,
   ⟨{ r0 with gals := List.replicate 9 (Gal.reset true) ++ List.replicate 9 (Gal.reset false) }, .bar, 0x5EC70000, by
     decide, by decide, by decide, by decide, by decide, by decide⟩,
   ⟨r0, .bar, 0x5EC70012, by decide, by decide⟩,
   ⟨r0, .lane, by decide, by decide⟩,
   ⟨r0, by decide⟩,
   ⟨(r0.modErr (fun e => { e with drain := .draining })), by decide, by decide, by decide, by decide, by decide⟩,
   ⟨r0, by decide⟩⟩

theorem witness_SelfTestRows :
    (∃ (s : State) (t : SelfTest) (kind u : Nat), s.selftest = some t ∧ t.cur = some (kind, u) ∧ s.rst.phase = .run ∧
      (kind ≠ 0 ∨ ((t.started ≠ none ∨ s.galIdle u = true) ∧ (s.gal u).fenced = false))) ∧
    (∃ (s : State), ∃ (kind code : Nat), ∃ t, code ≠ 0 ∧ kind ≠ 2 ∧ s.selftest = some t) ∧
    (∃ (s : State) (t : SelfTest) (u : Nat), s.selftest = some t ∧ t.cur = some (0, u) ∧ s.rst.phase = .run ∧
      (t.started ≠ none ∨ s.galIdle u = true) ∧ (s.gal u).fenced = true) ∧
    (∃ (s : State) (t : SelfTest) (u : Nat), s.selftest = some t ∧ t.cur = some (0, u) ∧ s.rst.phase = .run ∧
      t.started = none ∧ s.galIdle u = false) ∧
    (∃ (s : State) (t : SelfTest) (u : Nat), s.selftest = some t ∧ t.cur = some (0, u) ∧ t.started ≠ none) ∧
    (∃ (s : State), s.selftest = none) :=
  ⟨⟨(testing 0 0 (some 0)), (aTest 0 0 (some 0)), 0, 0, by decide, by decide, by decide, by decide⟩,
   ⟨(testing 0 0 (some 0)), 1, 7, (aTest 0 0 (some 0)), by decide, by decide, by decide⟩,
   ⟨((testing 0 0 (some 0)).modGal 0 (fun g => { g with fenced := true })), (aTest 0 0 (some 0)), 0, by decide, by
     decide, by decide, by decide, by decide⟩,
   ⟨((testing 0 0 none).modGal 0 (fun g => { g with working := some 0 })), (aTest 0 0 none), 0, by decide, by decide,
     by decide, by decide, by decide⟩,
   ⟨(testing 0 0 (some 0)), (aTest 0 0 (some 0)), 0, by decide, by decide, by decide⟩,
   ⟨r0, by decide⟩⟩

theorem witness_RecordsAndTelemetry :
    (∃ (s : State), s.domHeld 1 = false ∧ s.err.sent < s.err.seq) ∧
    (∃ (s : State), s.err.seq ≤ s.err.sent) ∧
    (∃ (s : State), s.fwRuns = true ∧ s.conc.teleCount + 1 < 2 ^ s.conc.decim) ∧
    (∃ (s : State), s.fwRuns = true ∧ 2 ^ s.conc.decim ≤ s.conc.teleCount + 1) ∧
    (∃ (s : State), s.domHeld 4 = false) ∧
    (∃ (s : State) (pre post : List MgmtOp) (p : MqPkt) (kind u t : Nat), s.conc.ops = pre ++
      { pkt := p, kind := .unitReset kind u t } :: post ∧ (∀ o ∈ pre, ∀ k v w, o.kind ≠ .unitReset k v w) ∧ kind ≠ 3) ∧
    (∃ (s : State) (pre post : List MgmtOp) (p : MqPkt) (u t : Nat), s.conc.ops = pre ++
      { pkt := p, kind := .unitReset 3 u t } :: post ∧ (∀ o ∈ pre, ∀ k v w, o.kind ≠ .unitReset k v w)) :=
  ⟨⟨(r0.modErr (fun e => { e with seq := 1 })), by decide, by decide⟩,
   ⟨r0, by decide⟩,
   ⟨(fw.modConc (fun c => { c with decim := 1 })), by decide, by decide⟩,
   ⟨fw, by decide, by decide⟩,
   ⟨r0, by decide⟩,
   ⟨(r0.modConc (fun c => { c with ops := [⟨(ctl 0x8042 0 0 0 0 []), .unitReset 2 0 0⟩] })), [], [], (ctl 0x8042 0 0
     0 0 []), 2, 0, 0, by decide, (fun _ h => nomatch h), by decide⟩,
   ⟨(r0.modConc (fun c => { c with ops := [⟨(ctl 0x8042 0 0 0 0 []), .unitReset 3 0 0⟩] })), [], [], (ctl 0x8042 0 0
     0 0 []), 0, 0, by decide, (fun _ h => nomatch h)⟩⟩

theorem witness_RegisterReads :
    (∃ (s : State) (off : Nat), s.regHeld off = false ∧ isLo off = true) ∧
    (∃ (s : State) (off : Nat) (w : Word), s.regHeld off = false ∧ isLo off = false ∧ isHi off = true ∧ mapGet
      s.latch (latchKey .bar off) = some w) ∧
    (∃ (s : State) (off : Nat), (s.regHeld off = true ∨ (isLo off = false ∧ isHi off = false))) ∧
    (∃ (s : State) (off : Nat), s.domHeld 1 = false ∧ s.regHeld off = false) ∧
    (∃ (s : State) (off : Nat), s.domHeld 1 = false ∧ s.regHeld off = true ∧ inBlock off = true) ∧
    (∃ (s : State) (seq off : Nat), s.domHeld 1 = false ∧ s.laneReqs.find? (fun x => x.1 == seq) = some (seq, off) ∧
      s.regHeld off = true) ∧
    (∃ (s : State) (seq off : Nat), s.domHeld 1 = false ∧ s.laneReqs.find? (fun x => x.1 == seq) = some (seq, off) ∧
      s.regHeld off = false) :=
  ⟨⟨r0, Reg.FLT_LANDING_LO, by decide, by decide⟩,
   ⟨{ r0 with latch := [(latchKey .bar Reg.FLT_LANDING_HI, 5)] }, Reg.FLT_LANDING_HI, 5, by decide, by decide, by
     decide, by decide⟩,
   ⟨r0, Reg.ENG_ID, by decide⟩,
   ⟨r0, Reg.ENG_ID, by decide, by decide⟩,
   ⟨(releasing 2 1), Reg.CONC_CTL, by decide, by decide, by decide⟩,
   ⟨{ releasing 2 1 with laneReqs := [(7, Reg.CONC_CTL)] }, 7, Reg.CONC_CTL, by decide, by decide, by decide⟩,
   ⟨{ r0 with laneReqs := [(7, Reg.ENG_ID)] }, 7, Reg.ENG_ID, by decide, by decide, by decide⟩⟩

theorem witness_RegisterWrites :
    (∃ (s : State) (off : Nat), off % 4 = 0 ∧ off < 0x220000 ∧ s.regHeld off = false ∧ s.galDark off = false ∧ isLo
      off = true ∧ regMask off ≠ 0) ∧
    (∃ (s : State) (off : Nat) (v : Word), off % 4 = 0 ∧ off < 0x220000 ∧ s.regHeld off = false ∧ s.galDark off =
      false ∧ isLo off = false ∧ isHi off = true ∧ regMask off ≠ 0 ∧ regNorm (off - 4) ≠ Reg.FLT_LEN_AT_LO ∧ regNorm
      (off - 4) ≠ Reg.GAL_STAT_BASE_LO ∧ s.pairShut (regNorm (off - 4)) = false ∧ mapGet s.heldLo (regNorm (off - 4))
      = some v) ∧
    (∃ (s : State) (v w : Word), s.domHeld 1 = false ∧ mapGet s.heldLo Reg.FLT_LEN_AT_LO = some v ∧ 25 ≤
      s.hall.lenNext ∧ s.hall.lenNext ≤ 6400 ∧ s.hall.landing + 2 ≤ Word.pair v w ∧ (s.hall.sync = .root ∨
      s.hall.sync = .standalone)) ∧
    (∃ (s : State) (v w : Word), s.domHeld 1 = false ∧ mapGet s.heldLo Reg.FLT_LEN_AT_LO = some v ∧ (s.hall.lenNext <
      25 ∨ 6400 < s.hall.lenNext ∨ Word.pair v w < s.hall.landing + 2 ∨ (s.hall.sync ≠ .root ∧ s.hall.sync ≠
      .standalone))) ∧
    (∃ (s : State) (off : Nat) (w : Word), off % 4 = 0 ∧ off < 0x220000 ∧ s.regHeld off = false ∧ s.galDark off =
      false ∧ isLo off = false ∧ isHi off = false ∧ s.writeAct .bar off w = none ∧ s.clearBits off w = none ∧ regMask
      off ≠ 0 ∧ s.writeOk (regNorm off) w = true ∧ s.rst.phase = .run ∧ regNorm off ≠ Reg.XLT_PRI_CFG ∧ (regNorm off
      < Reg.RC_SALT0 ∨ Reg.RC_SALT7 < regNorm off)) ∧
    (∃ (off : Nat), off % 8 = 0) ∧
    (∃ (s : State) (off width : Nat), ((width ≠ 4 ∧ width ≠ 8) ∨ off % width ≠ 0 ∨ (width = 4 ∧ (s.regHeld off = true
      ∨ 0x220000 ≤ off)))) ∧
    (∃ (s : State) (off : Nat), s.domHeld 1 = false ∧ laneWritable off = true) ∧
    (∃ (s : State) (off : Nat), s.domHeld 1 = false ∧ laneWritable off = false) :=
  ⟨⟨r0, Reg.DIR_BASE_LO, by decide, by decide, by decide, by decide, by decide, by decide⟩,
   ⟨{ r0 with heldLo := [(Reg.DIR_BASE_LO, 1)] }, Reg.DIR_BASE_HI, 1, by decide, by decide, by decide, by decide, by
     decide, by decide, by decide, by decide, by decide, by decide, by decide⟩,
   ⟨{ (r0.modHall (fun h => { h with lenNext := 25 })) with heldLo := [(Reg.FLT_LEN_AT_LO, 2)] }, 2, 0, by decide, by
     decide, by decide, by decide, by decide, by decide⟩,
   ⟨{ (r0.modHall (fun h => { h with lenNext := 25 })) with heldLo := [(Reg.FLT_LEN_AT_LO, 1)] }, 1, 0, by decide, by
     decide, by decide⟩,
   ⟨r0, Reg.FLT_AGE, 0, by decide, by decide, by decide, by decide, by decide, by decide, by decide, by decide, by
     decide, by decide, by decide, by decide, by decide⟩,
   ⟨8, by decide⟩,
   ⟨r0, 0, 2, by decide⟩,
   ⟨r0, Reg.HR_GPIO_OUT, by decide, by decide⟩,
   ⟨r0, Reg.CONC_CTL, by decide, by decide⟩⟩

theorem witness_LandingGrid :
    (∃ (s : State), Sane s ∧ s.domHeld 1 = false ∧ s.hall.stepPend = none) ∧
    (∃ (s : State), Sane s ∧ s.domHeld 1 = false ∧ s.hall.stepPend = none ∧ s.hall.lenPend = none) ∧
    (∃ (s : State) (l a : Nat) (t : State), Sane s ∧ s.domHeld 1 = false ∧ s.hall.stepPend = none ∧ s.hall.lenPend =
      some (l, a) ∧ exec .landing s = .next t ∧ a ≤ s.hall.landing + 1 ∧ s.hall.lenHeld = false ∧ t.hall.sync ≠
      .freeLong) ∧
    (∃ (s : State), ∃ l a, Sane s ∧ s.domHeld 1 = false ∧ s.hall.stepPend = none ∧ s.hall.lenPend = some (l, a) ∧
      s.hall.landing + 1 < a) ∧
    (∃ (s : State), s.domHeld 1 = true) :=
  ⟨⟨r0, sane_r0, by decide, by decide⟩,
   ⟨r0, sane_r0, by decide, by decide, by decide⟩,
   ⟨(r0.modHall (fun h => { h with lenPend := some (60, 1) })), 60, 1, _, sane_r0, by decide, by decide, by decide,
     rfl, by decide, by decide, (by decide +kernel)⟩,
   ⟨(r0.modHall (fun h => { h with lenPend := some (60, 2) })), 60, 2, sane_r0, by decide, by decide, by decide, by
     decide⟩,
   ⟨held, by decide⟩⟩

theorem witness_ScheduledActions :
    (∃ (s : State) (x : Sched) (p : MqPkt) (id slot : Nat) (t : Table), x.act = .switch id slot ∧ x.held = false ∧
      x.pkt = some p ∧ s.table id = some t ∧ t.st ≠ .retiring ∧ (t.slot slot).st = .ready) ∧
    (∃ (s : State) (x : Sched) (p : MqPkt) (id target : Nat) (t : Table), x.act = .tableState id target ∧ x.held =
      false ∧ x.pkt = some p ∧ s.table id = some t ∧ t.mayEnter target = true ∧ target ≠ 3) ∧
    (∃ (s : State) (x : Sched) (p : MqPkt) (id : Nat) (t : Table), x.act = .epochBump id ∧ x.held = false ∧ x.pkt =
      some p ∧ s.table id = some t) ∧
    (∃ (t : Table) (slot : Nat), slot ≤ 1 ∧ (t.slot (1 - slot)).st = .current) ∧
    (∃ (s : State) (x : Sched) (p : MqPkt) (id slot : Nat), x.act = .switch id slot ∧ x.held = false ∧ x.pkt = some p
      ∧ s.table id = none) ∧
    (∃ (s : State) (x : Sched) (p : MqPkt) (id target : Nat) (t : Table), x.act = .tableState id target ∧ x.held =
      false ∧ x.pkt = some p ∧ s.table id = some t ∧ t.mayEnter target = false) :=
  ⟨⟨(withTable r0 (aTable .serving .ready .empty)), ⟨5, 0, true, false, .switch 3 0, some (ctl 0x8022 0 0 0 0 [])⟩,
     (ctl 0x8022 0 0 0 0 []), 3, 0, (aTable .serving .ready .empty), by decide, by decide, by decide, by decide, by
     decide, by decide⟩,
   ⟨(withTable r0 (aTable .training .empty .empty)), ⟨5, 0, true, false, .tableState 3 2, some (ctl 0x8022 0 0 0 0
     [])⟩, (ctl 0x8022 0 0 0 0 []), 3, 2, (aTable .training .empty .empty), by decide, by decide, by decide, by
     decide, by decide, by decide⟩,
   ⟨(withTable r0 (aTable .serving .empty .empty)), ⟨5, 0, true, false, .epochBump 3, some (ctl 0x8022 0 0 0 0 [])⟩,
     (ctl 0x8022 0 0 0 0 []), 3, (aTable .serving .empty .empty), by decide, by decide, by decide, by decide⟩,
   ⟨(aTable .serving .ready .current), 0, by decide, by decide⟩,
   ⟨r0, ⟨5, 0, true, false, .switch 3 0, some (ctl 0x8022 0 0 0 0 [])⟩, (ctl 0x8022 0 0 0 0 []), 3, 0, by decide, by
     decide, by decide, by decide⟩,
   ⟨(withTable r0 (aTable .loading .empty .empty)), ⟨5, 0, true, false, .tableState 3 2, some (ctl 0x8022 0 0 0 0
     [])⟩, (ctl 0x8022 0 0 0 0 []), 3, 2, (aTable .loading .empty .empty), by decide, by decide, by decide, by
     decide, by decide⟩⟩

theorem witness_BeaconRows :
    (∃ (s : State), s.hall.sync = .root ∧ s.domHeld 1 = false ∧ s.hall.lastSent = none) ∧
    (∃ (s : State) (l : Nat), s.hall.sync = .root ∧ s.domHeld 1 = false ∧ s.hall.lastSent = some l) ∧
    (∃ (s : State), s.hall.sync ≠ .root) ∧
    (∃ (s : State) (port : Nat) (b : Beacon), s.takesBeacons = true ∧ s.beaconOk port b = true) ∧
    (∃ (s : State) (port : Nat) (b : Beacon), s.takesBeacons = true ∧ s.beaconOk port b = true ∧ port =
      s.hall.root.bits 23 20) ∧
    (∃ (s : State) (port : Nat) (b : Beacon), s.takesBeacons = true ∧ s.beaconOk port b = true ∧ port ≠
      s.hall.root.bits 23 20) ∧
    (∃ (s : State) (port : Nat) (b : Beacon), s.takesBeacons = true ∧ s.beaconOk port b = false) ∧
    (∃ (s : State), s.takesBeacons = false) ∧
    (∃ (s : State) (a b : Nat), s.takesBeacons = true ∧ s.hall.root.bit 28 = true ∧ s.hall.lastActive = some a ∧ (if
      s.hall.upActive then s.hall.lastUp else s.hall.lastAlt) = some b ∧ a < b ∧ max s.now (a + 2000) ≤ b + 2000) ∧
    (∃ (s : State) (t : Nat), s.hall.lastBeacon = some t ∧ s.hall.sync = .synced ∧ s.domHeld 1 = false) ∧
    (∃ (s : State) (t : Nat), s.hall.lastBeacon = some t ∧ s.hall.sync = .free ∧ s.domHeld 1 = false) :=
  ⟨⟨(r0.modHall (fun h => { h with sync := .root })), by decide, by decide, by decide⟩,
   ⟨(r0.modHall (fun h => { h with sync := .root, lastSent := some 3 })), 3, by decide, by decide, by decide⟩,
   ⟨r0, by decide⟩,
   ⟨(r0.modHall (fun h => { h with sync := .synced })), 0, ⟨0, 48, 5, 0, 50, none, true⟩, by decide, by decide⟩,
   ⟨(r0.modHall (fun h => { h with sync := .synced })), 0, ⟨0, 48, 5, 0, 50, none, true⟩, by decide, by decide, by
     decide⟩,
   ⟨(r0.modHall (fun h => { h with sync := .synced, root := 0x11000000 })), 1, ⟨0, 48, 5, 0, 50, none, true⟩, by
     decide, by decide, by decide⟩,
   ⟨(r0.modHall (fun h => { h with sync := .synced })), 0, ⟨0, 49, 5, 0, 50, none, true⟩, by decide, by decide⟩,
   ⟨r0, by decide⟩,
   ⟨(r0.modHall (fun h =>
     { h with sync := .synced, root := 0x11000000, upActive := true, lastUp := some 6, lastAlt := some 5 })), 5, 6,
     by decide, by decide, by decide, by decide, by decide, by decide⟩,
   ⟨(r0.modHall (fun h => { h with lastBeacon := some 0, sync := .synced })), 0, by decide, by decide, by decide⟩,
   ⟨(r0.modHall (fun h => { h with lastBeacon := some 0, sync := .free })), 0, by decide, by decide, by decide⟩⟩

theorem witness_ClockAndFlightRows :
    (∃ (s : State), s.porHeld = false ∧ s.domHeld 1 = false ∧ s.hall.refLost = false ∧ s.hall.sync ≠ .synced) ∧
    (∃ (s : State), s.porHeld = false ∧ s.domHeld 1 = false ∧ s.hall.refLost = false ∧ s.hall.sync = .synced) ∧
    (∃ (s : State), s.porHeld = false ∧ s.domHeld 1 = false ∧ s.hall.refLost = true) ∧
    (∃ (s : State), s.porHeld = false ∧ s.domHeld 1 = false ∧ s.hall.refLost = false) ∧
    (∃ (s : State), s.porHeld = true ∧ s.rst.standby = true ∧ s.rst.porUntil = none) ∧
    (∃ (s : State), s.porHeld = true) ∧
    (∃ (s : State), s.domHeld 1 = false ∧ s.hall.sync ≠ .root) ∧
    (∃ (s : State) (w : Word), s.domHeld 1 = false ∧ s.hall.sync = .root ∧ (w &&& 0x1FF7FFFF).bit 18 = true ∧ (w &&&
      0x1FF7FFFF).bits 17 0 ≠ s.engineId) ∧
    (∃ (s : State), s.rst.phase = .run) ∧
    (∃ (s : State), s.rst.phase = .run ∧ s.active ≠ 2) ∧
    (∃ (s : State), s.rst.phase = .run ∧ s.active = 2) :=
  ⟨⟨r0, by decide, by decide, by decide, by decide⟩,
   ⟨(r0.modHall (fun h => { h with sync := .synced })), by decide, by decide, by decide, by decide⟩,
   ⟨(r0.modHall (fun h => { h with refLost := true })), by decide, by decide, by decide⟩,
   ⟨r0, by decide, by decide, by decide⟩,
   ⟨(r0.modRst (fun r => { r with por := true })), by decide, by decide, by decide⟩,
   ⟨(r0.modRst (fun r => { r with por := true })), by decide⟩,
   ⟨r0, by decide, by decide⟩,
   ⟨(r0.modHall (fun h => { h with sync := .root })), 0x00040001, by decide, by decide, by decide, by decide⟩,
   ⟨r0, by decide⟩,
   ⟨{ r0 with active := 0 }, by decide, by decide⟩,
   ⟨r0, by decide, by decide⟩⟩

theorem witness_FrameArrivals :
    (∃ (s : State) (f : Frame), s.domHeld 1 = false ∧ f.age ≤ 16000) ∧
    (∃ (s : State) (f : Frame), s.rst.phase = .run ∧ f.age ≤ 16000) ∧
    (∃ (s : State) (f : Frame) (i : Instr), s.domHeld 1 = false ∧ 16000 < f.age ∧ isArrival i f = true) ∧
    (∃ (s : State) (f : Frame) (i : Instr), s.domHeld 1 = true ∧ isArrival i f = true) :=
  ⟨⟨r0, aFrame 16000, by decide, by decide⟩,
   ⟨r0, aFrame 16000, by decide, by decide⟩,
   ⟨r0, aFrame 16001, .reply (aFrame 16001), by decide, by decide, by decide⟩,
   ⟨held, aFrame 0, .reply (aFrame 0), by decide, by decide⟩⟩

theorem witness_LinkRows :
    (∃ (s : State), s.domHeld 1 = false) ∧
    (∃ (s : State), s.domHeld 1 = false) ∧
    (∃ (s : State) (port : Nat), s.domHeld 1 = false ∧ (s.port port).up = true) ∧
    (∃ (s : State) (port : Nat), (s.domHeld 1 = true ∨ (s.port port).up = false)) ∧
    (∃ (s : State) (port k : Nat) (h : HeldFrame), s.domHeld 1 = false ∧ (s.port port).up = true ∧ oldestHeld
      ((s.port port).held.take portWindow) 0 none = some (k, h) ∧ 8 ≤ h.tries) ∧
    (∃ (s : State) (port k : Nat) (h : HeldFrame), s.domHeld 1 = false ∧ (s.port port).up = true ∧ oldestHeld
      ((s.port port).held.take portWindow) 0 none = some (k, h) ∧ h.tries < 8) ∧
    (∃ (s : State), s.domHeld 1 = false) ∧
    (∃ (s : State) (port : Nat), s.domHeld 1 = false ∧ (s.port port).lit = true ∧ (s.port port).up = false) ∧
    (∃ (s : State) (port : Nat), ((s.port port).lit = false ∨ (s.port port).up = true)) ∧
    (∃ (s : State) (port : Nat), s.domHeld 1 = false ∧ (s.port port).up = true) :=
  ⟨⟨r0, by decide⟩,
   ⟨r0, by decide⟩,
   ⟨(r0.modPort 0 (fun p => { p with up := true })), 0, by decide, by decide⟩,
   ⟨r0, 0, by decide⟩,
   ⟨(r0.modPort 0 (fun p => { p with up := true, held := [⟨aFrame 0, false, 0, 8⟩] })), 0, 0, ⟨aFrame 0, false, 0,
     8⟩, by decide, by decide, by decide, by decide⟩,
   ⟨(r0.modPort 0 (fun p => { p with up := true, held := [⟨aFrame 0, false, 0, 7⟩] })), 0, 0, ⟨aFrame 0, false, 0,
     7⟩, by decide, by decide, by decide, by decide⟩,
   ⟨r0, by decide⟩,
   ⟨(r0.modPort 0 (fun p => { p with lit := true })), 0, by decide, by decide, by decide⟩,
   ⟨r0, 0, by decide⟩,
   ⟨(r0.modPort 0 (fun p => { p with up := true })), 0, by decide, by decide⟩⟩

theorem witness_TetherRows :
    (∃ (s : State) (slot : Nat) (t : Tether), s.slotIn slot .held = some t) ∧
    (∃ (s : State) (slot : Nat) (t : Tether), s.slotIn slot .busy = some t) ∧
    (∃ (s : State) (u : Nat), s.kite.quarAll = some u) ∧
    (∃ (s : State) (slot : Nat) (t : Tether), s.kite.quarAll = none ∧ s.slotIn slot .quar = some t) ∧
    (∃ (s : State) (id : Nat) (v : Served), s.servedOf id = some v ∧ v.item = none) ∧
    (∃ (s : State) (id : Nat) (v : Served), s.servedOf id = some v ∧ v.item ≠ none) ∧
    (∃ (s : State) (n : Nat), s.slotIn n .held = none) ∧
    (∃ (s : State) (n : Nat), s.slotIn n .busy = none) ∧
    (∃ (s : State) (n : Nat), s.kite.quarAll = none ∧ s.slotIn n .quar = none) ∧
    (∃ (s : State) (n : Nat), s.servedOf n = none) :=
  ⟨⟨(r0.modKite (fun k => { k with tethers := [(3, ⟨0, .held, 0, 0, [], .upd 0 0 0⟩)] })), 3, ⟨0, .held, 0, 0, [],
     .upd 0 0 0⟩, by decide⟩,
   ⟨(r0.modKite (fun k => { k with tethers := [(3, ⟨0, .busy, 0, 0, [], .upd 0 0 0⟩)] })), 3, ⟨0, .busy, 0, 0, [],
     .upd 0 0 0⟩, by decide⟩,
   ⟨(r0.modKite (fun k => { k with quarAll := some 9 })), 9, by decide⟩,
   ⟨(r0.modKite (fun k => { k with tethers := [(3, ⟨0, .quar, 0, 0, [], .upd 0 0 0⟩)] })), 3, ⟨0, .quar, 0, 0, [],
     .upd 0 0 0⟩, by decide, by decide⟩,
   ⟨(r0.modKite (fun k =>
     { k with served := [⟨4, aFrame 0, 0, [], 0, false, 0, false, none, false, false, none⟩] })), 4, ⟨4, aFrame 0, 0,
     [], 0, false, 0, false, none, false, false, none⟩, by decide, by decide⟩,
   ⟨(r0.modKite (fun k =>
     { k with served := [⟨4, aFrame 0, 0, [], 0, false, 0, false, none, false, false, some 1⟩] })), 4, ⟨4, aFrame 0,
     0, [], 0, false, 0, false, none, false, false, some 1⟩, by decide, by decide⟩,
   ⟨r0, 0, by decide⟩,
   ⟨r0, 0, by decide⟩,
   ⟨r0, 0, by decide, by decide⟩,
   ⟨r0, 0, by decide⟩⟩

theorem witness_UpdateRows :
    (∃ (s : State), s.domHeld 6 = false) ∧
    (∃ (s : State), s.domHeld 6 = true) ∧
    (∃ (s : State) (v : Served), s.kite.inbox.head?.bind s.servedOf = some v) ∧
    (∃ (s : State), s.kite.inbox.head?.bind s.servedOf = none) ∧
    (∃ (s : State) (t : Nat), firstExpiry s.kite.ledger = some t) ∧
    (∃ (s : State), firstExpiry s.kite.ledger = none) ∧
    (∃ (s : State) (t : Nat), s.kite.nackUntil = some t) ∧
    (∃ (s : State), s.kite.nackUntil = none) :=
  ⟨⟨r0, by decide⟩,
   ⟨held, by decide⟩,
   ⟨(r0.modKite (fun k =>
     { k with served := [⟨4, aFrame 0, 0, [], 0, false, 0, false, none, false, false, none⟩], inbox := [4] })), ⟨4,
     aFrame 0, 0, [], 0, false, 0, false, none, false, false, none⟩, by decide⟩,
   ⟨r0, by decide⟩,
   ⟨(r0.modKite (fun k => { k with ledger := [⟨0, 0, 0, 0, 0, 8, 0⟩] })), 8, by decide⟩,
   ⟨r0, by decide⟩,
   ⟨(r0.modKite (fun k => { k with nackUntil := some 9 })), 9, by decide⟩,
   ⟨r0, by decide⟩⟩

theorem witness_CacheMaintenance :
    (∃ (s : State), ∃ (op : MntOp), ∃ i, s.domHeld 3 = false ∧ 16 ≤ s.rc.queue.length ∧ mntOpOf s i = some op) ∧
    (∃ (s : State), ∃ (op : MntOp), ∃ i, s.domHeld 3 = false ∧ s.rc.queue.length < 16 ∧ s.rc.overflow = [] ∧
      s.rc.running ≠ none ∧ mntOpOf s i = some op) ∧
    (∃ (s : State), ∃ (op : MntOp), ∃ i, s.domHeld 3 = true ∧ mntOpOf s i = some op) ∧
    (∃ (s : State), s.domHeld 3 = false ∧ s.rc.queue.length < 16) ∧
    (∃ (s : State), s.domHeld 3 = false) ∧
    (∃ (s : State), s.rc.running = none) :=
  ⟨⟨(r0.modRc (fun c => { c with queue := List.replicate 16 ⟨0, .nop, false⟩ })), .nop, .mntNop, by decide, by
     decide, by decide⟩,
   ⟨r0, .all, .invAll, by decide, by decide, by decide, by decide, by decide⟩,
   ⟨held, .all, .invAll, by decide, by decide⟩,
   ⟨r0, by decide, by decide⟩,
   ⟨r0, by decide⟩,
   ⟨(r0.modRc (fun c => { c with running := none })), by decide⟩⟩

theorem witness_CacheControl :
    (∃ (s : State), s.domHeld 3 = false ∧ (s.reg Reg.RC_CTL).bit 0 = true) ∧
    (∃ (s : State) (w : Word), s.domHeld 3 = false ∧ (s.reg Reg.RC_CTL).bit 0 = false ∧ w.bit 1 = true ∧
      s.rc.saltDirty = false) ∧
    (∃ (s : State) (w : Word), s.domHeld 3 = false ∧ (s.reg Reg.RC_CTL).bit 0 = false ∧ (w.bit 1 = false ∨
      s.rc.saltDirty = true)) ∧
    (∃ (s : State), s.domHeld 3 = false) ∧
    (∃ (s : State) (w : Word), (8 < w.bits 3 0 ∨ s.dir.tables.any (fun x => x.2.pin) = true)) ∧
    (∃ (s : State) (w : Word), s.domHeld 3 = false ∧ w.bits 3 0 ≤ 8 ∧ s.dir.tables.any (fun x => x.2.pin) = false ∧
      s.rbits Reg.RC_PIN 3 0 < w.bits 3 0) ∧
    (∃ (s : State) (w : Word), s.domHeld 3 = false ∧ w.bits 3 0 ≤ 8 ∧ s.dir.tables.any (fun x => x.2.pin) = false ∧
      w.bits 3 0 ≤ s.rbits Reg.RC_PIN 3 0) ∧
    (∃ (s : State) (n : Nat) (m : RcMiss), s.rst.phase = .run ∧ s.rc.misses.find? (fun m => m.id == n) = some m) ∧
    (∃ (s : State) (n : Nat), s.rc.misses.find? (fun m => m.id == n) = none) :=
  ⟨⟨r0, by decide, by decide⟩,
   ⟨(r0.setReg Reg.RC_CTL 0), 2, by decide, by decide, by decide, by decide⟩,
   ⟨(r0.setReg Reg.RC_CTL 0), 0, by decide, by decide, by decide⟩,
   ⟨r0, by decide⟩,
   ⟨r0, 9, by decide⟩,
   ⟨r0, 8, by decide, by decide, by decide, by decide⟩,
   ⟨r0, 0, by decide, by decide, by decide, by decide⟩,
   ⟨(r0.modRc (fun c => { c with misses := [⟨0, 0, 0, ⟨0, 0, 0, 0⟩, 0, 0, false, false, []⟩] })), 0, ⟨0, 0, 0, ⟨0, 0,
     0, 0⟩, 0, 0, false, false, []⟩, by decide, by decide⟩,
   ⟨r0, 0, by decide⟩⟩

theorem witness_GalleryRows :
    (∃ (s : State), s.domHeld 5 = false) ∧
    (∃ (s : State) (g : Nat), s.domHeld 5 = false ∧ (s.gal g).pend = []) ∧
    (∃ (s : State), s.domHeld 5 = false ∧ (s.reg Reg.GAL_STAT_BASE_HI).bit 31 = false) ∧
    (∃ (s : State), s.rst.phase = .run) ∧
    (∃ (s : State), s.rst.phase = .run) ∧
    (∃ (s : State), s.rst.phase ≠ .run) :=
  ⟨⟨r0, by decide⟩,
   ⟨r0, 0, by decide, by decide⟩,
   ⟨r0, by decide, by decide⟩,
   ⟨r0, by decide⟩,
   ⟨r0, by decide⟩,
   ⟨held, by decide⟩⟩

theorem witness_ConcourseRows :
    (∃ (s : State), s.rst.phase = .run) ∧
    (∃ (s : State), s.rst.phase = .run ∧ (s.reg Reg.CONC_CTL).bit 0 = false) ∧
    (∃ (s : State), s.rst.phase = .run ∧ (s.reg Reg.CONC_CTL).bit 0 = true) ∧
    (∃ (s : State), s.rst.phase ≠ .run) ∧
    (∃ (s : State), s.rst.phase = .run) ∧
    (∃ (s : State) (n : Nat) (i : Item), s.item n = some i ∧ i.cls = 2 ∧ s.rbits Reg.FLT_AGE 15 0 ≠ 0 ∧ i.accLanding
      + s.rbits Reg.FLT_AGE 15 0 ≤ s.hall.landing) ∧
    (∃ (s : State) (n : Nat) (i : Item), s.item n = some i ∧ (i.cls ≠ 2 ∨ s.rbits Reg.FLT_AGE 15 0 = 0 ∨
      s.hall.landing < i.accLanding + s.rbits Reg.FLT_AGE 15 0)) ∧
    (∃ (s : State) (n : Nat) (i : Item), s.item n = some i ∧ i.cls0 = 2 ∧ i.cls ≠ 0 ∧ i.due ≤ s.hall.landing + 2) ∧
    (∃ (s : State) (n : Nat) (i : Item), s.item n = some i ∧ (i.cls0 ≠ 2 ∨ i.cls = 0 ∨ s.hall.landing + 2 < i.due)) ∧
    (∃ (s : State) (n since : Nat) (r : CmdRing) (q : CplRing), s.ring n = some r ∧ r.wait = .cq since ∧ mapGet
      s.conc.cpl r.cq = some q ∧ since + 16 ≤ s.hall.landing ∧ q.advised = false ∧ 1 ≤ q.free) ∧
    (∃ (s : State) (n since : Nat) (r : CmdRing) (q : CplRing), s.ring n = some r ∧ r.wait = .cq since ∧ mapGet
      s.conc.cpl r.cq = some q ∧ (s.hall.landing < since + 16 ∨ q.advised = true ∨ q.free = 0)) :=
  ⟨⟨r0, by decide⟩,
   ⟨r0, by decide, by decide⟩,
   ⟨(r0.setReg Reg.CONC_CTL 1), by decide, by decide⟩,
   ⟨held, by decide⟩,
   ⟨r0, by decide⟩,
   ⟨(((r0.modConc (fun c => { c with items := [{ anItem with cls := 2, accLanding := 0 }] })).modHall (fun h =>
     { h with landing := 1 })).setReg Reg.FLT_AGE 1), 0, { anItem with cls := 2, accLanding := 0 }, by decide, by
     decide, by decide, by decide⟩,
   ⟨(((r0.modConc (fun c => { c with items := [{ anItem with cls := 2, accLanding := 0 }] })).modHall (fun h =>
     { h with landing := 0 })).setReg Reg.FLT_AGE 1), 0, { anItem with cls := 2, accLanding := 0 }, by decide, by
     decide⟩,
   ⟨((r0.modConc (fun c => { c with items := [{ anItem with cls := 2, cls0 := 2, due := 2 }] })).modHall (fun h =>
     { h with landing := 0 })), 0, { anItem with cls := 2, cls0 := 2, due := 2 }, by decide, by decide, by decide, by
     decide⟩,
   ⟨((r0.modConc (fun c => { c with items := [{ anItem with cls := 2, cls0 := 2, due := 3 }] })).modHall (fun h =>
     { h with landing := 0 })), 0, { anItem with cls := 2, cls0 := 2, due := 3 }, by decide, by decide⟩,
   ⟨((r0.modConc (fun c => { c with cmd := [(1, { aCmd with wait := .cq 0 })], cpl := [(0, aCpl)] })).modHall (fun h
     => { h with landing := 16 })), 1, 0, { aCmd with wait := .cq 0 }, aCpl, by decide, by decide, by decide, by
     decide, by decide, by decide⟩,
   ⟨((r0.modConc (fun c => { c with cmd := [(1, { aCmd with wait := .cq 0 })], cpl := [(0, aCpl)] })).modHall (fun h
     => { h with landing := 15 })), 1, 0, { aCmd with wait := .cq 0 }, aCpl, by decide, by decide, by decide, by
     decide⟩⟩

theorem witness_HostMemory :
    (∃ (off len : Nat) (data : List Byte), memLimit < off + data.length ∧ memLimit < off + len) ∧
    (∃ (off : Nat), memLimit ≤ off) ∧
    (∃ (s : State) (off : Nat) (data : List Byte), off + data.length ≤ memLimit ∧ s.domHeld 2 = false ∧
      s.rangeBlocked off data.length = false ∧ (s.takeTokens off data.length (s.hostPart off)).2 = true) ∧
    (∃ (s : State) (off len : Nat), off + len ≤ memLimit ∧ s.domHeld 2 = false ∧ s.rangeBlocked off len = false ∧
      (s.takeTokens off len (s.hostPart off)).2 = true) ∧
    (∃ (s : State) (off : Nat) (data : List Byte), off + data.length ≤ memLimit ∧ s.domHeld 2 = false ∧
      s.rangeBlocked off data.length = false ∧ (s.takeTokens off data.length (s.hostPart off)).2 = false) ∧
    (∃ (s : State) (off : Nat) (data : List Byte), off + data.length ≤ memLimit ∧ (s.domHeld 2 = true ∨
      s.rangeBlocked off data.length = true)) ∧
    (∃ (s : State) (off : Nat) (data : List Byte), Sane s ∧ off + data.length ≤ memLimit ∧ s.domHeld 2 = false ∧
      s.rangeBlocked off data.length = false ∧ (s.takeTokens off data.length (s.hostPart off)).2 = true ∧ data ≠ [] ∧
      off % 64 + data.length ≤ 64 ∧ s.stw.poison.contains (off / 64) = false ∧ s.kite.comb = [] ∧ (∀ c ∈ s.stw.cols,
      c.test = none)) ∧
    (∃ (s : State), ∃ (off : Nat), ∃ (data : List Byte), ∃ a, Sane s ∧ off + data.length ≤ memLimit ∧ s.domHeld 2 =
      false ∧ s.rangeBlocked off data.length = false ∧ (s.takeTokens off data.length (s.hostPart off)).2 = true ∧
      data ≠ [] ∧ off % 64 + data.length ≤ 64 ∧ s.stw.poison.contains (off / 64) = false ∧ s.kite.comb = [] ∧ (∀ c ∈
      s.stw.cols, c.test = none) ∧ (a < off ∨ off + data.length ≤ a)) ∧
    (∃ (s : State), ∃ (off : Nat), ∃ (data : List Byte), ∃ i, Sane s ∧ off + data.length ≤ memLimit ∧ s.domHeld 2 =
      false ∧ s.rangeBlocked off data.length = false ∧ (s.takeTokens off data.length (s.hostPart off)).2 = true ∧
      data ≠ [] ∧ off % 64 + data.length ≤ 64 ∧ s.stw.poison.contains (off / 64) = false ∧ s.kite.comb = [] ∧ (∀ c ∈
      s.stw.cols, c.test = none) ∧ i < data.length) :=
  ⟨⟨memLimit, 1, [0], by decide, by decide⟩,
   ⟨memLimit, by decide⟩,
   ⟨r0, 0, [1], by decide, by decide, by decide, by decide⟩,
   ⟨r0, 0, 1, by decide, by decide, by decide, by decide⟩,
   ⟨(r0.setReg (selKey (stwReg 0 Reg.STW_REG_CFG) 0) 0x80000000), 0, [1], by decide, by decide, by decide, by decide⟩,
   ⟨held, 0, [1], by decide, by decide⟩,
   ⟨r0, 0, [1], sane_r0, by decide, by decide, by decide, by decide, by decide, by decide, by decide, by decide, by
     decide⟩,
   ⟨r0, 0, [1], 1, sane_r0, by decide, by decide, by decide, by decide, by decide, by decide, by decide, by decide,
     by decide, by decide⟩,
   ⟨r0, 0, [1], 0, sane_r0, by decide, by decide, by decide, by decide, by decide, by decide, by decide, by decide,
     by decide, by decide⟩⟩

theorem witness_ColumnRows :
    (∃ (s : State) (k : Nat), s.colHeld k = false) ∧
    (∃ (s : State) (off : Nat), off < memLimit ∧ scrubs s (dramOf (off / 64 * 64)).column = true ∧
      s.stw.poison.contains (off / 64) = false) ∧
    (∃ (s : State) (off : Nat), off < memLimit ∧ scrubs s (dramOf (off / 64 * 64)).column = true ∧
      s.stw.poison.contains (off / 64) = false) ∧
    (∃ (s : State) (off : Nat), off < memLimit ∧ scrubs s (dramOf (off / 64 * 64)).column = false) ∧
    (∃ (s : State) (k : Nat), s.colHeld k = false) ∧
    (∃ (s : State) (k p : Nat) (r : List Nat), s.colHeld k = false ∧ (s.col k).remapBusy = p :: r) ∧
    (∃ (s : State) (k : Nat), (s.col k).remapBusy = []) ∧
    (∃ (s : State) (k : Nat), s.colHeld k = false) ∧
    (∃ (s : State) (k part : Nat) (w : Word), s.colHeld k = false ∧ s.reg (selKey (stwReg k Reg.STW_REG_CFG) part) =
      w ∧ w.bit 31 = true) ∧
    (∃ (s : State) (k : Nat) (w : Word), s.colHeld k = false ∧ w.bit 31 = true ∧ ((s.reg Reg.CONC_CTL).bit 0 = true ∨
      s.dir.tables ≠ [] ∨ (s.col k).test ≠ none ∨ w.bits 1 0 = 3)) ∧
    (∃ (s : State) (k : Nat) (w : Word), s.colHeld k = false ∧ w.bit 31 = true ∧ (s.reg Reg.CONC_CTL).bit 0 = false ∧
      s.dir.tables = [] ∧ (s.col k).test = none ∧ w.bits 1 0 ≠ 3) ∧
    (∃ (s : State) (k : Nat) (w : Word), s.colHeld k = false ∧ (s.col k).test = some w) ∧
    (∃ (s : State) (k : Nat), (s.col k).test = none) :=
  ⟨⟨r0, 3, by decide⟩,
   ⟨(r0.setReg (stwReg 0 Reg.STW_CTL) 1), 0, by decide, by decide, by decide⟩,
   ⟨(r0.setReg (stwReg 0 Reg.STW_CTL) 1), 0, by decide, by decide, by decide⟩,
   ⟨held, 0, by decide, by decide⟩,
   ⟨r0, 3, by decide⟩,
   ⟨(r0.modCol 3 (fun c => { c with remapBusy := [5] })), 3, 5, [], by decide, by decide⟩,
   ⟨r0, 3, by decide⟩,
   ⟨r0, 3, by decide⟩,
   ⟨(r0.setReg (selKey (stwReg 0 Reg.STW_REG_CFG) 0) 0x80000000), 0, 0, 0x80000000, by decide, by decide, by decide⟩,
   ⟨r0, 0, 0x80000003, by decide, by decide, by decide⟩,
   ⟨r0, 3, 0x80000000, by decide, by decide, by decide, by decide, by decide, by decide⟩,
   ⟨(r0.modCol 0 (fun c => { c with test := some 5 })), 0, 5, by decide, by decide⟩,
   ⟨r0, 0, by decide⟩⟩

theorem witness_HostReads :
    (∃ (s : State) (n : Nat) (a : HAcc) (data : List Byte), s.issuedRead n = some a ∧ data.length = a.len) ∧
    (∃ (s : State) (n : Nat) (a : HAcc), s.issuedRead n = some a) ∧
    (∃ (s : State) (n : Nat) (a : HAcc) (data : List Byte), s.issuedRead n = some a ∧ data.length ≠ a.len) ∧
    (∃ (s : State) (n : Nat), s.issuedRead n = none) ∧
    (∃ (s : State) (n seq k : Nat) (a : HAcc), s.issuedRead n = some a ∧ a.purpose = .cpyRead seq k) ∧
    (∃ (s : State) (n : Nat) (a : HAcc), s.issuedRead n = some a ∧ (∀ seq k, a.purpose ≠ .cpyRead seq k)) ∧
    (∃ (s : State), s.domHeld 4 = false) ∧
    (∃ (s : State), s.domHeld 4 = true) :=
  ⟨⟨(r0.modXlt (fun x => { x with accs := [⟨3, 0, 0, none, 0, 1, none, [], .tail 0, true, false, false, []⟩] })), 3,
     ⟨3, 0, 0, none, 0, 1, none, [], .tail 0, true, false, false, []⟩, [0], by decide, by decide⟩,
   ⟨(r0.modXlt (fun x => { x with accs := [⟨3, 0, 0, none, 0, 1, none, [], .tail 0, true, false, false, []⟩] })), 3,
     ⟨3, 0, 0, none, 0, 1, none, [], .tail 0, true, false, false, []⟩, by decide⟩,
   ⟨(r0.modXlt (fun x => { x with accs := [⟨3, 0, 0, none, 0, 1, none, [], .tail 0, true, false, false, []⟩] })), 3,
     ⟨3, 0, 0, none, 0, 1, none, [], .tail 0, true, false, false, []⟩, [], by decide, by decide⟩,
   ⟨r0, 0, by decide⟩,
   ⟨(r0.modXlt (fun x =>
     { x with accs := [⟨3, 0, 0, none, 0, 1, none, [], .cpyRead 1 2, true, false, false, []⟩] })), 3, 1, 2, ⟨3, 0, 0,
     none, 0, 1, none, [], .cpyRead 1 2, true, false, false, []⟩, by decide, by decide⟩,
   ⟨(r0.modXlt (fun x => { x with accs := [⟨3, 0, 0, none, 0, 1, none, [], .tail 0, true, false, false, []⟩] })), 3,
     ⟨3, 0, 0, none, 0, 1, none, [], .tail 0, true, false, false, []⟩, by decide, (fun _ _ h => nomatch h)⟩,
   ⟨r0, by decide⟩,
   ⟨held, by decide⟩⟩

theorem witness_TranslationRows :
    (∃ (s : State) (n : Nat) (a : Ats) (r : AtsReply), s.xlt.ats.find? (fun a => a.id == n && a.sent) = some a ∧
      r.present = true ∧ (if a.write then r.w else r.r) = true) ∧
    (∃ (s : State) (n : Nat), s.xlt.ats.find? (fun a => a.id == n && a.sent) = none) ∧
    (∃ (s : State) (n : Nat) (p : Pri), s.xlt.pri.find? (fun p => p.id == n && p.sent) = some p) ∧
    (∃ (s : State) (n : Nat), s.xlt.pri.find? (fun p => p.id == n && p.sent) = none) ∧
    (∃ (s : State), s.rst.phase = .run) ∧
    (∃ (s : State), s.rst.phase ≠ .run) ∧
    (∃ (s : State), ((s.reg Reg.XLT_HOT_CFG).bit 0 = false ∨ s.rst.phase ≠ .run)) ∧
    (∃ (s : State), (s.reg Reg.XLT_HOT_CFG).bit 0 = true ∧ s.rst.phase = .run ∧ (∀ h ∈ s.xlt.hot, h.count < s.rbits
      Reg.XLT_HOT_CFG 31 16)) :=
  ⟨⟨(r0.modXlt (fun x => { x with ats := [⟨2, 0, 0, true, false, false, 0, true⟩] })), 2, ⟨2, 0, 0, true, false,
     false, 0, true⟩, ⟨true, 4096, 0, false, true⟩, by decide, by decide, by decide⟩,
   ⟨r0, 2, by decide⟩,
   ⟨(r0.modXlt (fun x => { x with pri := [⟨2, 0, 0, false, 0, true⟩] })), 2, ⟨2, 0, 0, false, 0, true⟩, by decide⟩,
   ⟨r0, 2, by decide⟩,
   ⟨r0, by decide⟩,
   ⟨held, by decide⟩,
   ⟨r0, by decide⟩,
   ⟨((r0.setReg Reg.XLT_HOT_CFG 0x00010001).modXlt (fun x => { x with hot := [⟨0, 0, 0, 0, 0, none⟩] })), by decide,
     by decide, by decide⟩⟩

theorem witness_HostLinkRows :
    (∃ (s : State), s.rst.phase = .run ∧ s.xlt.host = .attached) ∧
    (∃ (s : State), s.rst.phase = .run ∧ s.xlt.host = .detached) ∧
    (∃ (s : State), s.rst.phase ≠ .run) ∧
    (∃ (s : State), s.xlt.host = .detached ∧ s.xlt.fresh = true) ∧
    (∃ (s : State), s.xlt.host = .detached ∧ s.xlt.fresh = false) ∧
    (∃ (s : State), s.xlt.host ≠ .detached) :=
  ⟨⟨r0, by decide, by decide⟩,
   ⟨(r0.modXlt (fun x => { x with host := .detached })), by decide, by decide⟩,
   ⟨held, by decide⟩,
   ⟨(r0.modXlt (fun x => { x with host := .detached, fresh := true })), by decide, by decide⟩,
   ⟨(r0.modXlt (fun x => { x with host := .detached })), by decide, by decide⟩,
   ⟨r0, by decide⟩⟩

theorem witness_ControlQueue :
    (∃ (s : State) (i : Instr) (op : Nat), ctlOp i = some op ∧ s.fwRuns = false) ∧
    (∃ (s : State) (i : Instr) (op : Nat) (p : MqPkt), ctlOp i = some op ∧ s.nextControl = some p ∧ p.op ≠ op) ∧
    (∃ (s : State) (i : Instr) (op : Nat), ctlOp i = some op ∧ s.nextControl = none) ∧
    (∃ (s : State) (t : SelfTest), s.selftest = some t) :=
  ⟨⟨r0, .fence 0, 0x8041, by decide, by decide⟩,
   ⟨(turn fw (ctl 0x8000 0 0 0 0 [])), .fence 0, 0x8041, (ctl 0x8000 0 0 0 0 []), by decide, by decide, by decide⟩,
   ⟨fw, .fence 0, 0x8041, by decide, by decide⟩,
   ⟨(testing 0 0 none), (aTest 0 0 none), by decide⟩⟩

theorem witness_ControlTenants :
    (∃ (s : State) (p : MqPkt), Turn s 0x8000 p) ∧
    (∃ (s : State) (p : MqPkt), Turn s 0x8031 p) ∧
    (∃ (s : State) (p : MqPkt) (ns : Nat) (u : State), Turn s 0x8001 p ∧ u = s.mqTake p ns ∧ tenSetBad (p.arg % 4096)
      p.words = none ∧ u.tenOf (p.arg % 4096) = none) ∧
    (∃ (s : State) (p : MqPkt) (ns : Nat) (u : State) (e : Ending), Turn s 0x8001 p ∧ u = s.mqTake p ns ∧ tenSetBad
      (p.arg % 4096) p.words = some e) ∧
    (∃ (s : State) (p : MqPkt) (ns t : Nat) (u v : State) (e : TenEntry), Turn s 0x8002 p ∧ u = s.mqTake p ns ∧ t =
      p.arg % 4096 ∧ t ≠ 0 ∧ u.tenOf t = some e ∧ u.ringsOf t = 0 ∧ u.ctxOf t = 0 ∧ (∀ x ∈ u.dir.tables, x.2.owner ≠
      e.hallId) ∧ v = (match e.bound with | some pasid => u.dropPasid pasid | none => u)) ∧
    (∃ (s : State) (p : MqPkt) (ns : Nat) (u : State) (e : TenEntry), Turn s 0x8004 p ∧ u = s.mqTake p ns ∧ rsvBad
      p.words 8 31 20 = none ∧ nzBad (wordsBytes p.words) 36 64 = none ∧ (∀ x ∈ u.conc.ten, x.1 ≠ p.arg % 4096 →
      x.2.bound ≠ some ((uw p.words 2 0).bits 19 0)) ∧ u.tenOf (p.arg % 4096) = some e ∧ e.pasidValid = false) ∧
    (∃ (s : State) (p : MqPkt) (ns : Nat) (u : State) (e : TenEntry), Turn s 0x8005 p ∧ u = s.mqTake p ns ∧ u.tenOf
      (p.arg % 4096) = some e ∧ e.pasidValid = true ∧ u.ctxOf (p.arg % 4096) = 0 ∧ (∀ x ∈ u.conc.cmd, x.2.tenant =
      p.arg % 4096 → x.2.engine = true) ∧ (∀ x ∈ u.conc.cpl, x.2.tenant = p.arg % 4096 → x.2.engine = true)) ∧
    (∃ (s : State) (p : MqPkt) (ns : Nat) (u : State), u = s.mqTake p ns ∧ u.tenOf (p.arg % 4096) = none ∧ Turn s
      0x8002 p) ∧
    (∃ (s : State) (p : MqPkt) (ns : Nat) (u : State), u = s.mqTake p ns ∧ u.tenOf (p.arg % 4096) = none ∧ Turn s
      0x8005 p) :=
  ⟨⟨(turn fw (ctl 0x8000 0 0 0 0 [])), (ctl 0x8000 0 0 0 0 []), ⟨by decide, by decide, by decide⟩⟩,
   ⟨(turn fw (ctl 0x8031 0 0 0 0 [])), (ctl 0x8031 0 0 0 0 []), ⟨by decide, by decide, by decide⟩⟩,
   ⟨(turn fw (ctl 0x8001 5 0 0 1 [0x01000000])), (ctl 0x8001 5 0 0 1 [0x01000000]), 0, _, ⟨by decide, by decide, by
     decide⟩, rfl, by decide, by decide⟩,
   ⟨(turn fw (ctl 0x8001 5 0 0 1 [])), (ctl 0x8001 5 0 0 1 []), 0, _, badAt 35, ⟨by decide, by decide, by decide⟩,
     rfl, by decide⟩,
   ⟨(turn (fw.modConc (fun c => { c with ten := [(0, .zero), (5, ⟨0x01100005, 0, 0, 0⟩)] })) (ctl 0x8002 5 0 0 0
     [])), (ctl 0x8002 5 0 0 0 []), 0, 5, _, _, ⟨0x01100005, 0, 0, 0⟩, ⟨by decide, by decide, by decide⟩, rfl, by
     decide, (by decide), by decide, by decide, by decide, by decide, rfl⟩,
   ⟨(turn (fw.modConc (fun c => { c with ten := [(0, .zero), (5, ⟨0x01100005, 0, 0, 0⟩)] })) (ctl 0x8004 5 0 0 1
     [7])), (ctl 0x8004 5 0 0 1 [7]), 0, _, ⟨0x01100005, 0, 0, 0⟩, ⟨by decide, by decide, by decide⟩, rfl, by decide,
     by decide, by decide, by decide, by decide⟩,
   ⟨(turn (fw.modConc (fun c => { c with ten := [(0, .zero), (5, ⟨0x01300005, 9, 0, 0⟩)] })) (ctl 0x8005 5 0 0 0
     [])), (ctl 0x8005 5 0 0 0 []), 0, _, ⟨0x01300005, 9, 0, 0⟩, ⟨by decide, by decide, by decide⟩, rfl, by decide,
     by decide, by decide, by decide, by decide⟩,
   ⟨(turn fw (ctl 0x8002 5 0 0 0 [])), (ctl 0x8002 5 0 0 0 []), 0, _, rfl, by decide, ⟨by decide, by decide, by
     decide⟩⟩,
   ⟨(turn fw (ctl 0x8005 5 0 0 0 [])), (ctl 0x8005 5 0 0 0 []), 0, _, rfl, by decide, ⟨by decide, by decide, by
     decide⟩⟩⟩

theorem witness_ControlRings :
    (∃ (s : State) (p : MqPkt) (ns n : Nat) (u : State), Turn s 0x8010 p ∧ u = s.mqTake p ns ∧ ringBad u p.words =
      none ∧ (uw p.words 2 0).bit 0 = true ∧ freeRing (u.conc.cpl.map (·.1)) = some n) ∧
    (∃ (s : State) (p : MqPkt) (ns n : Nat) (u : State), Turn s 0x8010 p ∧ u = s.mqTake p ns ∧ ringBad u p.words =
      none ∧ (uw p.words 2 0).bit 0 = false ∧ freeRing (u.conc.cmd.map (·.1)) = some n) ∧
    (∃ (s : State) (p : MqPkt) (ns : Nat) (u : State) (e : Ending), Turn s 0x8010 p ∧ u = s.mqTake p ns ∧ ringBad u
      p.words = some e) ∧
    (∃ (s : State) (p : MqPkt) (ns : Nat) (u : State) (q : CplRing), Turn s 0x8011 p ∧ u = s.mqTake p ns ∧ p.arg /
      8192 % 2 = 1 ∧ mapGet u.conc.cpl (p.arg % 8192) = some q ∧ (∀ x ∈ u.conc.cmd, x.2.cq ≠ p.arg % 8192)) ∧
    (∃ (s : State) (p : MqPkt) (ns : Nat) (u v : State) (r : CmdRing), Turn s 0x8011 p ∧ u = s.mqTake p ns ∧ p.arg /
      8192 % 2 = 0 ∧ u.ring (p.arg % 8192) = some r ∧ r.destroying = false ∧ v = (u.modCmd (p.arg % 8192) (fun r =>
      { r with destroying := true })).readStops (p.arg % 8192)) ∧
    (∃ (s : State) (p : MqPkt) (ns : Nat) (u : State) (r : CmdRing), Turn s 0x8012 p ∧ u = s.mqTake p ns ∧ u.ring
      (p.arg % 8192) = some r ∧ r.halted = true ∧ r.destroying = false ∧ r.engine = false) ∧
    (∃ (s : State) (p : MqPkt) (ns : Nat) (u v : State) (r : CmdRing) (rd : Rd), Turn s 0x8012 p ∧ u = s.mqTake p ns
      ∧ u.ring (p.arg % 8192) = some r ∧ r.halted = true ∧ r.destroying = false ∧ r.engine = true ∧ u.engRead r.rcb 4
      .good = (v, rd) ∧ rd.bad = none) ∧
    (∃ (s : State) (p : MqPkt) (ns : Nat) (u : State), u = s.mqTake p ns ∧ u.ring (p.arg % 8192) = none ∧ Turn s
      0x8011 p ∧ p.arg / 8192 % 2 = 0) ∧
    (∃ (s : State) (p : MqPkt) (ns : Nat) (u : State), u = s.mqTake p ns ∧ u.ring (p.arg % 8192) = none ∧ Turn s
      0x8012 p) :=
  ⟨⟨(turn fw (ctl 0x8010 0 0 0 1 [49])), (ctl 0x8010 0 0 0 1 [49]), 0, 1, _, ⟨by decide, by decide, by decide⟩, rfl,
     by decide, by decide, by decide⟩,
   ⟨(turn (fw.modConc (fun c => { c with cpl := [(0, aCpl)] })) (ctl 0x8010 0 0 0 1 [48])), (ctl 0x8010 0 0 0 1
     [48]), 0, 1, _, ⟨by decide, by decide, by decide⟩, rfl, by decide, by decide, by decide⟩,
   ⟨(turn fw (ctl 0x8010 0 0 0 1 [])), (ctl 0x8010 0 0 0 1 []), 0, _, badAt 32, ⟨by decide, by decide, by decide⟩,
     rfl, by decide⟩,
   ⟨(turn (fw.modConc (fun c => { c with cpl := [(1, aCpl)] })) (ctl 0x8011 8193 0 0 0 [])), (ctl 0x8011 8193 0 0 0
     []), 0, _, aCpl, ⟨by decide, by decide, by decide⟩, rfl, by decide, by decide, by decide⟩,
   ⟨(turn (fw.modConc (fun c => { c with cmd := [(1, aCmd)] })) (ctl 0x8011 1 0 0 0 [])), (ctl 0x8011 1 0 0 0 []), 0,
     _, _, aCmd, ⟨by decide, by decide, by decide⟩, rfl, by decide, by decide, by decide, rfl⟩,
   ⟨(turn (fw.modConc (fun c => { c with cmd := [(1, { aCmd with halted := true })] })) (ctl 0x8012 1 0 0 0 [])),
     (ctl 0x8012 1 0 0 0 []), 0, _, { aCmd with halted := true }, ⟨by decide, by decide, by decide⟩, rfl, by decide,
     by decide, by decide, by decide⟩,
   ⟨(turn (fw.modConc (fun c => { c with cmd := [(1, { aCmd with halted := true, engine := true })] })) (ctl 0x8012 1
     0 0 0 [])), (ctl 0x8012 1 0 0 0 []), 0, _, _, { aCmd with halted := true, engine := true }, _, ⟨by decide, by
     decide, by decide⟩, rfl, by decide, by decide, by decide, by decide, (Prod.eta _).symm, by decide⟩,
   ⟨(turn fw (ctl 0x8011 1 0 0 0 [])), (ctl 0x8011 1 0 0 0 []), 0, _, rfl, by decide, ⟨by decide, by decide, by
     decide⟩, by decide⟩,
   ⟨(turn fw (ctl 0x8012 1 0 0 0 [])), (ctl 0x8012 1 0 0 0 []), 0, _, rfl, by decide, ⟨by decide, by decide, by
     decide⟩⟩⟩

theorem witness_ControlTables :
    (∃ (s : State) (p : MqPkt) (ns : Nat) (u : State) (t : Table), Turn s 0x8020 p ∧ u = s.mqTake p ns ∧ u.baseOk =
      true ∧ u.table p.table = none ∧ t = Table.define ((upto 0 16).map (fun i => if i < 8 then uw p.words 2 i else
      uw p.words 3 (i - 8))) u.hall.landing ∧ u.defineBad p.words t = none) ∧
    (∃ (s : State) (p : MqPkt) (ns : Nat) (u : State) (t : Table), Turn s 0x8021 p ∧ u = s.mqTake p ns ∧ u.table
      p.table = some t ∧ rsvBad p.words 2 31 19 = none ∧ 2 ≤ p.arg % 8 ∧ p.arg % 8 ≤ 4 ∧ u.landingBad p = none) ∧
    (∃ (s : State) (p : MqPkt) (ns : Nat) (u : State) (t : Table), Turn s 0x8022 p ∧ u = s.mqTake p ns ∧ u.table
      p.table = some t ∧ rsvBad p.words 2 31 19 = none ∧ t.st ≠ .retiring ∧ p.arg / 2 % 4 = 0 ∧ p.at_ ≠ 0 ∧
      u.landingBad p = none ∧ (t.slot (p.arg % 2)).st = .ready) ∧
    (∃ (s : State) (p : MqPkt) (ns : Nat) (u : State) (t : Table), Turn s 0x8022 p ∧ u = s.mqTake p ns ∧ u.table
      p.table = some t ∧ rsvBad p.words 2 31 19 = none ∧ t.st ≠ .retiring ∧ p.arg / 2 % 4 = 1 ∧ p.at_ = 0 ∧ (t.slot
      (p.arg % 2)).st = .empty) ∧
    (∃ (s : State) (p : MqPkt) (ns : Nat) (u : State) (t : Table), Turn s 0x8022 p ∧ u = s.mqTake p ns ∧ u.table
      p.table = some t ∧ rsvBad p.words 2 31 19 = none ∧ t.st ≠ .retiring ∧ p.arg / 2 % 4 = 2 ∧ p.at_ = 0 ∧ (t.slot
      (p.arg % 2)).st = .filling) ∧
    (∃ (s : State) (p : MqPkt) (ns : Nat) (u : State) (t : Table), Turn s 0x8022 p ∧ u = s.mqTake p ns ∧ u.table
      p.table = some t ∧ rsvBad p.words 2 31 19 = none ∧ t.st ≠ .retiring ∧ p.arg / 2 % 4 = 3 ∧ p.at_ = 0 ∧ ((t.slot
      (p.arg % 2)).st = .filling ∨ (t.slot (p.arg % 2)).st = .ready)) ∧
    (∃ (s : State) (p : MqPkt) (ns first count : Nat) (u : State) (t : Table), Turn s 0x8023 p ∧ u = s.mqTake p ns ∧
      u.table p.table = some t ∧ t.replicated = false ∧ first = (uw p.words 2 0).bits 23 0 ∧ count = (uw p.words 2
      0).bits 31 24 ∧ 1 ≤ count ∧ count ≤ 27 ∧ count ≤ (lenOf p.words - 2) * 4 + 3 ∧ first + count ≤ t.shardCount ∧
      rsvBad p.words 9 31 0 = none ∧ (∀ j, plBad p.words (smwByte j) = none ∧ plTier (plAt p.words (smwByte j)) ≠ 1)) ∧
    (∃ (s : State) (p : MqPkt) (ns : Nat) (u : State) (t : Table), Turn s 0x8024 p ∧ u = s.mqTake p ns ∧ u.table
      p.table = some t ∧ t.replicated = false ∧ u.landingBad p = none ∧ t.bumpPend = false ∧ p.arg = (t.epoch + 1) %
      65536 ∧ (p.at_ = 0 ∨ u.schedUsed < 1024)) ∧
    (∃ (s : State) (p : MqPkt) (ns : Nat) (u : State) (t : Table), Turn s 0x8025 p ∧ u = s.mqTake p ns ∧ u.table
      p.table = some t ∧ nzBad (wordsBytes p.words) 40 64 = none ∧ u.landingBad p = none ∧ p.at_ = 0) ∧
    (∃ (s : State) (p : MqPkt) (ns : Nat) (u : State) (t : Table), Turn s 0x8025 p ∧ u = s.mqTake p ns ∧ u.table
      p.table = some t ∧ nzBad (wordsBytes p.words) 40 64 = none ∧ u.landingBad p = none ∧ p.at_ ≠ 0) ∧
    (∃ (s : State) (p : MqPkt) (ns : Nat) (u : State) (t : Table) (rest : List (Nat × Nat × Bool × Bool)), Turn s
      0x8026 p ∧ u = s.mqTake p ns ∧ u.table p.table = some t ∧ rsvBad p.words 8 31 22 = none ∧ rest =
      u.dir.grantsNext.filter (fun x => !(x.1 == p.table && x.2.1 == (uw p.words 2 0).bits 19 0)) ∧ (uw p.words 2
      0).bit 20 = false ∧ (uw p.words 2 0).bit 21 = false) ∧
    (∃ (s : State) (p : MqPkt) (ns : Nat) (u : State) (t : Table) (rest : List (Nat × Nat × Bool × Bool)), Turn s
      0x8026 p ∧ u = s.mqTake p ns ∧ u.table p.table = some t ∧ rsvBad p.words 8 31 22 = none ∧ rest =
      u.dir.grantsNext.filter (fun x => !(x.1 == p.table && x.2.1 == (uw p.words 2 0).bits 19 0)) ∧ ((uw p.words 2
      0).bit 20 = true ∨ (uw p.words 2 0).bit 21 = true) ∧ rest.length < 16384) ∧
    (∃ (s : State) (p : MqPkt) (ns first count homed : Nat) (u v w : State) (t : Table), Turn s 0x8030 p ∧ u =
      s.mqTake p ns ∧ u.table p.table = some t ∧ (u.tenant p.tenant).hallId = t.owner ∧ first = (uw p.words 2 0).bits
      23 0 ∧ count = (uw p.words 2 1).bits 16 0 ∧ 1 ≤ count ∧ count ≤ 65536 ∧ first + count ≤ t.shardCount ∧
      misaligned (uw64 p.words 2 2) 64 = false ∧ nzBad (wordsBytes p.words) 48 64 = none ∧ homed = ((upto first
      count).filter (u.homes t)).length ∧ v = (if (uw p.words 2 1).bit 31 then u.modTable p.table (fun t =>
      { t with load := (upto first count).foldl (fun m k => mapSet m k ⟨0, 0, 0, 0, u.hall.landing⟩) t.load }) else
      u) ∧ (v.putOp p (.counters homed)).hostAcc reqMgmt p.tenant (uw64 p.words 2 2) (16 * count) (some ((upto first
      count).flatMap (fun k => wordsBytes (u.loadRecord t k)))) (.counters p.seq) false = (w, .committed)) ∧
    (∃ (s : State) (i : Instr) (op : Nat) (p : MqPkt) (ns : Nat) (u : State), i ∈ [Instr.tableState ns,
      .versionSwitch ns, .shardMapWrite ns, .epochBump ns, .migrate ns, .tableGrant ns, .countersRead ns] ∧ ctlOp i =
      some op ∧ Turn s op p ∧ u = s.mqTake p ns ∧ u.table p.table = none) :=
  ⟨⟨(turn (fw.setReg Reg.DIR_BASE_HI 0x80000000) (ctl 0x8020 0 3 0 2 [0x08080000, 0, 0x00000800, 0, 0, 0x3F800000])),
     (ctl 0x8020 0 3 0 2 [0x08080000, 0, 0x00000800, 0, 0, 0x3F800000]), 0, _, _, ⟨by decide, by decide, by decide⟩,
     rfl, by decide, by decide, rfl, by decide⟩,
   ⟨(turn (withTable fw (aTable .training .empty .empty)) (ctl 0x8021 2 3 0 0 [])), (ctl 0x8021 2 3 0 0 []), 0, _,
     (aTable .training .empty .empty), ⟨by decide, by decide, by decide⟩, rfl, by decide, by decide, by decide, by
     decide, by decide⟩,
   ⟨(turn (withTable fw (aTable .serving .ready .empty)) (ctl 0x8022 0 3 2 0 [])), (ctl 0x8022 0 3 2 0 []), 0, _,
     (aTable .serving .ready .empty), ⟨by decide, by decide, by decide⟩, rfl, by decide, by decide, by decide, by
     decide, by decide, by decide, by decide⟩,
   ⟨(turn (withTable fw (aTable .serving .empty .empty)) (ctl 0x8022 2 3 0 0 [])), (ctl 0x8022 2 3 0 0 []), 0, _,
     (aTable .serving .empty .empty), ⟨by decide, by decide, by decide⟩, rfl, by decide, by decide, by decide, by
     decide, by decide, by decide⟩,
   ⟨(turn (withTable fw (aTable .serving .filling .empty)) (ctl 0x8022 4 3 0 0 [])), (ctl 0x8022 4 3 0 0 []), 0, _,
     (aTable .serving .filling .empty), ⟨by decide, by decide, by decide⟩, rfl, by decide, by decide, by decide, by
     decide, by decide, by decide⟩,
   ⟨(turn (withTable fw (aTable .serving .ready .empty)) (ctl 0x8022 6 3 0 0 [])), (ctl 0x8022 6 3 0 0 []), 0, _,
     (aTable .serving .ready .empty), ⟨by decide, by decide, by decide⟩, rfl, by decide, by decide, by decide, by
     decide, by decide, by decide⟩,
   ⟨(turn (withTable fw (aTable .serving .empty .empty)) (ctl 0x8023 0 3 0 1 [0x01000000])), (ctl 0x8023 0 3 0 1
     [0x01000000]), 0, 0, 1, _, (aTable .serving .empty .empty), ⟨by decide, by decide, by decide⟩, rfl, by decide,
     by decide, by decide, by decide, by decide, by decide, by decide, by decide, by decide, (fun j => place_zero (by
     decide) j)⟩,
   ⟨(turn (withTable fw (aTable .serving .empty .empty)) (ctl 0x8024 1 3 0 0 [])), (ctl 0x8024 1 3 0 0 []), 0, _,
     (aTable .serving .empty .empty), ⟨by decide, by decide, by decide⟩, rfl, by decide, by decide, by decide, by
     decide, by decide, by decide⟩,
   ⟨(turn (withTable fw (aTable .serving .empty .empty)) (ctl 0x8025 0 3 0 1 [])), (ctl 0x8025 0 3 0 1 []), 0, _,
     (aTable .serving .empty .empty), ⟨by decide, by decide, by decide⟩, rfl, by decide, by decide, by decide, by
     decide⟩,
   ⟨(turn (withTable fw (aTable .serving .empty .empty)) (ctl 0x8025 0 3 2 1 [])), (ctl 0x8025 0 3 2 1 []), 0, _,
     (aTable .serving .empty .empty), ⟨by decide, by decide, by decide⟩, rfl, by decide, by decide, by decide, by
     decide⟩,
   ⟨(turn (withTable fw (aTable .serving .empty .empty)) (ctl 0x8026 0 3 0 1 [])), (ctl 0x8026 0 3 0 1 []), 0, _,
     (aTable .serving .empty .empty), _, ⟨by decide, by decide, by decide⟩, rfl, by decide, by decide, rfl, by
     decide, by decide⟩,
   ⟨(turn (withTable fw (aTable .serving .empty .empty)) (ctl 0x8026 0 3 0 1 [0x00100000])), (ctl 0x8026 0 3 0 1
     [0x00100000]), 0, _, (aTable .serving .empty .empty), _, ⟨by decide, by decide, by decide⟩, rfl, by decide, by
     decide, rfl, by decide, by decide⟩,
   ⟨(turn (withTable fw (aTable .serving .empty .empty)) (ctl 0x8030 0 3 0 1 [0, 1])), (ctl 0x8030 0 3 0 1 [0, 1]),
     0, 0, 1, _, _, _, _, (aTable .serving .empty .empty), ⟨by decide, by decide, by decide⟩, rfl, by decide, by
     decide, by decide, by decide, by decide, by decide, by decide, by decide, by decide, rfl, rfl, (pairOf (by
     decide))⟩,
   ⟨(turn fw (ctl 0x8021 2 3 0 0 [])), .tableState 0, 0x8021, (ctl 0x8021 2 3 0 0 []), 0, _, by decide, by decide,
     ⟨by decide, by decide, by decide⟩, rfl, by decide⟩⟩

theorem witness_ControlUnits :
    (∃ (s : State) (p : MqPkt) (ns : Nat) (u : State) (gs ss cs : List Nat), Turn s 0x8040 p ∧ u = s.mqTake p ns ∧
      s.selftest = none ∧ selfUnits p.words = .ok (gs, ss, cs) ∧ (∀ g ∈ gs, (u.gal g).fenced = false)) ∧
    (∃ (s : State) (p : MqPkt) (ns : Nat) (u : State), Turn s 0x8041 p ∧ u = s.mqTake p ns ∧ rsvBad p.words 2 31 21 =
      none ∧ p.arg % 32 ≤ 17 ∧ (u.gal (p.arg % 32)).fenced = false ∧ 8 ≤ u.servingWithout (p.arg % 32)) ∧
    (∃ (s : State) (p : MqPkt) (ns : Nat) (u : State), Turn s 0x8041 p ∧ u = s.mqTake p ns ∧ rsvBad p.words 2 31 21 =
      none ∧ p.arg % 32 ≤ 17 ∧ (u.gal (p.arg % 32)).fenced = true) ∧
    (∃ (s : State) (p : MqPkt) (ns : Nat) (u : State), Turn s 0x8041 p ∧ u = s.mqTake p ns ∧ rsvBad p.words 2 31 21 =
      none ∧ p.arg % 32 ≤ 17 ∧ (u.gal (p.arg % 32)).fenced = false ∧ u.servingWithout (p.arg % 32) < 8) ∧
    (∃ (s : State) (p : MqPkt) (ns kind n : Nat) (u : State), Turn s 0x8042 p ∧ u = s.mqTake p ns ∧ n = p.arg % 64 ∧
      kind = p.arg / 64 % 4 ∧ n < unitsOf kind ∧ rsvBad p.words 2 31 26 = none ∧ p.arg / 256 % 4 = 0) ∧
    (∃ (s : State) (p : MqPkt) (ns kind n : Nat) (u : State), Turn s 0x8042 p ∧ u = s.mqTake p ns ∧ n = p.arg % 64 ∧
      kind = p.arg / 64 % 4 ∧ n < unitsOf kind ∧ rsvBad p.words 2 31 26 = none ∧ p.arg / 256 % 4 = 2) ∧
    (∃ (s : State) (p : MqPkt) (ns kind n : Nat) (u : State), Turn s 0x8042 p ∧ u = s.mqTake p ns ∧ n = p.arg % 64 ∧
      kind = p.arg / 64 % 4 ∧ n < unitsOf kind ∧ rsvBad p.words 2 31 26 = none ∧ p.arg / 256 % 4 = 1 ∧ u.unitQuiesced
      kind n = true ∧ u.unitIdle kind n = true ∧ (kind = 0 → (u.gal n).fenced = false ∧ (u.gal n).enabled = true) ∧
      (kind = 2 → u.rbits Reg.RC_PIN 3 0 = 0)) ∧
    (∃ (s : State) (p : MqPkt) (ns : Nat) (u : State), Turn s 0x8043 p ∧ u = s.mqTake p ns ∧ u.err.drain = .drained) ∧
    (∃ (s : State) (p : MqPkt) (ns : Nat) (u : State), Turn s 0x8043 p ∧ u = s.mqTake p ns ∧ u.err.drain ≠ .drained) :=
  ⟨⟨(turn fw (ctl 0x8040 0 0 0 0 [])), (ctl 0x8040 0 0 0 0 []), 0, _, [0], [], [], ⟨by decide, by decide, by decide⟩,
     rfl, by decide, rfl, by decide⟩,
   ⟨(turn ({ fw with gals := List.replicate 9 (Gal.reset true) ++ List.replicate 9 (Gal.reset false) }) (ctl 0x8041 0
     0 0 0 [])), (ctl 0x8041 0 0 0 0 []), 0, _, ⟨by decide, by decide, by decide⟩, rfl, by decide, by decide, by
     decide, by decide⟩,
   ⟨(turn (fw.modGal 0 (fun g => { g with fenced := true })) (ctl 0x8041 0 0 0 0 [])), (ctl 0x8041 0 0 0 0 []), 0, _,
     ⟨by decide, by decide, by decide⟩, rfl, by decide, by decide, by decide⟩,
   ⟨(turn ({ fw with gals := List.replicate 8 (Gal.reset true) ++ List.replicate 10 (Gal.reset false) }) (ctl 0x8041
     0 0 0 0 [])), (ctl 0x8041 0 0 0 0 []), 0, _, ⟨by decide, by decide, by decide⟩, rfl, by decide, by decide, by
     decide, by decide⟩,
   ⟨(turn fw (ctl 0x8042 3 0 0 0 [])), (ctl 0x8042 3 0 0 0 []), 0, 0, 3, _, ⟨by decide, by decide, by decide⟩, rfl,
     by decide, by decide, by decide, by decide, by decide⟩,
   ⟨(turn fw (ctl 0x8042 515 0 0 0 [])), (ctl 0x8042 515 0 0 0 []), 0, 0, 3, _, ⟨by decide, by decide, by decide⟩,
     rfl, by decide, by decide, by decide, by decide, by decide⟩,
   ⟨(turn (fw.modGal 3 (fun g => { g with quiesced := true })) (ctl 0x8042 259 0 0 0 [])), (ctl 0x8042 259 0 0 0 []),
     0, 0, 3, _, ⟨by decide, by decide, by decide⟩, rfl, by decide, by decide, by decide, by decide, by decide, by
     decide, by decide, by decide, by decide⟩,
   ⟨(turn (fw.modErr (fun e => { e with drain := .drained })) (ctl 0x8043 0 0 0 0 [])), (ctl 0x8043 0 0 0 0 []), 0,
     _, ⟨by decide, by decide, by decide⟩, rfl, by decide⟩,
   ⟨(turn fw (ctl 0x8043 0 0 0 0 [])), (ctl 0x8043 0 0 0 0 []), 0, _, ⟨by decide, by decide, by decide⟩, rfl, by
     decide⟩⟩

theorem witness_ControlPersist :
    (∃ (s : State) (p : MqPkt) (ns w : Nat) (u : State), Turn s 0x8050 p ∧ u = s.mqTake p ns ∧ w = (uw p.words 2
      0).bits 13 0 ∧ 640 ≤ w ∧ w < 4096) ∧
    (∃ (s : State), ∃ (p : MqPkt), ∃ (ns w : Nat), ∃ (u : State), ∃ v, Turn s 0x8050 p ∧ u = s.mqTake p ns ∧ w = (uw
      p.words 2 0).bits 13 0 ∧ w < 6 ∧ u.rwpValue w (uw p.words 2 1) = some v) ∧
    (∃ (s : State) (p : MqPkt) (ns w : Nat) (u : State), Turn s 0x8050 p ∧ u = s.mqTake p ns ∧ w = (uw p.words 2
      0).bits 13 0 ∧ 6 ≤ w ∧ (w < 640 ∨ 4096 ≤ w)) ∧
    (∃ (s : State) (p : MqPkt) (ns first count : Nat) (u : State), Turn s 0x8051 p ∧ u = s.mqTake p ns ∧ u.presence =
      true ∧ first = (uw p.words 2 0).bits 8 0 ∧ count = (uw p.words 2 0).bits 15 10 ∧ rsvBad p.words 8 9 9 = none ∧
      rsvBad p.words 8 31 16 = none ∧ 1 ≤ count ∧ count ≤ 55 ∧ lenOf p.words = 2 + ceilDiv (count - 7) 8 ∧ first +
      count ≤ 512 ∧ (∀ j, repairBad p.words (9 + j) = none)) ∧
    (∃ (s : State) (p : MqPkt) (ns : Nat) (u : State), Turn s 0x8063 p ∧ u = s.mqTake p ns ∧ u.presence = true ∧
      p.arg < psWords) ∧
    (∃ (s : State) (p : MqPkt) (ns : Nat) (u : State), Turn s 0x8060 p ∧ u = s.mqTake p ns ∧ fwLoadBad p.words =
      none) ∧
    (∃ (s : State) (p : MqPkt) (ns : Nat) (u : State) (img : List Byte), Turn s 0x8061 p ∧ u = s.mqTake p ns ∧
      u.presence = true ∧ u.boot.staged = some img) ∧
    (∃ (s : State) (p : MqPkt) (ns : Nat) (u : State), Turn s 0x8062 p ∧ u = s.mqTake p ns ∧ u.presence = true ∧
      rsvBad p.words 2 31 18 = none) ∧
    (∃ (s : State) (p : MqPkt) (ns : Nat) (u : State), Turn s 0x8064 p ∧ u = s.mqTake p ns ∧ u.presence = true) ∧
    (∃ (s : State) (p : MqPkt) (ns : Nat) (u : State), Turn s 0x8070 p ∧ u = s.mqTake p ns) ∧
    (∃ (s : State) (p : MqPkt) (ns : Nat) (u v : State), Turn s 0x8071 p ∧ u = s.mqTake p ns ∧ reattachBad p.words =
      none ∧ u.xlt.host = .attaching ∧ v = u.logCopy (uw64 p.words 2 0) (u.reattachN p)) ∧
    (∃ (s : State) (p : MqPkt) (ns : Nat) (u : State), Turn s 0x8071 p ∧ u = s.mqTake p ns ∧ reattachBad p.words =
      none ∧ u.xlt.host ≠ .attaching) ∧
    (∃ (s : State) (p : MqPkt) (ns : Nat) (u : State), u = s.mqTake p ns ∧ u.presence = false ∧ Turn s 0x8051 p ∧ (uw
      p.words 2 0).bits 15 10 ≠ 0 ∧ (uw p.words 2 0).bits 15 10 ≤ 55 ∧ rsvBad p.words 8 9 9 = none ∧ rsvBad p.words 8
      31 16 = none ∧ lenOf p.words = 2 + ceilDiv ((uw p.words 2 0).bits 15 10 - 7) 8 ∧ (uw p.words 2 0).bits 8 0 +
      (uw p.words 2 0).bits 15 10 ≤ 512 ∧ (∀ j, repairBad p.words (9 + j) = none)) ∧
    (∃ (s : State) (p : MqPkt) (ns : Nat) (u : State), u = s.mqTake p ns ∧ u.presence = false ∧ Turn s 0x8063 p ∧
      p.arg < psWords) ∧
    (∃ (s : State) (p : MqPkt) (ns : Nat) (u : State), u = s.mqTake p ns ∧ u.presence = false ∧ Turn s 0x8062 p ∧
      rsvBad p.words 2 31 18 = none) ∧
    (∃ (s : State) (p : MqPkt) (ns : Nat) (u : State), u = s.mqTake p ns ∧ u.presence = false ∧ Turn s 0x8061 p) ∧
    (∃ (s : State) (p : MqPkt) (ns : Nat) (u : State), u = s.mqTake p ns ∧ u.presence = false ∧ Turn s 0x8064 p) :=
  ⟨⟨(turn fw (ctl 0x8050 0 0 0 1 [640])), (ctl 0x8050 0 0 0 1 [640]), 0, 640, _, ⟨by decide, by decide, by decide⟩,
     rfl, by decide, by decide, by decide⟩,
   ⟨(turn fw (ctl 0x8050 0 0 0 1 [2, 1])), (ctl 0x8050 0 0 0 1 [2, 1]), 0, 2, _, 1, ⟨by decide, by decide, by
     decide⟩, rfl, by decide, by decide, by decide⟩,
   ⟨(turn fw (ctl 0x8050 0 0 0 1 [6])), (ctl 0x8050 0 0 0 1 [6]), 0, 6, _, ⟨by decide, by decide, by decide⟩, rfl, by
     decide, by decide, by decide⟩,
   ⟨(turn (fw.modPres (fun p => { p with press := some 0 })) (ctl 0x8051 0 0 0 1 [0x00000400])), (ctl 0x8051 0 0 0 1
     [0x00000400]), 0, 0, 1, _, ⟨by decide, by decide, by decide⟩, rfl, by decide, by decide, by decide, by decide,
     by decide, by decide, by decide, by decide, by decide, (fun j => repair_zero (by decide) j)⟩,
   ⟨(turn (fw.modPres (fun p => { p with press := some 0 })) (ctl 0x8063 16383 0 0 0 [])), (ctl 0x8063 16383 0 0 0
     []), 0, _, ⟨by decide, by decide, by decide⟩, rfl, by decide, by decide⟩,
   ⟨(turn fw (ctl 0x8060 0 0 0 1 [0, 0, 1])), (ctl 0x8060 0 0 0 1 [0, 0, 1]), 0, _, ⟨by decide, by decide, by
     decide⟩, rfl, by decide⟩,
   ⟨(turn ((fw.modPres (fun p => { p with press := some 0 })).modBoot (fun x => { x with staged := some [0] })) (ctl
     0x8061 0 0 0 0 [])), (ctl 0x8061 0 0 0 0 []), 0, _, [0], ⟨by decide, by decide, by decide⟩, rfl, by decide, by
     decide⟩,
   ⟨(turn (fw.modPres (fun p => { p with press := some 0 })) (ctl 0x8062 0 0 0 0 [])), (ctl 0x8062 0 0 0 0 []), 0, _,
     ⟨by decide, by decide, by decide⟩, rfl, by decide, by decide⟩,
   ⟨(turn (fw.modPres (fun p => { p with press := some 0 })) (ctl 0x8064 0 0 0 0 [])), (ctl 0x8064 0 0 0 0 []), 0, _,
     ⟨by decide, by decide, by decide⟩, rfl, by decide⟩,
   ⟨(turn fw (ctl 0x8070 0 0 0 0 [])), (ctl 0x8070 0 0 0 0 []), 0, _, ⟨by decide, by decide, by decide⟩, rfl⟩,
   ⟨(turn (fw.modXlt (fun x => { x with host := .attaching })) (ctl 0x8071 0 0 0 1 [0, 0, 12])), (ctl 0x8071 0 0 0 1
     [0, 0, 12]), 0, _, _, ⟨by decide, by decide, by decide⟩, rfl, by decide, by decide, rfl⟩,
   ⟨(turn fw (ctl 0x8071 0 0 0 1 [0, 0, 12])), (ctl 0x8071 0 0 0 1 [0, 0, 12]), 0, _, ⟨by decide, by decide, by
     decide⟩, rfl, by decide, by decide⟩,
   ⟨(turn fw (ctl 0x8051 0 0 0 1 [0x00000400])), (ctl 0x8051 0 0 0 1 [0x00000400]), 0, _, rfl, by decide, ⟨by decide,
     by decide, by decide⟩, by decide, by decide, by decide, by decide, by decide, by decide, (fun j => repair_zero
     (by decide) j)⟩,
   ⟨(turn fw (ctl 0x8063 16383 0 0 0 [])), (ctl 0x8063 16383 0 0 0 []), 0, _, rfl, by decide, ⟨by decide, by decide,
     by decide⟩, by decide⟩,
   ⟨(turn fw (ctl 0x8062 0 0 0 0 [])), (ctl 0x8062 0 0 0 0 []), 0, _, rfl, by decide, ⟨by decide, by decide, by
     decide⟩, by decide⟩,
   ⟨(turn fw (ctl 0x8061 0 0 0 0 [])), (ctl 0x8061 0 0 0 0 []), 0, _, rfl, by decide, ⟨by decide, by decide, by
     decide⟩⟩,
   ⟨(turn fw (ctl 0x8064 0 0 0 0 [])), (ctl 0x8064 0 0 0 0 []), 0, _, rfl, by decide, ⟨by decide, by decide, by
     decide⟩⟩⟩

theorem witness_PacketArrivals :
    (∃ (s : State) (c : Instr) (op q : Nat) (pkt ws : List Word), lanePkt c = some (op, q, pkt) ∧ ws = pktWords op
      pkt ∧ s.inReset = false ∧ 1 ≤ (uw ws 1 0).bits 19 16 ∧ (uw ws 1 0).bits 19 16 ≤ 8) ∧
    (∃ (s : State) (c : Instr) (op q : Nat) (pkt ws : List Word), lanePkt c = some (op, q, pkt) ∧ ws = pktWords op
      pkt ∧ s.inReset = false ∧ ((uw ws 1 0).bits 19 16 = 0 ∨ 8 < (uw ws 1 0).bits 19 16)) ∧
    (∃ (s : State) (c : Instr) (op q : Nat) (pkt : List Word), lanePkt c = some (op, q, pkt) ∧ s.inReset = true) ∧
    (∃ (s : State) (c : Instr) (op n : Nat) (pkt : List Word), dataPkt c = some (op, .ring n, pkt) ∧ (∀ r, s.ring n =
      some r → s.mayRead n r = false ∨ s.ringBusy n = true)) ∧
    (∃ (s a b : State) (c : Instr) (op n len : Nat) (pkt ws : List Word) (r : CmdRing) (k : CplRing), dataPkt c =
      some (op, .ring n, pkt) ∧ ws = pktWords op pkt ∧ s.ring n = some r ∧ s.mayRead n r = true ∧ s.ringBusy n =
      false ∧ len = (uw ws 1 0).bits 19 16 ∧ 1 ≤ len ∧ len ≤ 8 ∧ s.ctxFull r.tenant = false ∧ mapGet s.conc.cpl r.cq
      = some k ∧ 2 ≤ k.free ∧ a = s.modCmd n (fun r =>
      { r with tail := (r.head + len) % 2 ^ 32, buf := wordsBytes ws }) ∧ b = (a.modCpl r.cq (fun k =>
      { k with reserved := k.reserved + 1 })).modCmd n (fun r =>
      { r with head := (r.head + len) % 2 ^ 32, buf := r.buf.drop (32 * len) })) ∧
    (∃ (s a : State) (c : Instr) (op n : Nat) (pkt ws : List Word) (r : CmdRing), dataPkt c = some (op, .ring n, pkt)
      ∧ ws = pktWords op pkt ∧ s.ring n = some r ∧ s.mayRead n r = true ∧ s.ringBusy n = false ∧ a = s.modCmd n (fun
      r => { r with tail := (r.head + lenOf ws) % 2 ^ 32, buf := wordsBytes ws }) ∧ ((uw ws 1 0).bits 19 16 = 0 ∨ 8 <
      (uw ws 1 0).bits 19 16)) ∧
    (∃ (s a : State) (c : Instr) (op n : Nat) (pkt ws : List Word) (r : CmdRing), dataPkt c = some (op, .ring n, pkt)
      ∧ ws = pktWords op pkt ∧ s.ring n = some r ∧ s.mayRead n r = true ∧ s.ringBusy n = false ∧ a = s.modCmd n (fun
      r => { r with tail := (r.head + lenOf ws) % 2 ^ 32, buf := wordsBytes ws }) ∧ 1 ≤ (uw ws 1 0).bits 19 16 ∧ (uw
      ws 1 0).bits 19 16 ≤ 8 ∧ s.ctxFull r.tenant = true) ∧
    (∃ (s a : State), ∃ (c : Instr), ∃ (op n : Nat), ∃ (pkt ws : List Word), ∃ (r : CmdRing), ∃ k, dataPkt c = some
      (op, .ring n, pkt) ∧ ws = pktWords op pkt ∧ s.ring n = some r ∧ s.mayRead n r = true ∧ s.ringBusy n = false ∧ a
      = s.modCmd n (fun r => { r with tail := (r.head + lenOf ws) % 2 ^ 32, buf := wordsBytes ws }) ∧ 1 ≤ (uw ws 1
      0).bits 19 16 ∧ (uw ws 1 0).bits 19 16 ≤ 8 ∧ s.ctxFull r.tenant = false ∧ mapGet s.conc.cpl r.cq = some k ∧
      k.free < 2) :=
  ⟨⟨r0, .packet 0 (nopPkt 1), 0, 0, (nopPkt 1), _, by decide, rfl, by decide, by decide, by decide⟩,
   ⟨r0, .packet 0 (nopPkt 9), 0, 0, (nopPkt 9), _, by decide, rfl, by decide, by decide⟩,
   ⟨held, .packet 0 (nopPkt 1), 0, 0, (nopPkt 1), by decide, by decide⟩,
   ⟨r0, .nop (.ring 1) (nopPkt 1), 0, 1, (nopPkt 1), by decide, (fun _ h => nomatch h)⟩,
   ⟨((r0.modConc (fun c => { c with cmd := [(1, aCmd)], cpl := [(0, aCpl)] })).setReg Reg.CONC_CTL 1), _, _, .nop
     (.ring 1) (nopPkt 8), 0, 1, 8, (nopPkt 8), _, aCmd, aCpl, by decide, rfl, by decide, by decide, by decide, rfl,
     by decide, by decide, by decide, by decide, by decide, rfl, rfl⟩,
   ⟨((r0.modConc (fun c => { c with cmd := [(1, aCmd)], cpl := [(0, aCpl)] })).setReg Reg.CONC_CTL 1), _, .nop (.ring
     1) (nopPkt 9), 0, 1, (nopPkt 9), _, aCmd, by decide, rfl, by decide, by decide, by decide, rfl, by decide⟩,
   ⟨((r0.modConc (fun c =>
     { c with cmd := [(1, aCmd)], cpl := [(0, aCpl)], tenEff := [(0, ⟨0x01100000, 0, 0, 0x00002000⟩)] })).setReg
     Reg.CONC_CTL 1), _, .nop (.ring 1) (nopPkt 1), 0, 1, (nopPkt 1), _, aCmd, by decide, rfl, by decide, by decide,
     by decide, rfl, by decide, by decide, by decide⟩,
   ⟨((r0.modConc (fun c => { c with cmd := [(1, aCmd)], cpl := [(0, { aCpl with reserved := 63 })] })).setReg
     Reg.CONC_CTL 1), _, .nop (.ring 1) (nopPkt 1), 0, 1, (nopPkt 1), _, aCmd, { aCpl with reserved := 63 }, by
     decide, rfl, by decide, by decide, by decide, rfl, by decide, by decide, by decide, by decide, by decide⟩⟩

theorem witness_PacketTaking :
    (∃ (s : State) (t : Nat) (ws : List Word) (e : Ending), s.checkPkt t ws = some e) ∧
    (∃ (s : State) (t : Nat) (ws : List Word), s.checkPkt t ws = none ∧ (uw ws 1 0).bits 15 0 < 0x8000) ∧
    (∃ (s : State) (src : PktSrc) (cq : Option Nat) (index t : Nat) (ws : List Word) (p : MqPkt), s.checkPkt t ws =
      none ∧ 0x8000 ≤ (uw ws 1 0).bits 15 0 ∧ p = ⟨s.conc.nextSeq, t, src, cq, index, ws, s.hall.landing + (uw ws 1
      0).bits 31 24⟩ ∧ s.mqTakes t = true) ∧
    (∃ (s : State) (src : PktSrc) (cq : Option Nat) (index t : Nat) (ws : List Word) (p : MqPkt), s.checkPkt t ws =
      none ∧ 0x8000 ≤ (uw ws 1 0).bits 15 0 ∧ p = ⟨s.conc.nextSeq, t, src, cq, index, ws, s.hall.landing + (uw ws 1
      0).bits 31 24⟩ ∧ s.mqTakes t = false) :=
  ⟨⟨r0, 1, (nopPkt 1), ⟨St.denied, 2, 0⟩, by decide⟩,
   ⟨r0, 0, (nopPkt 1), by decide, by decide⟩,
   ⟨fw, .ring 0, none, 0, 0, (ctl 0x8000 0 0 0 0 []).words, _, by decide, by decide, rfl, by decide⟩,
   ⟨r0, .ring 0, none, 0, 0, (ctl 0x8000 0 0 0 0 []).words, _, by decide, by decide, rfl, by decide⟩⟩

theorem witness_LaneCompletions :
    (∃ (s : State) (pkt ws : List Word), ws = pktWords ((pkt.getD 0 0).bits 15 0) pkt ∧ s.inReset = false ∧ 1 ≤ (uw
      ws 1 0).bits 19 16 ∧ (uw ws 1 0).bits 19 16 ≤ 8) ∧
    (∃ (st : Nat) (ws : List Word), (¬ (st = St.ok ∧ (ws.getD 1 0).bit 0 = true))) :=
  ⟨⟨r0, (nopPkt 1), _, rfl, by decide, by decide, by decide⟩,
   ⟨St.ok, [], by decide⟩⟩

theorem witness_QuietRecords :
    (∃ (ws : List Word), (ws.getD 1 0).bit 0 = true) ∧
    (∃ (st : Nat) (ws : List Word), (st ≠ St.ok ∨ (ws.getD 1 0).bit 0 = false)) :=
  ⟨⟨[0, 1], by decide⟩,
   ⟨St.ok, [], by decide⟩⟩

theorem witness_CompletionRecords :
    (∃ (s u : State) (n : Nat) (held d : Bool) (r : CplRing), mapGet s.conc.cpl n = some r ∧ u = (if held then
      s.modCpl n (fun r => { r with reserved := r.reserved - 1 }) else s) ∧ r.engine = false ∧ s.xlt.host ≠ .attached
      ∧ d = false) ∧
    (∃ (s u v : State) (n : Nat) (ws : List Word) (held msg d : Bool) (r : CplRing) (full : Bool) (bs : List Byte)
      (at_ : Nat), mapGet s.conc.cpl n = some r ∧ u = (if held then s.modCpl n (fun r =>
      { r with reserved := r.reserved - 1 }) else s) ∧ (r.engine = true ∨ s.xlt.host = .attached ∨ d = true) ∧ bs =
      wordsBytes (withPhase ws (r.written / 2 ^ r.log2 % 2 == 0)) ∧ at_ = r.base + 32 * (r.written % 2 ^ r.log2) ∧
      full = (r.coalesce != 0 && decide (r.sinceMsg + 1 ≥ r.coalesce)) ∧ v = u.modCpl n (fun r =>
      { r with written := (r.written + 1) % 2 ^ 32, sinceMsg := if full || r.coalesce == 0 then 0 else r.sinceMsg + 1 })
      ∧ r.engine = true ∧ (msg = true ∨ full = true)) ∧
    (∃ (s u v : State) (n : Nat) (ws : List Word) (held msg d : Bool) (r : CplRing) (full : Bool) (bs : List Byte)
      (at_ : Nat), mapGet s.conc.cpl n = some r ∧ u = (if held then s.modCpl n (fun r =>
      { r with reserved := r.reserved - 1 }) else s) ∧ (r.engine = true ∨ s.xlt.host = .attached ∨ d = true) ∧ bs =
      wordsBytes (withPhase ws (r.written / 2 ^ r.log2 % 2 == 0)) ∧ at_ = r.base + 32 * (r.written % 2 ^ r.log2) ∧
      full = (r.coalesce != 0 && decide (r.sinceMsg + 1 ≥ r.coalesce)) ∧ v = u.modCpl n (fun r =>
      { r with written := (r.written + 1) % 2 ^ 32, sinceMsg := if full || r.coalesce == 0 then 0 else r.sinceMsg + 1 })
      ∧ r.engine = true ∧ msg = false ∧ full = false) ∧
    (∃ (s u v : State), ∃ (n : Nat), ∃ (ws : List Word), ∃ (held msg d : Bool), ∃ (r : CplRing), ∃ (full : Bool), ∃
      (bs : List Byte), ∃ (at_ : Nat), ∃ w x, mapGet s.conc.cpl n = some r ∧ u = (if held then s.modCpl n (fun r =>
      { r with reserved := r.reserved - 1 }) else s) ∧ (r.engine = true ∨ s.xlt.host = .attached ∨ d = true) ∧ bs =
      wordsBytes (withPhase ws (r.written / 2 ^ r.log2 % 2 == 0)) ∧ at_ = r.base + 32 * (r.written % 2 ^ r.log2) ∧
      full = (r.coalesce != 0 && decide (r.sinceMsg + 1 ≥ r.coalesce)) ∧ v = u.modCpl n (fun r =>
      { r with written := (r.written + 1) % 2 ^ 32, sinceMsg := if full || r.coalesce == 0 then 0 else r.sinceMsg + 1 })
      ∧ r.engine = false ∧ v.hostAcc reqConc r.tenant at_ 32 (some bs) (.record n none (msg || full)) false = (w, x)) :=
  ⟨⟨((r0.modConc (fun c => { c with cpl := [(0, aCpl)] })).modXlt (fun x => { x with host := .detached })), _, 0,
     true, false, aCpl, by decide, rfl, by decide, by decide, by decide⟩,
   ⟨(r0.modConc (fun c => { c with cpl := [(0, { aCpl with engine := true })] })), _, _, 0, List.replicate 8 0, true,
     true, false, { aCpl with engine := true }, _, _, _, by decide, rfl, by decide, rfl, rfl, rfl, rfl, by decide, by
     decide⟩,
   ⟨(r0.modConc (fun c => { c with cpl := [(0, { aCpl with engine := true })] })), _, _, 0, List.replicate 8 0, true,
     false, false, { aCpl with engine := true }, false, _, _, by decide, rfl, by decide, rfl, rfl, by decide, rfl, by
     decide, by decide, by decide⟩,
   ⟨(r0.modConc (fun c => { c with cpl := [(0, aCpl)] })), _, _, 0, List.replicate 8 0, true, false, false, aCpl, _,
     _, _, _, _, by decide, rfl, by decide, rfl, rfl, rfl, rfl, by decide, (Prod.eta _).symm⟩⟩

theorem witness_TenantDestroyRefused :
    ∃ (s : State) (p : MqPkt) (ns : Nat) (u : State) (e : TenEntry), Turn s 0x8002 p ∧ u = s.mqTake p ns ∧ u.tenOf
      (p.arg % 4096) = some e ∧ ((∃ x ∈ u.conc.cmd, x.2.tenant = p.arg % 4096) ∨ (∃ x ∈ u.conc.cpl, x.2.tenant =
      p.arg % 4096) ∨ (∃ i ∈ u.conc.items, i.tenant = p.arg % 4096) ∨ (∃ x ∈ u.dir.tables, x.2.owner = e.hallId)) :=
  ⟨(turn (fw.modConc (fun c =>
     { c with ten := [(0, .zero), (5, ⟨0x01100005, 0, 0, 0⟩)], cpl := [(3, { aCpl with tenant := 5 })] })) (ctl
     0x8002 5 0 0 0 [])), (ctl 0x8002 5 0 0 0 []), 0, _, ⟨0x01100005, 0, 0, 0⟩, ⟨by decide, by decide, by decide⟩,
     rfl, by decide, by decide⟩

theorem witness_ProfileCodeThree :
    (∃ (w : Word), w.bits 1 0 = 3) ∧
    (∃ (s : State) (p : MqPkt), Turn s 0x8050 p ∧ (uw p.words 2 0).bits 13 0 = 0 ∧ (uw p.words 2 1).bits 1 0 = 3) :=
  ⟨⟨3, by decide⟩,
   ⟨(turn fw (ctl 0x8050 0 0 0 1 [0, 3])), (ctl 0x8050 0 0 0 1 [0, 3]), ⟨by decide, by decide, by decide⟩, by decide,
     by decide⟩⟩

theorem witness_CanonicalNan :
    ∃ (f : FFmt) (code : Nat), f.decode code = .nan :=
  ⟨fFP32, 0x7F800001, by decide⟩

theorem witness_ErrorRecords :
    (∃ (e : Ev), e.code / 16 ≠ 1 ∧ e.code < 256) ∧
    (∃ (s : State) (e : Ev) (at_ n : Nat), e.code / 16 = 1 ∧ s.err.supp.find? (fun x => x.1 == e.code && x.2.1 ==
      e.kind && x.2.2.1 == e.unit) = some (e.code, e.kind, e.unit, at_, n) ∧ s.now < at_ + 1000000) ∧
    (∃ (s : State) (e : Ev) (at_ n : Nat), e.code / 16 = 1 ∧ s.err.supp.find? (fun x => x.1 == e.code && x.2.1 ==
      e.kind && x.2.2.1 == e.unit) = some (e.code, e.kind, e.unit, at_, n) ∧ at_ + 1000000 ≤ s.now) :=
  ⟨⟨{ code := 0x20 }, by decide, by decide⟩,
   ⟨{ (r0.modErr (fun e => { e with supp := [(0x10, 0, 0, 0, 2)] })) with now := 999999 }, { code := 0x10 }, 0, 2, by
     decide, by decide, by decide⟩,
   ⟨{ (r0.modErr (fun e => { e with supp := [(0x10, 0, 0, 0, 2)] })) with now := 1000000 }, { code := 0x10 }, 0, 2,
     by decide, by decide, by decide⟩⟩

theorem witness_StairwellBytes :
    (∃ (s : State), Memory.wf s.stw.mem = true) ∧
    (∃ (s : State), ∃ (off : Nat), ∃ (bs : List Byte), ∃ a, Memory.wf s.stw.mem = true ∧ (a < off ∨ off + bs.length ≤
      a)) :=
  ⟨⟨r0, by decide⟩,
   ⟨r0, 1, [1], 0, by decide, by decide⟩⟩

theorem witness_ResetState :
    ∃ t, t ≠ 0 :=
  ⟨1, by decide⟩

theorem witness_StepRunsFront :
    ∃ (c : Instr) (s : State) (rest : List Instr), s.pending = c :: rest :=
  ⟨.mntNop, { r0 with pending := [.mntNop] }, [], by decide⟩

theorem witness_IdleStep :
    ∃ (s : State), s.pending = [] :=
  ⟨r0, by decide⟩

theorem witness_TimeAndQueue :
    ∃ (c : Instr) (s t : State), exec c s = .next t :=
  ⟨.mntNop, r0, _, rfl⟩

theorem witness_StepKeepsSane :
    ∃ (s t : State), Sane s ∧ step s = .next t :=
  ⟨{ r0 with pending := [.mntNop] }, _, sane_r0, rfl⟩

theorem witness_ServingFrame :
    ∃ (c : Instr) (s t : State), serves c = true ∧ Sane s ∧ exec c s = .next t :=
  ⟨.mntNop, r0, _, by decide, sane_r0, rfl⟩


/-! ### Ill-formed terms, one for each check -/

/-- A packet is one to eight whole units (R106, R119). -/
theorem test_wf_packets :
    ((nopPkt 1).length = 8 ∧ (Instr.nop (.ring 8191) (nopPkt 1)).wf = true ∧ (Instr.nop (.ring 0) (nopPkt 8)).wf = true) ∧
    [Instr.nop (.ring 8192) (nopPkt 1), .bag (.lane (2 ^ 32)) (nopPkt 1), .bagInteract (.ring 0) [],
      .arrayOp (.ring 0) [0], .tileRead (.ring 0) (List.replicate 72 0), .tileWrite (.ring 8192) (nopPkt 1),
      .vecChain (.ring 0) [], .updateBatch (.ring 0) [], .splitReduce (.ring 0) [], .copy (.ring 0) [], .recheck (.ring 0) [],
      .inlineWrite (.ring 0) [], .packet (2 ^ 32) (nopPkt 1), .packet 0 []].any Instr.wf = false := by decide

/-- Frames carry what R268 and R270 give them room for, and errors name lines of memory. -/
theorem test_wf_frames :
    (aFrame 65535).wf = true ∧
    [aFrame 65536, { aFrame 0 with kind := 16 }, { aFrame 0 with cls := 4 }, { aFrame 0 with hops := 64 },
      { aFrame 0 with dst := 2 ^ 18 }, { aFrame 0 with origin := 2 ^ 18 }, { aFrame 0 with slot := 65536 },
      { aFrame 0 with gen := 16 }, { aFrame 0 with table := 65536 }, { aFrame 0 with epoch := 65536 },
      { aFrame 0 with tenant := 2 ^ 20 }, { aFrame 0 with vslot := 2 }, { aFrame 0 with nrows := 128 }].any
        (fun f => [Instr.gather f .good, .reply f, .nack f, .update f, .updateAck f, .migStart f, .migData f, .migAck f,
          .migDone f, .hallRead f .good, .hallWrite f, .hallAck f, .transitFrame f 0 none].any Instr.wf) = false ∧
    [Instr.gather (aFrame 0) (.uncorrectable (2 ^ 32)), .hallRead (aFrame 0) (.uncorrectable (2 ^ 32)),
      .transitFrame (aFrame 0) 0 (some 16)].any Instr.wf = false := by decide

/-- A payload longer than 4,096 bytes is none of R270's. -/
theorem test_wf_payload (f : Frame) (h : 4096 < f.payload.length) : (Instr.reply f).wf = false := by
  have : decide (f.payload.length ≤ 4096) = false := by simp; omega
  simp [Instr.wf, Frame.wf, this]

/-- Balloon data longer than the longest row is none of R195's. -/
theorem test_wf_balloon (d : List Byte) (h : 8192 < d.length) : (Instr.rowArrival 0 0 (.balloon d)).wf = false := by
  simp [Instr.wf, RowRead.wf]; omega

/-- Numbers of units, places and sizes lie in their ranges. -/
theorem test_wf_numbers :
    [Instr.ringFullAdvisory 8192, .slotEmpty 65536 0, .slotEmpty 0 2, .beacon 16 ⟨0, 0, 0, 0, 50, none, true⟩, .linkAck 16 1,
      .linkRetransmit 16, .lossOfLight 16, .linkUp 16, .primaryRouteRestore 16, .slotHeldExpire 65536, .kiteTimeout 65536,
      .quarantineEnd 65536, .creditBackoffEnd (2 ^ 18), .statFlush 18, .rowArrival 0 0 (.stored (.uncorrectable (2 ^ 32))),
      .rcFill 0 (.uncorrectable (2 ^ 32)), .invTable 65536 3, .invTable 0 4, .hostMemRead 0 0 .good, .hostMemRead 0 65 .good,
      .hostMemRead 0 1 (.uncorrectable (2 ^ 32)), .hostMemWrite 0 [], .hostMemWrite 0 (List.replicate 65 0), .refresh 4,
      .tempSample 4 (List.replicate 16 0), .tempSample 0 [], .scrubRead 0 0 (.uncorrectable (2 ^ 32)), .scrubPassEnd 4,
      .remapDone 4, .stwRegCfgWrite 4 0, .marchTestStart 4 0, .marchTestDone 4 [], .partitionTokenGain 4 0,
      .partitionTokenGain 0 64, .galCe 18, .galError 18 0, .galError 0 8, .chunkAdmit 0 18, .domainReady 256 (List.replicate 64 0),
      .domainReady 0 [], .pinKeeperRelease 4, .registerWrite 0x1000000 4 0, .registerWrite 0 2 0, .rwpRegisterWrite 0x1000000 0,
      .rwpRegisterWrite 2 0, .loRead .bar 2, .loWrite 0x1000000 0, .loWrite 1 0, .hiWrite 2 0].any Instr.wf = false := by decide

/-- No row of the table gives bits, so no word spells a command. -/
theorem test_decode_nothing : decodeTableWord 16 0 = none ∧ r0.withFetchWord 16 0 = r0 := by decide

/-! ### Worked values of the spec -/

/-- CRC-32C of the nine bytes "123456789" (the chapter on copy engines). -/
theorem test_crc32c : crc32c 0 [0x31, 0x32, 0x33, 0x34, 0x35, 0x36, 0x37, 0x38, 0x39] = 0xE3069283 := by
  decide +kernel

/-- Where a Tollgate row and the page behind it lie (the chapter on stairwells). -/
theorem test_dram :
    dramOf 617136072 = { row := 36, channel := 23, column := 0, bank := 22, line := 31 } ∧
    dramOf (301336 * 2048) = { row := 36, channel := 24, column := 0, bank := 22, line := 0 } := by decide

/-- The elements of a Tollgate row: e0 = -0.375, e1 = 1.5, e10 = -10.0, e11 = 0.0625 (the chapter on tables). -/
theorem test_row :
    let row := [0x8A, 0, 0, 0, 0, 0x18] ++ List.replicate 58 0 ++ [0xC0, 0x3F, 0x20, 0xC1]
    let e := decodeElems 1 0x3D800000 0 64 2 row 0 0 12
    (e.map (fun x => fFP32.convInf x.val)).getD 0 0 = 0xBEC00000 ∧ (e.map (fun x => fFP32.convInf x.val)).getD 1 0 = 0x3FC00000 ∧
      (e.map (fun x => fFP32.convInf x.val)).getD 10 0 = 0xC1200000 ∧
      (e.map (fun x => fFP32.convInf x.val)).getD 11 0 = 0x3D800000 := by decide

/-- Roundings of the worked bag and the worked cell: 2.5 to 2, 13.5 to 14, 20.25 to 20. -/
theorem test_round :
    (Val.fin false 5 2).roundInt = 2 ∧ (Val.fin false 27 2).roundInt = 14 ∧ (Val.fin false 81 4).roundInt = 20 := by decide

/-- The widened pairs of the worked bag: 0.3125, -8.5 and 17.875. -/
theorem test_widened :
    fFP32.convInf (.fin false 5 16) = 0x3EA00000 ∧ fFP32.convInf (.fin true 17 2) = 0xC1080000 ∧
      fFP32.convInf (.fin false 143 8) = 0x418F0000 := by decide

/-- One idle step is one reference cycle of 10 ns, of which a flight after reset has 50 (R16, R101). -/
theorem test_idle : step r0 = .next { r0 with now := 10 } ∧ r0.lenNs = 500 := ⟨rfl, by decide⟩

end Sys2Proof.Tests
end

section
/-! SUPPORT. Stairwell memory: the bytes of a range that has been stored (O47). -/
namespace Sys2Proof.Proofs

open Sys2Proof Sys2Proof.Machine Sys2Proof.Laws

/-- A read of the range just stored gives the bytes stored. -/
theorem memBytes_memStore_same {s : State} (hw : Memory.wf s.stw.mem = true) (off : Nat) (bs : List Byte) :
    (s.memStore off bs).memBytes off bs.length = bs := by
  refine List.ext_getElem (by simp [State.memBytes, upto_range]) fun i _ hi => ?_
  calc ((s.memStore off bs).memBytes off bs.length)[i]
      = cellGet (cellsPut s.stw.mem off bs) (off + i) := by simp [State.memBytes, State.memStore, upto_range]
    _ = bs[i] := cellGet_cellsPut_in hw off bs hi

/-- Settles O47: each byte of the range is the one stored there last, and `cellsPut` keeps the bytes outside it and the
canonical form. -/
theorem stairwellBytes : Obligations.StairwellBytes := by
  intro s off bs hw
  exact ⟨memBytes_memStore_same hw off bs, fun _ ha => cellGet_cellsPut_out s.stw.mem off bs ha,
    wf_cellsPut hw off bs, _, rfl⟩

end Sys2Proof.Proofs
end

section
/-! SUPPORT. Register reads, and the lane's requests for them (R6, R611, R624, R631; O12). -/
namespace Sys2Proof.Proofs

open Sys2Proof Sys2Proof.Machine Sys2Proof.Safety Sys2Proof.Laws

/-! ### The three ways a read goes -/

/-- A read of a _LO register out of reset latches the matching _HI half. -/
theorem read32_of_lo {s : State} {off : Nat} (path : Path) (hh : s.regHeld off = false) (hl : isLo off = true) :
    s.read32 path off =
      ({ s.draw with latch := mapSet s.latch (latchKey path (off + 4)) (s.draw.regVal (off + 4)) }, s.regVal off) := by
  have hd : s.draw.regHeld off = false := hh
  simp only [State.read32, hd, hl]
  rfl

/-- A read of a _HI register out of reset whose half is latched answers that half and drops it. -/
theorem read32_of_latched {s : State} {path : Path} {off : Nat} {w : Word} (hh : s.regHeld off = false)
    (hl : isLo off = false) (hi : isHi off = true) (hw : mapGet s.latch (latchKey path off) = some w) :
    s.read32 path off = ({ s.draw with latch := mapDel s.latch (latchKey path off) }, w) := by
  have hd : s.draw.regHeld off = false := hh
  have hg : mapGet s.draw.latch (latchKey path off) = some w := hw
  simp only [State.read32, hd, hl, hi, hg]
  rfl

/-- A read of a held register, or of one that is no half of a 64-bit value, leaves the latches alone. -/
theorem read32_of_unlatched {s : State} {off : Nat} (path : Path)
    (h : s.regHeld off = true ∨ (isLo off = false ∧ isHi off = false)) :
    s.read32 path off = (s.draw, s.regVal off) := by
  rcases h with hh | ⟨hl, hi⟩
  · have hd : s.draw.regHeld off = true := hh
    simp only [State.read32, hd]
    rfl
  · simp only [State.read32, hl, hi]
    split <;> rfl

/-! ### The commands -/

/-- LO_READ through the BAR is a 32-bit read whose value goes out. -/
theorem exec_loRead_bar (s : State) (off : Nat) :
    exec (.loRead .bar off) s =
      .next (kept s ((s.read32 .bar off).1.emit (.barRead (s.read32 .bar off).2.toNat))) := ran_eq s _

/-- LO_READ over the lane is a 32-bit read whose value goes out with REG_READ's reply (log 51). -/
theorem exec_loRead_lane (s : State) (off : Nat) :
    exec (.loRead .lane off) s = .next (kept s (s.read32 .lane off).1) := ran_eq s _

/-- REG_READ of a register out of reset is answered at once. -/
theorem exec_regRead_free {s : State} {off : Nat} (seq : Nat) (hd : s.domHeld 1 = false)
    (hh : s.regHeld off = false) :
    exec (.regRead seq off) s =
      .next (kept s ((s.read32 .lane off).1.emit (.lane 2 0 seq [(s.read32 .lane off).2]))) := by
  change execRegRead seq off s = _
  simp only [execRegRead, hd, hh, Bool.and_false]
  rfl

/-- REG_READ of a held register waits. -/
theorem exec_regRead_held {s : State} {off : Nat} (seq : Nat) (hd : s.domHeld 1 = false) (hh : s.regHeld off = true)
    (hb : inBlock off = true) :
    exec (.regRead seq off) s = .next { s with laneReqs := s.laneReqs ++ [(seq, off)] } := by
  change execRegRead seq off s = _
  simp only [execRegRead, hd, hh, hb]
  rfl

/-- The state in which a lane request waits no longer. -/
def dropLaneReq (s : State) (seq : Nat) : State := { s with laneReqs := s.laneReqs.filter (fun x => x.1 != seq) }

/-- LANE_READ_NO_RESPONSE answers a waiting read of a register still held with result 1. -/
theorem exec_laneReadNoResponse_held {s : State} {seq off : Nat} (hd : s.domHeld 1 = false)
    (hf : s.laneReqs.find? (fun x => x.1 == seq) = some (seq, off)) (hh : s.regHeld off = true) :
    exec (.laneReadNoResponse seq) s = .next (kept s ((dropLaneReq s seq).emit (.lane 2 1 seq [0]))) := by
  have hu : (dropLaneReq s seq).regHeld off = true := hh
  change execLaneReadNoResponse seq s = _
  simp only [execLaneReadNoResponse, hd, hf]
  exact congrArg (ran s) (if_pos hu)

/-- LANE_READ_NO_RESPONSE answers a waiting read of a register that has come out of reset with its value. -/
theorem exec_laneReadNoResponse_free {s : State} {seq off : Nat} (hd : s.domHeld 1 = false)
    (hf : s.laneReqs.find? (fun x => x.1 == seq) = some (seq, off)) (hh : s.regHeld off = false) :
    exec (.laneReadNoResponse seq) s =
      .next (kept s (((dropLaneReq s seq).read32 .lane off).1.emit
        (.lane 2 0 seq [((dropLaneReq s seq).read32 .lane off).2]))) := by
  have hu : (dropLaneReq s seq).regHeld off = false := hh
  change execLaneReadNoResponse seq s = _
  simp only [execLaneReadNoResponse, hd, hf]
  exact congrArg (ran s) (if_neg (ne_true_of_eq_false hu))

/-- Settles O12: a read through the BAR goes one of `read32`'s three ways, and the lane's requests are answered or wait
by whether the register's domain is held. -/
theorem registerReads : Obligations.RegisterReads := by
  unfold Obligations.RegisterReads
  refine ⟨?lo, ?hi, ?plain, exec_loRead_lane, fun _ seq _ => exec_regRead_free seq, fun _ seq _ => exec_regRead_held seq,
    fun _ _ _ => exec_laneReadNoResponse_held, fun s seq _ hd hf hh =>
      ⟨dropLaneReq s seq, rfl, exec_laneReadNoResponse_free hd hf hh⟩⟩
  case lo =>
    intro s off hh hl
    rw [exec_loRead_bar, read32_of_lo .bar hh hl]
    rfl
  case hi =>
    intro s off w hh hl hi hw
    rw [exec_loRead_bar, read32_of_latched hh hl hi hw]
    rfl
  case plain =>
    intro s off h
    rw [exec_loRead_bar, read32_of_unlatched .bar h]
    rfl

end Sys2Proof.Proofs
end

section
/-! SUPPORT. Register writes of every width and path, and writes of 64-bit pairs (R7 to R9, R67, R68, R619, R624, R630;
O13). -/
namespace Sys2Proof.Proofs

open Sys2Proof Sys2Proof.Machine Sys2Proof.Safety Sys2Proof.Laws

/-! ### A 32-bit write -/

/-- The offset names a register that a 32-bit write reaches: it lies below the tenants' block, its domain is out of
reset and its gallery, where it has one, is on. -/
structure Reached (s : State) (off : Nat) : Prop where
  below : off < 0x220000
  free : s.regHeld off = false
  lit : s.galDark off = false

/-- A write that reaches its register is one of a _LO half, of a _HI half or of a plain register. -/
theorem write32_of_reached {s : State} {off : Nat} (h : Reached s off) (path : Path) (w : Word) :
    s.write32 path off w =
      if isLo off then (if regMask off = 0 then s else { s with heldLo := mapSet s.heldLo (regNorm off) w })
      else if isHi off then s.writeHi off w
      else s.writePlain path off w := by
  obtain ⟨hb, hh, hg⟩ := h
  have hin : inBlock off = true := decide_eq_true (by omega)
  have hlt : decide (0x220000 ≤ off) = false := decide_eq_false (by omega)
  simp only [State.write32, hin, hlt, hh, hg]
  rfl

/-- A write of a held register, or past the last register, changes nothing. -/
theorem write32_of_unreached {s : State} {off : Nat} (h : s.regHeld off = true ∨ 0x220000 ≤ off) (path : Path)
    (w : Word) : s.write32 path off w = s := by
  refine if_pos ?_
  rcases h with hh | hb
  · simp [hh]
  · simp [hb]

/-- A write of a _LO half that takes writes holds the half apart (R7). -/
theorem write32_lo {s : State} {off : Nat} (h : Reached s off) (hl : isLo off = true) (hm : regMask off ≠ 0)
    (path : Path) (w : Word) :
    s.write32 path off w = { s with heldLo := mapSet s.heldLo (regNorm off) w } := by
  rw [write32_of_reached h, if_pos hl, if_neg hm]

/-- A write of a _HI half is that of its pair. -/
theorem write32_hi {s : State} {off : Nat} (h : Reached s off) (hl : isLo off = false) (hi : isHi off = true)
    (path : Path) (w : Word) : s.write32 path off w = s.writeHi off w := by
  rw [write32_of_reached h, if_neg (ne_true_of_eq_false hl), if_pos hi]

/-- A write of a register that is no half is a plain one. -/
theorem write32_plain {s : State} {off : Nat} (h : Reached s off) (hl : isLo off = false) (hi : isHi off = false)
    (path : Path) (w : Word) : s.write32 path off w = s.writePlain path off w := by
  rw [write32_of_reached h, if_neg (ne_true_of_eq_false hl), if_neg (ne_true_of_eq_false hi)]

/-! ### What a pair and a plain register do with it -/

/-- The state in which a pair's _LO half is held no longer. -/
def dropHeldLo (s : State) (lo : Nat) : State := { s with heldLo := mapDel s.heldLo lo }

/-- The _HI write sets both halves of an open pair whose _LO half is held (R7). -/
theorem writeHi_held {s : State} {off : Nat} {v : Word} (w : Word) (hm : regMask off ≠ 0)
    (ha : regNorm (off - 4) ≠ Reg.FLT_LEN_AT_LO) (hs : regNorm (off - 4) ≠ Reg.GAL_STAT_BASE_LO)
    (ho : s.pairShut (regNorm (off - 4)) = false) (hv : mapGet s.heldLo (regNorm (off - 4)) = some v) :
    s.writeHi off w =
      ((dropHeldLo s (regNorm (off - 4))).setReg (regNorm (off - 4)) (v &&& regMask (regNorm (off - 4)))).setReg
        (regNorm (off - 4) + 4) (w &&& regMask (regNorm (off - 4) + 4)) := by
  have ho' : (dropHeldLo s (regNorm (off - 4))).pairShut (regNorm (off - 4)) = false := ho
  have hs' : (regNorm (off - 4) == Reg.GAL_STAT_BASE_LO) = false := beq_false_of_ne hs
  unfold dropHeldLo at ho' ⊢
  simp only [State.writeHi, if_neg ha, hm, ho', hv, hs']
  rfl

/-- The write of FLT_LEN_AT_HI arms the length at the landing that both halves give (R67). -/
theorem writeHi_lenAt {s : State} {v : Word} (w : Word) (hv : mapGet s.heldLo Reg.FLT_LEN_AT_LO = some v) :
    s.writeHi Reg.FLT_LEN_AT_HI w = (dropHeldLo s Reg.FLT_LEN_AT_LO).armLength (Word.pair v w) := by
  have hn : regNorm (Reg.FLT_LEN_AT_HI - 4) = Reg.FLT_LEN_AT_LO := by decide
  simp only [State.writeHi, hn, hv]
  rfl

/-- R68 lets the length be armed at a landing. -/
def MayArm (h : Hall) (landing : Nat) : Prop :=
  25 ≤ h.lenNext ∧ h.lenNext ≤ 6400 ∧ h.landing + 2 ≤ landing ∧ (h.sync = .root ∨ h.sync = .standalone)

/-- What `State.armLength` discards is what R68 does not let be armed. -/
theorem armDiscards_iff (h : Hall) (landing : Nat) :
    (h.lenNext < 25 || decide (h.lenNext > 6400) || decide (landing < h.landing + 2) ||
      !(h.sync == .root || h.sync == .standalone)) = true ↔ ¬ MayArm h landing := by
  simp only [MayArm, Bool.or_eq_true, decide_eq_true_eq, Bool.not_eq_true', Bool.or_eq_false_iff, beq_eq_false_iff_ne,
    not_and_or, not_or, Nat.not_le, gt_iff_lt, or_assoc, ne_eq]

/-- An arming that R68 allows. -/
theorem armLength_of_mayArm {s : State} {landing : Nat} (h : MayArm s.hall landing) :
    s.armLength landing =
      s.modHall (fun h => { h with lenAt := landing, lenPend := some (h.lenNext, landing) }) :=
  if_neg fun hc => (armDiscards_iff s.hall landing).1 hc h

/-- An arming that R68 discards leaves an earlier one standing (log 39). -/
theorem armLength_of_not_mayArm {s : State} {landing : Nat} (h : ¬ MayArm s.hall landing) :
    s.armLength landing = s :=
  if_pos ((armDiscards_iff s.hall landing).2 h)

/-- A write of a register with no effect of its own and no bits that a 1 clears sets it. -/
theorem writePlain_of_none {s : State} {path : Path} {off : Nat} {w : Word} (ha : s.writeAct path off w = none)
    (hc : s.clearBits off w = none) : s.writePlain path off w = s.setPlain off w := by
  simp only [State.writePlain, ha, hc]

/-- A write of a register with no effect of its own, while the engine runs, sets its writable bits and wakes work. -/
theorem setPlain_run {s : State} {off : Nat} {w : Word} (hm : regMask off ≠ 0)
    (ho : s.writeOk (regNorm off) w = true) (hr : s.rst.phase = .run) (hp : regNorm off ≠ Reg.XLT_PRI_CFG)
    (hsalt : regNorm off < Reg.RC_SALT0 ∨ Reg.RC_SALT7 < regNorm off) :
    s.setPlain off w = (s.setReg (s.regKey off)
      ((s.reg (s.regKey off) &&& ~~~ regMask off) ||| (s.keepSize (regNorm off) w &&& regMask off))).wake := by
  have hns : ¬ (Reg.RC_SALT0 ≤ regNorm off ∧ regNorm off ≤ Reg.RC_SALT7) := by omega
  have hir : ∀ (k : Nat) (x : Word), (s.setReg k x).inReset = false := by
    intro k x
    simp [State.inReset, State.setReg, hr]
  simp only [State.setPlain, hm, ho, hns, hp, hir, decide_false, Bool.not_true, Bool.or_false, Bool.false_eq_true,
    if_false]

/-! ### Widths and paths -/

/-- An aligned write of four bytes. -/
theorem barWrite_word (s : State) {off : Nat} (h : off % 4 = 0) (w : Word) :
    s.barWrite off 4 w.toNat = s.write32 .bar off w := by
  have hw : Word.ofNat w.toNat = w := (BitVec.ofNat_toNat 32 w).trans (BitVec.setWidth_eq w)
  rw [State.barWrite, if_pos ⟨rfl, h⟩, hw]

/-- An aligned write of eight bytes is one of the lower word and then of the upper (R8). -/
theorem barWrite_pair (s : State) {off : Nat} (h : off % 8 = 0) (v : Nat) :
    s.barWrite off 8 v =
      (s.write32 .bar off (Word.ofNat v)).write32 .bar (off + 4) (Word.ofNat (v / 2 ^ 32)) := by
  rw [State.barWrite, if_neg (by omega), if_pos ⟨rfl, h⟩]

/-- A write of another width or alignment, and one of four bytes that reaches no register, changes nothing. -/
theorem barWrite_nothing {s : State} {off width : Nat} (v : Nat)
    (h : (width ≠ 4 ∧ width ≠ 8) ∨ off % width ≠ 0 ∨ (width = 4 ∧ (s.regHeld off = true ∨ 0x220000 ≤ off))) :
    s.barWrite off width v = s := by
  unfold State.barWrite
  split
  next h4 =>
    obtain ⟨rfl, ha⟩ := h4
    rcases h with ⟨hne, _⟩ | hmis | ⟨_, hout⟩
    · exact absurd rfl hne
    · exact absurd ha hmis
    · exact write32_of_unreached hout .bar _
  next =>
    split
    next h8 =>
      obtain ⟨rfl, ha⟩ := h8
      rcases h with ⟨_, hne⟩ | hmis | ⟨h4, _⟩
      · exact absurd rfl hne
      · exact absurd ha hmis
      · exact absurd h4 (by decide)
    next => rfl

/-! ### The commands -/

/-- REGISTER_WRITE is a write through the BAR. -/
theorem exec_registerWrite (s : State) (off width v : Nat) :
    exec (.registerWrite off width v) s = .next (kept s (s.barWrite off width v)) := rfl

/-- LO_WRITE is a write of four bytes through the BAR. -/
theorem exec_loWrite (s : State) (off : Nat) (w : Word) :
    exec (.loWrite off w) s = .next (kept s (s.barWrite off 4 w.toNat)) := rfl

/-- HI_WRITE is a write of four bytes through the BAR. -/
theorem exec_hiWrite (s : State) (off : Nat) (w : Word) :
    exec (.hiWrite off w) s = .next (kept s (s.barWrite off 4 w.toNat)) := rfl

/-- FLT_LEN_AT_HI_WRITE with its _LO half held arms the length, where the handrail is out of reset. -/
theorem exec_fltLenAtHiWrite {s : State} {v : Word} (w : Word) (hd : s.domHeld 1 = false)
    (hv : mapGet s.heldLo Reg.FLT_LEN_AT_LO = some v) :
    exec (.fltLenAtHiWrite w) s =
      .next (kept s ((dropHeldLo s Reg.FLT_LEN_AT_LO).armLength (Word.pair v w))) := by
  have hr : Reached s Reg.FLT_LEN_AT_HI := ⟨by decide, hd, rfl⟩
  change ran s (s.write32 .bar Reg.FLT_LEN_AT_HI w) = _
  rw [write32_hi hr (by decide) (by decide), writeHi_lenAt w hv, ran_eq]

/-- REG_WRITE of a register that can be written over the lane answers, then writes (log 51). -/
theorem exec_regWrite_writable {s : State} {off : Nat} (seq : Nat) (w : Word) (hd : s.domHeld 1 = false)
    (hl : laneWritable off = true) :
    exec (.regWrite seq off w) s =
      .next (kept s ((s.emit (.lane 2 (if s.laneDenied off w then 2 else 0) seq [0])).write32 .lane off w)) := by
  change execRegWrite seq off w s = _
  simp only [execRegWrite, hd, hl]
  rfl

/-- REG_WRITE of any other register is denied. -/
theorem exec_regWrite_denied {s : State} {off : Nat} (seq : Nat) (w : Word) (hd : s.domHeld 1 = false)
    (hl : laneWritable off = false) :
    exec (.regWrite seq off w) s = .next (kept s (s.emit (.lane 2 2 seq [0]))) := by
  change execRegWrite seq off w s = _
  simp only [execRegWrite, hd, hl]
  rfl

/-- Settles O13: every write is `write32` at a reached or unreached offset, once or twice, and each kind of register has
one lemma above for what it does with the word. -/
theorem registerWrites : Obligations.RegisterWrites := by
  unfold Obligations.RegisterWrites
  refine ⟨?lo, ?hi, ?arm, ?discard, ?plain, ?pair, ?nothing, fun _ seq _ w => exec_regWrite_writable seq w,
    fun _ seq _ w => exec_regWrite_denied seq w⟩
  case lo =>
    intro s off w ha hb hh hg hl hm
    rw [exec_loWrite, barWrite_word s ha, write32_lo ⟨hb, hh, hg⟩ hl hm]
    rfl
  case hi =>
    intro s off v w ha hb hh hg hl hi hm hlen hstat hopen hv
    rw [exec_hiWrite, barWrite_word s ha, write32_hi ⟨hb, hh, hg⟩ hl hi, writeHi_held w hm hlen hstat hopen hv]
    rfl
  case arm =>
    intro s v w hd hv hlo hhi hat hsync
    have hm : MayArm s.hall (Word.pair v w) := ⟨hlo, hhi, hat, hsync⟩
    rw [exec_fltLenAtHiWrite w hd hv, armLength_of_mayArm (s := dropHeldLo s Reg.FLT_LEN_AT_LO) hm]
    rfl
  case discard =>
    intro s v w hd hv hbad
    have hm : ¬ MayArm s.hall (Word.pair v w) := by
      rintro ⟨hlo, hhi, hat, hsync⟩
      rcases hbad with h | h | h | ⟨hroot, halone⟩
      · omega
      · omega
      · omega
      · exact hsync.elim hroot halone
    rw [exec_fltLenAtHiWrite w hd hv, armLength_of_not_mayArm (s := dropHeldLo s Reg.FLT_LEN_AT_LO) hm]
    rfl
  case plain =>
    intro s off w ha hb hh hg hl hi hact hclr hm hok hrun hpri hsalt
    rw [exec_registerWrite, barWrite_word s ha, write32_plain ⟨hb, hh, hg⟩ hl hi,
      writePlain_of_none hact hclr, setPlain_run hm hok hrun hpri hsalt]
  case pair =>
    intro s off v ha
    rw [exec_registerWrite, barWrite_pair s ha]
  case nothing =>
    intro s off width v h
    rw [exec_registerWrite, barWrite_nothing v h, kept_self]

end Sys2Proof.Proofs
end

section
/-! SUPPORT. What serving leaves alone: the commands that `serves` names, each by its own law of Laws/KeepExec (O54). -/
namespace Sys2Proof.Proofs

open Sys2Proof Sys2Proof.Machine Sys2Proof.Safety Sys2Proof.Laws

/-- A command that serves keeps the invariant and the parts of the state that serving leaves alone. The commands that do
not serve fall to the last arm, where the hypothesis `serves c = true` reads `false = true`. -/
theorem held_of_serves {c : Instr} {s t : State} (hc : serves c = true) (hs : Sane s) (h : exec c s = .next t) :
    Held s t := by
  cases c with
  -- datapath packets (R132)
  | nop => exact held_execNop h hs
  | bag => exact held_execBag h hs
  | bagInteract => exact held_execBagInteract h hs
  | arrayOp => exact held_execArrayOp h hs
  | tileRead => exact held_execTileRead h hs
  | tileWrite => exact held_execTileWrite h hs
  | vecChain => exact held_execVecChain h hs
  | updateBatch => exact held_execUpdateBatch h hs
  | splitReduce => exact held_execSplitReduce h hs
  | copy => exact held_execCopy h hs
  | recheck => exact held_execRecheck h hs
  | inlineWrite => exact held_execInlineWrite h hs
  -- control opcodes (R147)
  | statusGet => exact held_execStatusGet h hs
  | tenantSet => exact held_execTenantSet h hs
  | tenantDestroy => exact held_execTenantDestroy h hs
  | pasidBind => exact held_execPasidBind h hs
  | pasidUnbind => exact held_execPasidUnbind h hs
  | ringCreate => exact held_execRingCreate h hs
  | ringDestroy => exact held_execRingDestroy h hs
  | ringReset => exact held_execRingReset h hs
  | tableDefine => exact held_execTableDefine h hs
  | tableState => exact held_execTableState h hs
  | versionSwitch => exact held_execVersionSwitch h hs
  | shardMapWrite => exact held_execShardMapWrite h hs
  | epochBump => exact held_execEpochBump h hs
  | migrate => exact held_execMigrate h hs
  | tableGrant => exact held_execTableGrant h hs
  | countersRead => exact held_execCountersRead h hs
  | telemetryCfg => exact held_execTelemetryCfg h hs
  | selftest => exact held_execSelftest h hs
  | fence => exact held_execFence h hs
  | drain => exact held_execDrain h hs
  | persistWrite => exact held_execPersistWrite h hs
  | repairMapWrite => exact held_execRepairMapWrite h hs
  | fwLoad => exact held_execFwLoad h hs
  | fwAccept => exact held_execFwAccept h hs
  | debugEnable => exact held_execDebugEnable h hs
  | wearOverride => exact held_execWearOverride h hs
  | hostLossMode => exact held_execHostLossMode h hs
  | reattach => exact held_execReattach h hs
  -- the concourse
  | concDb => exact held_execConcDb h hs
  | concEnable => exact held_execConcEnable h hs
  | chunkAdmit => exact held_execChunkAdmit h hs
  | ringFullAdvisory => exact held_execRingFullAdvisory h hs
  | promoteByAge => exact held_execPromoteByAge h hs
  | promoteByMargin => exact held_execPromoteByMargin h hs
  -- flights
  | lagClr => exact held_execLagClr h hs
  | nrgWindow => exact held_execNrgWindow h hs
  -- arriving kites
  | gather => exact held_execGather h hs
  | reply => exact held_execReply h hs
  | nack => exact held_execNack h hs
  | update => exact held_execUpdate h hs
  | updateAck => exact held_execUpdateAck h hs
  | migStart => exact held_execMigStart h hs
  | migData => exact held_execMigData h hs
  | migAck => exact held_execMigAck h hs
  | migDone => exact held_execMigDone h hs
  | hallRead => exact held_execHallRead h hs
  | hallWrite => exact held_execHallWrite h hs
  | hallAck => exact held_execHallAck h hs
  -- the fabric's links
  | transitFrame => exact held_execTransitFrame h hs
  | linkAck => exact held_execLinkAck h hs
  | linkRetransmit => exact held_execLinkRetransmit h hs
  | lossOfLight => exact held_execLossOfLight h hs
  | linkUp => exact held_execLinkUp h hs
  | primaryRouteRestore => exact held_execPrimaryRouteRestore h hs
  | zpPortEnable path => exact held_execZpPortEnable (_path := path) h hs
  | zpPortDisable path => exact held_execZpPortDisable (_path := path) h hs
  | zpRouteWrite path => exact held_execZpRouteWrite (_path := path) h hs
  -- tether slots and the updates of the home
  | slotHeldExpire => exact held_execSlotHeldExpire h hs
  | kiteTimeout => exact held_execKiteTimeout h hs
  | quarantineEnd => exact held_execQuarantineEnd h hs
  | kiteAbandon => exact held_execKiteAbandon h hs
  | creditBackoffEnd => exact held_execCreditBackoffEnd h hs
  | adderTake => exact held_execAdderTake h hs
  | combineFlush => exact held_execCombineFlush h hs
  | updateApplied => exact held_execUpdateApplied h hs
  | inboxTakeupExpire => exact held_execInboxTakeupExpire h hs
  | ledgerExpire => exact held_execLedgerExpire h hs
  | resetNackWindowEnd => exact held_execResetNackWindowEnd h hs
  | kiteUpdSnap => exact held_execKiteUpdSnap h hs
  -- table statistics and rows
  | galStatSnap => exact held_execGalStatSnap h hs
  | statFlush => exact held_execStatFlush h hs
  | rowArrival => exact held_execRowArrival h hs
  | denseCredit => exact held_execDenseCredit h hs
  -- the row cache
  | rcFill => exact held_execRcFill h hs
  | invRange => exact held_execInvRange h hs
  | invTable => exact held_execInvTable h hs
  | invAll => exact held_execInvAll h hs
  | mntNop => exact held_execMntNop h hs
  | mntWalkDone => exact held_execMntWalkDone h hs
  | rcEnable => exact held_execRcEnable h hs
  | rcDisable => exact held_execRcDisable h hs
  | rcPinWrite => exact held_execRcPinWrite h hs
  -- stairwell memory
  | hostMemWrite => exact held_execHostMemWrite h hs
  | hostMemRead => exact held_execHostMemRead h hs
  | refresh => exact held_execRefresh h hs
  | tempSample => exact held_execTempSample h hs
  | scrubRead => exact held_execScrubRead h hs
  | scrubPassEnd => exact held_execScrubPassEnd h hs
  | remapDone => exact held_execRemapDone h hs
  | stwRegCfgWrite => exact held_execStwRegCfgWrite h hs
  | marchTestStart => exact held_execMarchTestStart h hs
  | marchTestDone => exact held_execMarchTestDone h hs
  -- translation and the host link
  | atsCompletion => exact held_execAtsCompletion h hs
  | pageRequestResponse => exact held_execPageRequestResponse h hs
  | pageRequestTimeout => exact held_execPageRequestTimeout h hs
  | atsInvalidation => exact held_execAtsInvalidation h hs
  | priEnableChange => exact held_execPriEnableChange h hs
  | hotWindowEnd => exact held_execHotWindowEnd h hs
  | hostLinkDown => exact held_execHostLinkDown h hs
  | hostLinkUp => exact held_execHostLinkUp h hs
  -- copy channels
  | copyReadError => exact held_execCopyReadError h hs
  | cpyChStop => exact held_execCpyChStop h hs
  | cpyHaltClear => exact held_execCpyHaltClear h hs
  -- units, boot and the store
  | unitResetDone => exact held_execUnitResetDone h hs
  | boot => exact held_execBoot h hs
  | bootRequest => exact held_execBootRequest h hs
  | bootImage => exact held_execBootImage h hs
  | errWdogKick => exact held_execErrWdogKick h hs
  | errWdogCtlWrite => exact held_execErrWdogCtlWrite h hs
  | persistDone => exact held_execPersistDone h hs
  | rwpRegisterWrite => exact held_execRwpRegisterWrite h hs
  | hrMfpFuncWrite => exact held_execHrMfpFuncWrite h hs
  -- faults, fences and records
  | hot => exact held_execHot h hs
  | galCe => exact held_execGalCe h hs
  | galError => exact held_execGalError h hs
  | spareTestDone => exact held_execSpareTestDone h hs
  | selftestUnitDone => exact held_execSelftestUnitDone h hs
  | selftestIdleTimeout => exact held_execSelftestIdleTimeout h hs
  | hourWindow => exact held_execHourWindow h hs
  | fatal => exact held_execFatal h hs
  | drained => exact held_execDrained h hs
  | errDrainCmd => exact held_execErrDrainCmd h hs
  | errFenceCmd => exact held_execErrFenceCmd h hs
  | errInject => exact held_execErrInject h hs
  | errPendClear path => exact held_execErrPendClear (_path := path) h hs
  | errorRecord => exact held_execErrorRecord h hs
  | telemetry => exact held_execTelemetry h hs
  | telemetryWindow => exact held_execTelemetryWindow h hs
  -- the lane, host reads and the pins
  | packet => exact held_execPacket h hs
  | hostReadCompletion => exact held_execHostReadCompletion h hs
  | partitionTokenGain => exact held_execPartitionTokenGain h hs
  | landingPulseEnd => exact held_execLandingPulseEnd h hs
  | pinKeeperRelease => exact held_execPinKeeperRelease h hs
  | _ => exact absurd hc Bool.false_ne_true

/-- Settles O54: the parts that the statement names are those that `Held` compares with the state before. -/
theorem servingFrame : Obligations.ServingFrame := by
  intro c s t hc hs h
  obtain ⟨_, hactive, hlatch, hheldLo, hhall, hrst, hpres, hbk, hlane⟩ := held_of_serves hc hs h
  exact ⟨hactive, hlatch, hheldLo, hhall, hrst, hpres, hbk, hlane⟩

end Sys2Proof.Proofs
end

section
/-! SUPPORT. The link layer of a fabric port (R285 to R288; O20). -/
namespace Sys2Proof.Proofs

open Sys2Proof Sys2Proof.Machine Sys2Proof.Safety Sys2Proof.Laws

/-! ### Frames and acknowledgements -/

/-- With the router out of reset a frame with a good CRC passes it. -/
theorem exec_transitFrame_good {s : State} (f : Frame) (wait : Nat) (hd : s.domHeld 1 = false) :
    exec (.transitFrame f wait none) s = .next (kept s (s.transit f wait)) :=
  congrArg (ran s) (if_neg (ne_true_of_eq_false hd))

/-- With the router out of reset a frame with a bad CRC is counted by its port, and no more. -/
theorem exec_transitFrame_bad {s : State} (f : Frame) (wait p : Nat) (hd : s.domHeld 1 = false) :
    exec (.transitFrame f wait (some p)) s = .next (s.bump (selKey Reg.ZP_CRC_CNT p) 1) :=
  congrArg (ran s) (if_neg (ne_true_of_eq_false hd))

/-- The frames that LINK_ACK of `n` frames lets into a port's window, aged by their wait and sent now. -/
def ackSent (s : State) (port n : Nat) : List HeldFrame :=
  let k := min n (min (s.port port).held.length portWindow)
  ((((s.port port).held.drop k).drop (portWindow - k)).take k).map (fun (h : HeldFrame) =>
    { h with frame := agedBy h.frame (s.now - h.sent), sent := s.now })

/-- The frames that a port holds after LINK_ACK of `n` frames. -/
def ackHeld (s : State) (port n : Nat) : List HeldFrame :=
  let k := min n (min (s.port port).held.length portWindow)
  ((s.port port).held.drop k).take (portWindow - k) ++ ackSent s port n ++
    ((s.port port).held.drop k).drop portWindow

/-- The condition on which a link's command changes nothing. -/
theorem linkIdle_iff (s : State) (port : Nat) :
    (s.domHeld 1 || !(s.port port).up) = true ↔ s.domHeld 1 = true ∨ (s.port port).up = false := by
  rw [Bool.or_eq_true, Bool.not_eq_true']

/-- With the router out of reset and the link up neither condition for idling holds. -/
theorem linkRuns {s : State} {port : Nat} (hd : s.domHeld 1 = false) (hu : (s.port port).up = true) :
    ¬ (s.domHeld 1 || !(s.port port).up) = true := by
  simp [hd, hu]

/-- LINK_ACK with the link up. -/
theorem exec_linkAck_up {s : State} {port : Nat} (n : Nat) (hd : s.domHeld 1 = false)
    (hu : (s.port port).up = true) :
    exec (.linkAck port n) s = .next (kept s
      ((s.modPort port (fun p => { p with held := ackHeld s port n })).sendHeld port (ackSent s port n))) :=
  congrArg (ran s) (if_neg (linkRuns hd hu))

/-- LINK_ACK with the router in reset or the link down. -/
theorem exec_linkAck_idle {s : State} {port : Nat} (n : Nat) (h : s.domHeld 1 = true ∨ (s.port port).up = false) :
    exec (.linkAck port n) s = .next s :=
  congrArg (ran s) (if_pos ((linkIdle_iff s port).2 h))

/-! ### Retransmission -/

/-- The state at the time at which a frame sent last at `sent` is sent again (R285). -/
def retxDue (s : State) (sent : Nat) : State := { s with now := max s.now (sent + 500) }

/-- The frame as it is sent again: older by what it has waited, with one more try. -/
def retxFrame (s : State) (h : HeldFrame) : HeldFrame :=
  { h with
    frame := agedBy h.frame ((retxDue s h.sent).now - h.sent), sent := (retxDue s h.sent).now, tries := h.tries + 1 }

/-- LINK_RETRANSMIT of a link that is up, by the frame whose sending is the longest ago. -/
theorem exec_linkRetransmit_up {s : State} {port k : Nat} {h : HeldFrame} (hd : s.domHeld 1 = false)
    (hu : (s.port port).up = true)
    (ho : oldestHeld ((s.port port).held.take portWindow) 0 none = some (k, h)) :
    exec (.linkRetransmit port) s = .next (keptAt s
      (if 8 ≤ h.tries then ((retxDue s h.sent).linkDown port 1).wake
      else (((retxDue s h.sent).modPort port (fun p =>
        { p with held := updAt p.held k (fun _ => retxFrame s h) })).bump (selKey Reg.ZP_RETX_CNT port) 1).emit
          (.frame port (retxFrame s h).frame))) := by
  change execLinkRetransmit port s = _
  simp only [execLinkRetransmit, ho]
  exact congrArg (came s) (if_neg (linkRuns hd hu))

/-! ### A link that comes up and goes down -/

/-- LOSS_OF_LIGHT with the router out of reset. -/
theorem exec_lossOfLight {s : State} (port : Nat) (hd : s.domHeld 1 = false) :
    exec (.lossOfLight port) s = .next (kept s
      (((s.linkDown port 0).modPort port (fun p => { p with light := false })).wake)) :=
  congrArg (ran s) (if_neg (ne_true_of_eq_false hd))

/-- LINK_UP of a lit port whose link is down. -/
theorem exec_linkUp_lit {s : State} {port : Nat} (hd : s.domHeld 1 = false) (hl : (s.port port).lit = true)
    (hu : (s.port port).up = false) :
    exec (.linkUp port) s = .next (kept s
      ((s.modPort port (fun p => { p with up := true, upSince := s.now, light := true })).wake)) :=
  congrArg (ran s) (if_neg (by simp [hd, hl, hu]))

/-- LINK_UP of a dark port, or of one whose link is up. -/
theorem exec_linkUp_idle {s : State} {port : Nat} (h : (s.port port).lit = false ∨ (s.port port).up = true) :
    exec (.linkUp port) s = .next s :=
  congrArg (ran s) (if_pos (by rcases h with h | h <;> simp [h]))

/-- PRIMARY_ROUTE_RESTORE of a link that is up. -/
theorem exec_primaryRouteRestore {s : State} {port : Nat} (hd : s.domHeld 1 = false)
    (hu : (s.port port).up = true) :
    exec (.primaryRouteRestore port) s = .next (keptAt s (State.modPort
      { s with now := max s.now ((s.port port).upSince + 100000) } port (fun p => { p with settled := true }))) :=
  congrArg (came s) (if_neg (linkRuns hd hu))

/-- Settles O20: each command by whether the router is out of reset, the link is up and the port lit; LINK_RETRANSMIT by
the tries that its oldest frame has had. -/
theorem linkRows : Obligations.LinkRows := by
  unfold Obligations.LinkRows
  refine ⟨fun _ f wait => exec_transitFrame_good f wait, fun _ f wait p => exec_transitFrame_bad f wait p,
    fun s port n hd hu => ⟨_, _, ackSent s port n, rfl, rfl, rfl, exec_linkAck_up n hd hu⟩,
    fun _ _ n => exec_linkAck_idle n, ?down, ?again, fun _ port => exec_lossOfLight port,
    fun _ _ => exec_linkUp_lit, fun _ _ => exec_linkUp_idle, fun _ _ => exec_primaryRouteRestore,
    fun _ _ _ => ⟨rfl, rfl, rfl⟩⟩
  case down =>
    intro s port k h hd hu ho htries
    rw [exec_linkRetransmit_up hd hu ho, if_pos htries]
    rfl
  case again =>
    intro s port k h hd hu ho htries
    refine ⟨retxFrame s h, rfl, ?_⟩
    rw [exec_linkRetransmit_up hd hu ho, if_neg (Nat.not_le.2 htries)]
    rfl

end Sys2Proof.Proofs
end

section
/-! SUPPORT. Writes of ENG_PROFILE whose SEL is code 3 (R26; O44). -/
namespace Sys2Proof.Proofs

open Sys2Proof Sys2Proof.Machine Sys2Proof.Safety Sys2Proof.Laws

/-- ENG_PROFILE discards a value whose SEL is code 3. -/
theorem rwpValue_profile_of_code_three (s : State) {w : Word} (h : w.bits 1 0 = 3) : s.rwpValue 0 w = none :=
  if_pos (.inl h)

/-- A value that a settings register discards changes nothing. -/
theorem rwpWrite_of_discarded {s : State} {word : Nat} {v : Word} (h : s.rwpValue word v = none) :
    s.rwpWrite word v = s := by
  simp only [State.rwpWrite, h]

/-- PERSIST_WRITE of a settings word with a value that its register discards ends with ST_BAD_FIELD. -/
theorem mgPersist_of_discarded {s : State} {p : MqPkt} (hw : (uw p.words 2 0).bits 13 0 < 6)
    (h : s.rwpValue ((uw p.words 2 0).bits 13 0) (uw p.words 2 1) = none) :
    s.mgPersist p = s.mgEnd p (badAt 36) := by
  have hset : ¬ (640 ≤ (uw p.words 2 0).bits 13 0 ∧ (uw p.words 2 0).bits 13 0 < 4096) := by omega
  simp only [State.mgPersist, if_neg hset, if_pos hw, h]

/-- A write of ENG_PROFILE reaches it in every state: neither a domain nor a gallery holds it. -/
theorem reached_profile (s : State) : Reached s Reg.ENG_PROFILE := ⟨by decide, rfl, rfl⟩

/-- A 32-bit write of ENG_PROFILE is one of word 0 through its register. -/
theorem write32_profile (s : State) (path : Path) (w : Word) :
    s.write32 path Reg.ENG_PROFILE w = s.rwpWrite 0 w := by
  rw [write32_plain (reached_profile s) (by decide) (by decide)]
  rfl

/-- RWP_REGISTER_WRITE of ENG_PROFILE is a write of word 0 through its register. -/
theorem exec_rwpRegisterWrite_profile (s : State) (w : Word) :
    exec (.rwpRegisterWrite Reg.ENG_PROFILE w) s = .next (kept s (s.rwpWrite 0 w)) := rfl

/-- Settles O44: on every path the value comes to `State.rwpValue`, which has none for code 3. -/
theorem profileCodeThree : Obligations.ProfileCodeThree := by
  unfold Obligations.ProfileCodeThree
  refine ⟨?rwp, ?bar, ?packet⟩
  case rwp =>
    intro s w h
    rw [exec_rwpRegisterWrite_profile, rwpWrite_of_discarded (rwpValue_profile_of_code_three s h), kept_self]
  case bar =>
    intro s w h
    rw [exec_registerWrite, barWrite_word s (by decide), write32_profile,
      rwpWrite_of_discarded (rwpValue_profile_of_code_three s h), kept_self]
  case packet =>
    intro s p ns hturn hword hcode
    refine turn_go hturn rfl State.mgPersist (mgPersist_of_discarded (by omega) ?_)
    rw [hword]
    exact rwpValue_profile_of_code_three _ hcode

end Sys2Proof.Proofs
end

section
/-! SUPPORT. A step on an empty queue (R19; O51). -/
namespace Sys2Proof.Proofs

open Sys2Proof Sys2Proof.Machine

/-- With no command waiting a step is the idle step. -/
theorem step_of_empty {s : State} (h : s.pending = []) : step s = .next s.idle := by
  simp only [step, h]

/-- Settles O51: the idle step adds one reference cycle, 10 ns, to the time. -/
theorem idleStep : Obligations.IdleStep := by
  intro s h
  exact step_of_empty h

end Sys2Proof.Proofs
end

section
/-! SUPPORT. The grid of landings: what LANDING does to hall time, between the closing of the old flight and the work of
the new one (R44, R59, R64, R67, R69, R70, R632; O14). -/
namespace Sys2Proof.Proofs

open Sys2Proof Sys2Proof.Machine Sys2Proof.Safety Sys2Proof.Laws

/-! ### What the steps of the grid leave alone -/

/-- Where a state stands: its landing's number and time, FLT_ROOT as written and the reference clock; and what no landing
changes: the reset controller, presence, the backup domain and the profile. -/
structure Standing where
  landing : Nat
  landingAt : Nat
  root : Word
  refLost : Bool
  refReturn : Bool
  rst : Rst
  pres : Pres
  bk : Bk
  active : Nat

/-- Where a state stands. -/
def standing (s : State) : Standing :=
  ⟨s.hall.landing, s.hall.landingAt, s.hall.root, s.hall.refLost, s.hall.refReturn, s.rst, s.pres, s.bk, s.active⟩

/-- The flight length of a state, and the one armed. -/
structure Lengths where
  len : Nat
  lenPend : Option (Nat × Nat)
  lenHeld : Bool

/-- The flight lengths of a state. -/
def lengths (s : State) : Lengths := ⟨s.hall.len, s.hall.lenPend, s.hall.lenHeld⟩

/-- A state that keeps another's parts has its hall time. -/
theorem hall_of_held {s t : State} (h : Held s t) : t.hall = s.hall := by
  obtain ⟨_, _, _, _, hhall, _⟩ := h
  exact hhall

/-- A state that keeps another's parts stands where it does. -/
theorem standing_of_held {s t : State} (h : Held s t) : standing t = standing s := by
  obtain ⟨_, hactive, _, _, hhall, hrst, hpres, hbk, _⟩ := h
  simp only [standing, hhall, hrst, hpres, hbk, hactive]

/-! ### The number and the role -/

/-- With no step pending the landing is the next one, at its time. -/
theorem takeNumber_of_noStep {s : State} (at_ : Nat) (h : s.hall.stepPend = none) :
    s.takeNumber at_ = s.modHall (fun h => { h with landing := h.landing + 1, landingAt := at_ }) := by
  simp only [State.takeNumber, h]
  rfl

/-- FLT_ROOT comes into force at the same landing, with the flight lengths as they are. -/
theorem takeRole_keeps (s : State) : standing s.takeRole = standing s ∧ lengths s.takeRole = lengths s := by
  unfold State.takeRole
  dsimp only
  split
  · exact ⟨rfl, rfl⟩
  · split <;> exact ⟨rfl, rfl⟩

/-- FLT_ROOT as written is in force once it has been taken (R632). -/
theorem takeRole_rootInForce (s : State) : s.takeRole.hall.rootInForce = s.hall.root := by
  unfold State.takeRole
  dsimp only
  split
  next h => exact h.symm
  next => split <;> rfl

/-! ### The flight length -/

/-- Taking up a length (R69, R55, R56) changes registers, what goes out and the error state, by the record of a held
change, and the flight lengths, and nothing else. -/
theorem takeLength_proj {β : Type} (f : State → β)
    (hf : ∀ s r o e l p b, f { s with
      regs := r, outs := o, err := e, hall := { s.hall with len := l, lenPend := p, lenHeld := b } } = f s)
    (s : State) (release : Bool) : f (s.takeLength release) = f s := by
  have hset : ∀ (s : State) l p b, f (s.modHall (fun h => { h with len := l, lenPend := p, lenHeld := b })) = f s :=
    fun s => hf s s.regs s.outs s.err
  have hrec : ∀ (s : State) at_, f (s.heldRun at_) = f s := fun s _ =>
    raise_proj f (fun s r o e => hf s r o e s.hall.len s.hall.lenPend s.hall.lenHeld) s _
  unfold State.takeLength
  split
  next l at_ _ =>
    refine ite_proj f rfl (ite_proj f (hset s s.hall.len s.hall.lenPend true) (ite_proj f rfl ?_))
    exact (hset _ _ _ _).trans (ite_proj f (hrec s at_) rfl)
  next => rfl

/-- With no length armed the flight length stays. -/
theorem takeLength_unarmed {s : State} (release : Bool) (h : s.hall.lenPend = none) : s.takeLength release = s := by
  simp only [State.takeLength, h]

/-- Before the landing it is armed for, the flight length stays. -/
theorem takeLength_early {s : State} {l a : Nat} (release : Bool) (h : s.hall.lenPend = some (l, a))
    (ha : s.hall.landing < a) : s.takeLength release = s := by
  simp only [State.takeLength, h]
  exact if_pos ha

/-- An armed length whose landing has come, neither held nor under FREE_LONG, is taken up. -/
theorem takeLength_due {s : State} {l a : Nat} (release : Bool) (h : s.hall.lenPend = some (l, a))
    (ha : a ≤ s.hall.landing) (hheld : s.hall.lenHeld = false) (hsync : s.hall.sync ≠ .freeLong) :
    s.takeLength release = s.modHall (fun h => { h with len := l, lenPend := none, lenHeld := false }) := by
  have hs : (s.hall.sync == SyncState.freeLong) = false := beq_false_of_ne hsync
  simp only [State.takeLength, h, if_neg (Nat.not_lt.2 ha), hs, hheld]
  rfl

/-! ### The slew -/

/-- A flight is slewed by at most an eighth of its length either way (R59). -/
theorem takeSlew_bound (s : State) :
    8 * s.takeSlew.hall.slewed ≤ 10 * s.takeSlew.hall.len ∧
      -(10 * (s.takeSlew.hall.len : Int)) ≤ 8 * s.takeSlew.hall.slewed := by
  have hlen : s.takeSlew.hall.len = s.hall.len := rfl
  have hns : (s.lenNs : Int) = s.hall.len * 10 := by simp [State.lenNs]
  have hslew : s.takeSlew.hall.slewed =
      if -10 ≤ s.hall.slewNs ∧ s.hall.slewNs ≤ 10 then 0
      else max (-((s.lenNs : Int) / 8)) (min ((s.lenNs : Int) / 8) s.hall.slewNs) := rfl
  have hlim : 0 ≤ (s.lenNs : Int) / 8 := by omega
  rw [hlen, hslew]
  split <;> omega

/-! ### The grid as a whole -/

/-- YF_REFCLK that has returned is taken up (R20). -/
def refTaken (h : Hall) : Hall := { h with refLost := h.refLost && !h.refReturn, refReturn := false }

/-- The state with the reference clock and the landing's number taken. -/
def numbered (s : State) (at_ : Nat) : State := (s.modHall refTaken).takeNumber at_

/-- The state with the whole grid of the landing at a time: number, role, length and slew. -/
def gridded (s : State) (at_ : Nat) : State :=
  ((numbered s at_).takeRole.takeLength (s.hall.sync != .freeLong)).takeSlew

/-- With no step pending the reference clock and the next number are all that is taken before the role. -/
theorem numbered_of_noStep {s : State} (at_ : Nat) (h : s.hall.stepPend = none) :
    numbered s at_ = s.modHall (fun h => { refTaken h with landing := h.landing + 1, landingAt := at_ }) :=
  takeNumber_of_noStep (s := s.modHall refTaken) at_ h

/-- The landing while the core is in reset: the grid, and the galleries' power (R64). -/
theorem landing_of_inReset {s : State} (hd : s.domHeld 1 = false) (hr : s.inReset = true) :
    s.landing = (gridded (s.due s.nextLanding) s.nextLanding).landingPulse.galStep := by
  have hr' : (s.due s.nextLanding).inReset = true := hr
  unfold State.landing
  simp only [hd, hr']
  rfl

/-- The landing while the core runs: the old flight closes before the grid, and the new one's work follows it (R70). -/
theorem landing_of_running {s : State} (hd : s.domHeld 1 = false) (hr : s.inReset = false) :
    s.landing = (gridded (s.due s.nextLanding).closeFlight s.nextLanding).landingPulse.coreLanding
      ((s.due s.nextLanding).closeFlight.hall.sync != .freeLong) := by
  have hr' : (s.due s.nextLanding).inReset = false := hr
  simp only [State.landing, hd, hr', Bool.false_eq_true, Bool.not_false, if_true, if_false]
  generalize (s.due s.nextLanding).closeFlight = b
  rfl

/-- While the handrail is held there is no landing. -/
theorem landing_of_held {s : State} (hd : s.domHeld 1 = true) : s.landing = s := if_pos hd

/-- The grid keeps the invariant. -/
theorem gridded_sane {s : State} (at_ : Nat) (h : Sane s) : Sane (gridded s at_) :=
  keep_State_takeSlew (keep_State_takeLength (keep_State_takeRole (keep_State_takeNumber (keep_State_modHall h))))

/-- What comes before the grid and what follows it leave hall time alone. -/
theorem landing_held_gridded {s : State} (hs : Sane s) (hd : s.domHeld 1 = false) :
    ∃ b, Held s b ∧ Held (gridded b s.nextLanding) s.landing := by
  have hdue : Held s (s.due s.nextLanding) := keep_State_due (Held.self hs)
  cases hr : s.inReset
  case false =>
    refine ⟨_, keep_State_closeFlight hdue, ?_⟩
    rw [landing_of_running hd hr]
    exact keep_State_coreLanding (keep_State_landingPulse
      (Held.self (gridded_sane _ (keep_State_closeFlight hdue).sane)))
  case true =>
    refine ⟨_, hdue, ?_⟩
    rw [landing_of_inReset hd hr]
    exact keep_State_galStep (keep_State_landingPulse (Held.self (gridded_sane _ hdue.sane)))

/-- The rest of the grid stands at the landing whose number has been taken. -/
theorem standing_gridded (s : State) (at_ : Nat) : standing (gridded s at_) = standing (numbered s at_) :=
  calc standing (gridded s at_)
      = standing ((numbered s at_).takeRole.takeLength (s.hall.sync != .freeLong)) := rfl
    _ = standing (numbered s at_).takeRole := takeLength_proj standing (fun _ _ _ _ _ _ _ => rfl) _ _
    _ = standing (numbered s at_) := (takeRole_keeps _).1

/-- FLT_ROOT in force after the grid is that written. -/
theorem gridded_rootInForce (s : State) (at_ : Nat) :
    (gridded s at_).hall.rootInForce = (numbered s at_).hall.root :=
  calc (gridded s at_).hall.rootInForce
      = ((numbered s at_).takeRole.takeLength (s.hall.sync != .freeLong)).hall.rootInForce := rfl
    _ = (numbered s at_).takeRole.hall.rootInForce :=
      takeLength_proj (fun s : State => s.hall.rootInForce) (fun _ _ _ _ _ _ _ => rfl) _ _
    _ = (numbered s at_).hall.root := takeRole_rootInForce _

/-- The synchronisation state after the grid is that of the role. -/
theorem gridded_sync (s : State) (at_ : Nat) :
    (gridded s at_).hall.sync = (numbered s at_).takeRole.hall.sync :=
  takeLength_proj (fun s : State => s.hall.sync) (fun _ _ _ _ _ _ _ => rfl) (numbered s at_).takeRole _

/-- The flight that opens is slewed by at most an eighth of its length. -/
theorem gridded_slewed (s : State) (at_ : Nat) :
    8 * (gridded s at_).hall.slewed ≤ 10 * (gridded s at_).hall.len ∧
      -(10 * ((gridded s at_).hall.len : Int)) ≤ 8 * (gridded s at_).hall.slewed :=
  takeSlew_bound _

section
variable {s : State} {at_ : Nat}

/-- The landing's number and role are taken with the flight lengths as they are. -/
theorem lengths_role (hstep : s.hall.stepPend = none) : lengths (numbered s at_).takeRole = lengths s := by
  rw [(takeRole_keeps _).2, numbered_of_noStep at_ hstep]
  rfl

/-- The length is taken up at the landing whose number has been taken. -/
theorem landing_role (hstep : s.hall.stepPend = none) :
    (numbered s at_).takeRole.hall.landing = s.hall.landing + 1 := by
  refine (congrArg Standing.landing (takeRole_keeps _).1).trans ?_
  rw [numbered_of_noStep at_ hstep]
  rfl

/-- With no length armed the lengths stay. -/
theorem lengths_gridded_unarmed (hstep : s.hall.stepPend = none) (h : s.hall.lenPend = none) :
    lengths (gridded s at_) = lengths s := by
  have hrole := lengths_role (at_ := at_) hstep
  unfold gridded
  rw [takeLength_unarmed _ ((congrArg Lengths.lenPend hrole).trans h)]
  exact hrole

/-- Before its landing an armed length stays armed. -/
theorem lengths_gridded_early {l a : Nat} (hstep : s.hall.stepPend = none) (h : s.hall.lenPend = some (l, a))
    (ha : s.hall.landing + 1 < a) : lengths (gridded s at_) = lengths s := by
  have hrole := lengths_role (at_ := at_) hstep
  unfold gridded
  rw [takeLength_early _ ((congrArg Lengths.lenPend hrole).trans h) ((landing_role hstep).trans_lt ha)]
  exact hrole

/-- At its landing an armed length, neither held nor under FREE_LONG, comes into force. -/
theorem gridded_due {l a : Nat} (hstep : s.hall.stepPend = none) (h : s.hall.lenPend = some (l, a))
    (ha : a ≤ s.hall.landing + 1) (hheld : s.hall.lenHeld = false) (hsync : (gridded s at_).hall.sync ≠ .freeLong) :
    (gridded s at_).hall.len = l ∧ (gridded s at_).hall.lenPend = none := by
  have hrole := lengths_role (at_ := at_) hstep
  rw [gridded_sync] at hsync
  unfold gridded
  rw [takeLength_due _ ((congrArg Lengths.lenPend hrole).trans h) (ha.trans_eq (landing_role hstep).symm)
    ((congrArg Lengths.lenHeld hrole).trans hheld) hsync]
  exact ⟨rfl, rfl⟩

end

/-- LANDING is the next landing, at its time. -/
theorem exec_landing (s : State) : exec .landing s = .next (keptAt s s.landing) := came_eq s _

/-- Settles O14: the closing of the old flight and the work of the new one keep hall time, so that it is the grid's;
and the grid takes number, role, length and slew in turn. -/
theorem landingGrid : Obligations.LandingGrid := by
  unfold Obligations.LandingGrid
  refine ⟨?runs, ?held⟩
  case runs =>
    intro s hs hd hstep
    obtain ⟨b, hb, ht⟩ := landing_held_gridded hs hd
    have hbh : b.hall = s.hall := hall_of_held hb
    rw [← hbh] at hstep ⊢
    have hth : (keptAt s s.landing).hall = (gridded b s.nextLanding).hall := hall_of_held ht
    have hroot := gridded_rootInForce b s.nextLanding
    have hgrid := standing_gridded b s.nextLanding
    rw [numbered_of_noStep s.nextLanding hstep] at hroot hgrid
    have hafter := (standing_of_held ht).trans hgrid
    have hbefore := standing_of_held hb
    obtain ⟨hup, hdown⟩ := gridded_slewed b s.nextLanding
    refine ⟨keptAt s s.landing, exec_landing s, ?_⟩
    rw [hth]
    exact ⟨congrArg Standing.landing hgrid, congrArg Standing.landingAt hgrid, congrArg Standing.root hgrid, hroot,
      congrArg Standing.refLost hgrid, congrArg Standing.refReturn hgrid,
      fun hpend => congrArg Lengths.len (lengths_gridded_unarmed hstep hpend),
      fun _ _ => gridded_due hstep,
      fun _ _ hpend ha =>
        have hlen := lengths_gridded_early hstep hpend ha
        ⟨congrArg Lengths.len hlen, (congrArg Lengths.lenPend hlen).trans hpend⟩,
      hup, hdown,
      (congrArg Standing.rst hafter).trans (congrArg Standing.rst hbefore),
      (congrArg Standing.pres hafter).trans (congrArg Standing.pres hbefore),
      (congrArg Standing.bk hafter).trans (congrArg Standing.bk hbefore),
      (congrArg Standing.active hafter).trans (congrArg Standing.active hbefore)⟩
  case held =>
    intro s hd
    rw [exec_landing, landing_of_held hd, keptAt_self]

end Sys2Proof.Proofs
end

section
/-! SUPPORT. What becomes of a packet that the concourse has read (R121 to R123, R148; O39). -/
namespace Sys2Proof.Proofs

open Sys2Proof Sys2Proof.Machine Sys2Proof.Safety Sys2Proof.Laws

section
variable {s : State} {t : Nat} {ws : List Word}

/-- A packet with a failing check is rejected with it (R121). -/
theorem takePkt_of_bad {e : Ending} (src : PktSrc) (cq : Option Nat) (index : Nat) (h : s.checkPkt t ws = some e) :
    s.takePkt src cq index t ws =
      (s.bump Reg.CONC_REJECT_CNT 1).packetRec src cq ws index e.status e.detail e.aux false := by
  simp only [State.takePkt, h]

/-- A datapath packet that passes the checks takes a context (R122). -/
theorem takePkt_of_data (src : PktSrc) (cq : Option Nat) (index : Nat) (h : s.checkPkt t ws = none)
    (hop : (uw ws 1 0).bits 15 0 < 0x8000) :
    s.takePkt src cq index t ws = s.acceptItem src cq index t ws := by
  have hd : isControl ((uw ws 1 0).bits 15 0) = false := decide_eq_false (Nat.not_le.2 hop)
  simp only [State.takePkt, h, hd, Bool.false_eq_true, if_false]

/-- A control packet that passes the checks goes to the management core (R122). -/
theorem takePkt_of_control (src : PktSrc) (cq : Option Nat) (index : Nat) (h : s.checkPkt t ws = none)
    (hop : 0x8000 ≤ (uw ws 1 0).bits 15 0) :
    s.takePkt src cq index t ws = s.acceptControl src cq index t ws := by
  have hc : isControl ((uw ws 1 0).bits 15 0) = true := decide_eq_true hop
  simp only [State.takePkt, h, hc, if_true]

/-- The control packet joins the queue while it takes the tenant's packets. -/
theorem acceptControl_of_taken (src : PktSrc) (cq : Option Nat) (index : Nat) (h : s.mqTakes t = true) :
    s.acceptControl src cq index t ws = s.modConc (fun c => Conc.noteMq { c with
      mq := c.mq ++ [⟨s.conc.nextSeq, t, src, cq, index, ws, s.hall.landing + (uw ws 1 0).bits 31 24⟩],
      nextSeq := c.nextSeq + 1 }) :=
  if_pos h

/-- A control packet that the queue does not take ends with ST_BUSY_RETRY (R148, R149). -/
theorem acceptControl_of_busy (src : PktSrc) (cq : Option Nat) (index : Nat) (h : s.mqTakes t = false) :
    s.acceptControl src cq index t ws =
      (s.bump Reg.CONC_BUSY_CNT 1).packetRec src cq ws index St.busyRetry s.retryAfter 0 false :=
  if_neg (ne_true_of_eq_false h)

end

/-- Settles O39: by the packet's first failing check, and where there is none by its opcode and, for a control packet,
by the queue; the item is the one that `State.newItem` makes. -/
theorem packetTaking : Obligations.PacketTaking := by
  unfold Obligations.PacketTaking
  refine ⟨fun _ src cq index _ _ _ => takePkt_of_bad src cq index, ?data, ?control⟩
  case data =>
    intro s src cq index t ws hok hop
    refine ⟨s.newItem src cq index t ws, _, rfl, rfl, rfl, rfl, rfl, rfl, rfl, rfl, rfl, rfl, rfl, rfl, rfl, rfl, rfl,
      rfl, rfl, rfl, ?_⟩
    rw [takePkt_of_data src cq index hok hop]
    rfl
  case control =>
    rintro s src cq index t ws p hok hop rfl
    rw [takePkt_of_control src cq index hok hop]
    exact ⟨acceptControl_of_taken src cq index, acceptControl_of_busy src cq index⟩

end Sys2Proof.Proofs
end

section
/-! SUPPORT. Rows that name one effect of a landing (log 37; O15). -/
namespace Sys2Proof.Proofs

open Sys2Proof Sys2Proof.Machine Sys2Proof.Safety Sys2Proof.Laws

/-- A row that names an effect of a landing runs the landing when it has the effect, and otherwise changes nothing. -/
theorem came_landingIf (s : State) (p : State → Bool) :
    came s (s.landingIf p) = .next (if p s.landing = true then keptAt s s.landing else s) := by
  unfold State.landingIf
  dsimp only
  split
  · exact came_eq s _
  · exact congrArg _ (keptAt_self s)

/-- Of the rows that name the execution of a scheduled action, where two ways of naming the actions agree. -/
theorem came_landingIf_actDone (s : State) {p q : Sched → Bool} (h : ∀ x, p x = q x) :
    came s (s.landingIf (fun t => s.actDone t p)) =
      .next (if s.actDone s.landing q = true then keptAt s s.landing else s) := by
  rw [came_landingIf, funext h]

/-- Settles O15: every row is `State.landingIf` of its effect; those of scheduled actions name the actions by their
kind. -/
theorem landingEffects : Obligations.LandingEffects := by
  intro s
  refine ⟨came_landingIf s _, ?switch, ?stateChange, ?epochBump, ?migrate, ?graceEnd, fun _ _ => came_landingIf s _,
    came_landingIf s _, came_landingIf s _, came_landingIf s _, came_landingIf s _⟩
  all_goals exact came_landingIf_actDone s fun x => by cases x.act <;> rfl

end Sys2Proof.Proofs
end

section
/-! SUPPORT. Doorbells, the concourse's enable, chunks, promotions and the ring-full advisory (R82, R95, R96, R103,
R110, R127; O26). -/
namespace Sys2Proof.Proofs

open Sys2Proof Sys2Proof.Machine Sys2Proof.Safety Sys2Proof.Laws

/-! ### The core's reset -/

theorem inReset_of_run {s : State} (h : s.rst.phase = .run) : s.inReset = false := by simp [State.inReset, h]

theorem inReset_of_not_run {s : State} (h : s.rst.phase ≠ .run) : s.inReset = true := by simp [State.inReset, h]

/-! ### Doorbells and the enable -/

/-- While the core runs CONC_DB has its ring read. -/
theorem concDb_run {s : State} (w : Word) (h : s.rst.phase = .run) : s.concDb w = (s.kick (w.bits 12 0)).wake :=
  if_neg (ne_true_of_eq_false (inReset_of_run h))

/-- While the core runs CONC_ENABLE sets CONC_CTL, starts the admin ring where EN was 0, and has every ring read. -/
theorem concEnable_run {s : State} (w : Word) (h : s.rst.phase = .run) :
    s.concEnable w = (if (s.reg Reg.CONC_CTL).bit 0 = true then s.setReg Reg.CONC_CTL (Word.ofNat (1 + 2 * w.bits 1 1))
      else (s.setReg Reg.CONC_CTL (Word.ofNat (1 + 2 * w.bits 1 1))).startAdmin).kickAll.wake :=
  if_neg (ne_true_of_eq_false (inReset_of_run h))

/-- While the core runs CHUNK_ADMIT tries the next chunk of an item at a gallery. -/
theorem exec_chunkAdmit_run {s : State} (n g : Nat) (h : s.rst.phase = .run) :
    exec (.chunkAdmit n g) s = .next (kept s (s.chunkAdmit n g).wake) :=
  congrArg (ran s) (if_neg (ne_true_of_eq_false (inReset_of_run h)))

/-- While the core is in reset doorbells, the enable and chunks change nothing. -/
theorem exec_concourse_inReset {s : State} (w : Word) (n g : Nat) (h : s.rst.phase ≠ .run) :
    exec (.concDb w) s = .next s ∧ exec (.concEnable w) s = .next s ∧ exec (.chunkAdmit n g) s = .next s :=
  have hr := inReset_of_not_run h
  ⟨congrArg (ran s) (if_pos hr), congrArg (ran s) (if_pos hr), congrArg (ran s) (if_pos hr)⟩

/-! ### Promotions -/

/-- An item of class 2 that is old enough for promotion by age (R95). -/
def AgeDue (s : State) (i : Item) : Prop :=
  i.cls = 2 ∧ s.rbits Reg.FLT_AGE 15 0 ≠ 0 ∧ i.accLanding + s.rbits Reg.FLT_AGE 15 0 ≤ s.hall.landing

/-- An item accepted in class 2 and not yet in class 0 is due within two landings (R96). -/
def MarginDue (s : State) (i : Item) : Prop := i.cls0 = 2 ∧ i.cls ≠ 0 ∧ i.due ≤ s.hall.landing + 2

/-- The state with an item's class promoted, and the promotion counted. -/
def promoted (s : State) (n cls : Nat) : State :=
  (s.modItem n (fun j => { j with cls := cls })).bump Reg.FLT_PROMO_CNT 1

theorem promoteAge_due {s : State} {n : Nat} {i : Item} (hi : s.item n = some i) (h : AgeDue s i) :
    s.promoteAge n = promoted s n 1 := by
  simp only [State.promoteAge, hi]
  exact if_pos h

theorem promoteAge_not_due {s : State} {n : Nat} {i : Item} (hi : s.item n = some i) (h : ¬ AgeDue s i) :
    s.promoteAge n = s := by
  simp only [State.promoteAge, hi]
  exact if_neg h

theorem promoteMargin_due {s : State} {n : Nat} {i : Item} (hi : s.item n = some i) (h : MarginDue s i) :
    s.promoteMargin n = promoted s n 0 := by
  simp only [State.promoteMargin, hi]
  exact if_pos h

theorem promoteMargin_not_due {s : State} {n : Nat} {i : Item} (hi : s.item n = some i) (h : ¬ MarginDue s i) :
    s.promoteMargin n = s := by
  simp only [State.promoteMargin, hi]
  exact if_neg h

/-! ### The ring-full advisory -/

/-- The condition on which RING_FULL_ADVISORY writes no record. -/
theorem notAdvised_iff (landing since : Nat) (q : CplRing) :
    (decide (landing < since + 16) || q.advised || decide (q.free < 1)) = true ↔
      landing < since + 16 ∨ q.advised = true ∨ q.free = 0 := by
  simp only [Bool.or_eq_true, decide_eq_true_eq, Nat.lt_one_iff, or_assoc]

section
variable {s : State} {n since : Nat} {r : CmdRing} {q : CplRing}

/-- RING_FULL_ADVISORY for a ring that waits for slots in a completion ring. -/
theorem exec_ringFullAdvisory_waiting (hr : s.ring n = some r) (hw : r.wait = .cq since)
    (hq : mapGet s.conc.cpl r.cq = some q) :
    exec (.ringFullAdvisory n) s =
      if s.hall.landing < since + 16 ∨ q.advised = true ∨ q.free = 0 then .next s
      else .next (kept s ((s.modCpl r.cq (fun q => { q with advised := true })).putRec r.cq
        (recWords s St.ringFull 0 0 n r.head (s.hall.landing - since) 0) false true false)) := by
  change execRingFullAdvisory n s = _
  simp only [execRingFullAdvisory, hr, hw, hq, notAdvised_iff]
  rfl

end

/-- Settles O26: each row by whether the core runs, the item is due for promotion, or the ring has waited long enough
for a record that finds a slot. -/
theorem concourseRows : Obligations.ConcourseRows := by
  unfold Obligations.ConcourseRows
  refine ⟨?doorbell, ?enableFresh, ?enableAgain, fun _ => exec_concourse_inReset, fun _ => exec_chunkAdmit_run, ?age,
    ?noAge, ?margin, ?noMargin, ?advisory, ?noAdvisory⟩
  case doorbell => exact fun s w h => congrArg (ran s) (concDb_run w h)
  case enableFresh =>
    intro s w h hen
    refine congrArg (ran s) ((concEnable_run w h).trans ?_)
    rw [if_neg (ne_true_of_eq_false hen)]
  case enableAgain =>
    intro s w h hen
    refine congrArg (ran s) ((concEnable_run w h).trans ?_)
    rw [if_pos hen]
  case age => exact fun s n i hi h2 hage hdue => congrArg (ran s) (promoteAge_due hi ⟨h2, hage, hdue⟩)
  case noAge =>
    intro s n i hi h
    refine congrArg (ran s) (promoteAge_not_due hi ?_)
    rintro ⟨h2, hage, hdue⟩
    omega
  case margin => exact fun s n i hi h2 h0 hdue => congrArg (ran s) (promoteMargin_due hi ⟨h2, h0, hdue⟩)
  case noMargin =>
    intro s n i hi h
    refine congrArg (ran s) (promoteMargin_not_due hi ?_)
    rintro ⟨h2, h0, hdue⟩
    omega
  case advisory =>
    intro s n since r q hr hw hq hsince hadv hfree
    rw [exec_ringFullAdvisory_waiting hr hw hq, if_neg]
    rintro (h | h | h)
    · omega
    · exact absurd (hadv.symm.trans h) Bool.false_ne_true
    · omega
  case noAdvisory =>
    intro s n since r q hr hw hq h
    rw [exec_ringFullAdvisory_waiting hr hw hq, if_pos h]

end Sys2Proof.Proofs
end

section
/-! SUPPORT. The queue of waiting commands and the engine's time: a step takes the front command, and how a command can
end (log 1; O50, O52). -/
namespace Sys2Proof.Proofs

open Sys2Proof Sys2Proof.Machine Sys2Proof.Safety Sys2Proof.Laws

/-- With a command at the front of the queue a step runs it on the queue's rest. -/
theorem step_of_cons {c : Instr} {s : State} {rest : List Instr} (h : s.pending = c :: rest) :
    step s = exec c (s.withQueue rest) := by
  simp only [step, h]

/-- Settles O50: `State.withQueue` is the state with the queue's rest. -/
theorem stepRunsFront : Obligations.StepRunsFront := by
  intro c s rest h
  exact step_of_cons h

/-- The ways in which a command run in a state ends: at once, at the instant of a timed event, or with a fault. -/
inductive Ends (s : State) : Host.Outcome State Fault Refusal → Prop where
  | ran (t : State) : Ends s (ran s t)
  | came (t : State) : Ends s (came s t)
  | fault (f : Fault) : Ends s (.fault f)

/-- A command that ends with a next state has not taken time back or touched the queue. -/
theorem Ends.next {s t : State} (h : Ends s (.next t)) : s.now ≤ t.now ∧ t.pending = s.pending := by
  generalize ho : Host.Outcome.next t = o at h
  cases h with
  | ran u => cases ho; exact ⟨Nat.le_refl _, rfl⟩
  | came u => cases ho; exact ⟨Nat.le_max_left _ _, rfl⟩
  | fault f => cases ho

/-- A command that first asks for a fault ends as its meaning does where there is none. -/
theorem ends_ite {s : State} {c : Prop} [Decidable c] {a b : Host.Outcome State Fault Refusal} (ha : Ends s a)
    (hb : Ends s b) : Ends s (if c then a else b) := by
  split
  · exact ha
  · exact hb

/-- RING_FULL_ADVISORY takes no time, whether or not it writes its record. -/
theorem ends_ringFullAdvisory (n : Nat) (s : State) : Ends s (execRingFullAdvisory n s) := by
  unfold execRingFullAdvisory
  split
  · exact .ran s
  · split
    · exact ends_ite (.ran s) (.ran _)
    · exact .ran s

/-- Every command ends at once, at its event's instant, or with a fault: three commands name stairwell memory from
outside and can find none there (log 16). -/
theorem exec_ends (c : Instr) (s : State) : Ends s (exec c s) := by
  cases c with
  | ringFullAdvisory n => exact ends_ringFullAdvisory n s
  | scrubRead | hostMemWrite | hostMemRead => exact ends_ite (.fault _) (.ran _)
  | presenceExpire | pinKeeperRelease | landingPulseEnd | landing | flightLengthChange | switchTakesEffect
  | stateChangeTakesEffect | epochBumpTakesEffect | migrateStart | graceEnd | slotEmpty | heldRun | resyncStep
  | spareEnabled | floorBreach | beaconSend | upstreamSwitch | syncFree | syncFreeLong | resetHoldEnd | releaseStep
  | domainReady | bootRequest | wdogExpiry | selftestUnitDone | selftestIdleTimeout | unitResetDone
  | pageRequestTimeout | hostLossReset | linkRetransmit | primaryRouteRestore | slotHeldExpire | kiteTimeout
  | quarantineEnd | kiteAbandon | inboxTakeupExpire | ledgerExpire | resetNackWindowEnd | spareTestDone
  | hourWindow => exact .came _
  | _ => exact .ran _

/-- Settles O52: by the ways in which a command can end. -/
theorem timeAndQueue : Obligations.TimeAndQueue := by
  intro c s t h
  exact (h ▸ exec_ends c s).next

end Sys2Proof.Proofs
end

section
/-! SUPPORT. Presence by button, the seal loop's samples and PRES_LED (R150, R151, R561, R562; O1). -/
namespace Sys2Proof.Proofs

open Sys2Proof Sys2Proof.Machine Sys2Proof.Safety Sys2Proof.Laws

section
variable {s : State}

/-- PRESENCE_PRESS counts with the seal closed and the standby rail up. -/
theorem exec_presencePress_counts (h : s.pres.sealOpen = false) (hs : s.rst.standby = true) :
    exec .presencePress s =
      .next (kept s (s.modPres (fun p => { p with press := some s.now, lastPress := some s.now }))) :=
  congrArg (ran s) (if_neg (by simp [h, hs]))

/-- PRESENCE_PRESS with the seal open or the standby rail down does not count. -/
theorem exec_presencePress_ignored (h : s.pres.sealOpen = true ∨ s.rst.standby = false) :
    exec .presencePress s = .next s :=
  congrArg (ran s) (if_pos (by simpa using h))

/-- PRESENCE_EXPIRE comes 60 s after the press. -/
theorem exec_presenceExpire_pressed {t : Nat} (h : s.pres.press = some t) :
    exec .presenceExpire s = .next (keptAt s ((s.due (t + ms 60000)).modPres (fun p => { p with press := none }))) := by
  change execPresenceExpire s = _
  rw [execPresenceExpire, h]
  rfl

/-- The seal loop with its next sample taken. -/
def sampled (s : State) (closed : Bool) : State :=
  s.modPres (fun p => { p with sealOpen := !closed, openRun := if closed then 0 else min 2 (p.openRun + 1) })

/-- The second open sample in a row is a break of the seal (R561). -/
theorem exec_sealSample_break (hs : s.rst.standby = true) (h : s.pres.openRun = 1) :
    exec (.sealSample false) s = .next (kept s (State.raise (((sampled s false).modPres (fun p =>
      { p with broken := true, press := none })).modBk (fun b => { b with sealTrip := true })) { code := 0x80 })) :=
  congrArg (ran s) ((if_neg (by simp [hs])).trans (if_pos (by simp [h])))

/-- A closed sample, and an open one that is not the second in a row, is no break. -/
theorem exec_sealSample_no_break {closed : Bool} (hs : s.rst.standby = true)
    (h : closed = true ∨ s.pres.openRun ≠ 1) : exec (.sealSample closed) s = .next (kept s (sampled s closed)) :=
  congrArg (ran s) ((if_neg (by simp [hs])).trans (if_neg (by simpa [imp_iff_not_or] using h)))

/-- On the backup supply alone an open sample trips the seal (R562). -/
theorem exec_backupSealSample_open (hs : s.rst.standby = false) (hg : s.bk.gone = false) :
    exec (.backupSealSample false) s = .next (kept s (s.modBk (fun b => { b with sealTrip := true }))) :=
  congrArg (ran s) (if_neg (by simp [hs, hg]))

theorem exec_backupSealSample_closed : exec (.backupSealSample true) s = .next s :=
  congrArg (ran s) (if_pos (by simp))

/-- A cause of PRES_LED's blink stands: lab presence, or the seal open without presence by button. -/
def Blinks (s : State) : Prop := s.labPresence = true ∨ (s.buttonPresence = false ∧ s.pres.sealOpen = true)

theorem exec_presLedBlink_blinks (h : Blinks s) :
    exec .presLedBlink s = .next (kept s (s.modPres (fun p => { p with blink := !p.blink }))) :=
  congrArg (ran s) (if_pos (by simpa [Blinks] using h))

theorem exec_presLedBlink_still (h : ¬ Blinks s) : exec .presLedBlink s = .next s :=
  congrArg (ran s) (if_neg (by simpa [Blinks] using h))

end

/-- Settles O1: each row by whether the rail is up, the seal closed and a cause of the blink there. -/
theorem presenceRows : Obligations.PresenceRows := by
  unfold Obligations.PresenceRows
  refine ⟨fun s h hs => exec_presencePress_counts h hs, fun s h => exec_presencePress_ignored h, ?expire, ?opened,
    fun s hs => exec_sealSample_no_break hs (.inl rfl), ?broken,
    fun s hs hg => ⟨exec_backupSealSample_open hs hg, exec_backupSealSample_closed⟩,
    fun s h => exec_presLedBlink_blinks h, ?still⟩
  case expire =>
    intro s t h
    rw [exec_presenceExpire_pressed h]
    exact congrArg (fun n => Host.Outcome.next { s with pres := { s.pres with press := none }, now := n }) (mm _ _)
  case opened => exact fun s hs h => exec_sealSample_no_break hs (.inr h)
  case broken =>
    intro s hs h
    have hrun : sampled s false = { s with pres := { s.pres with sealOpen := true, openRun := 2 } } := by
      simp only [sampled, State.modPres, h]
      rfl
    rw [exec_sealSample_break hs h, hrun]
    rfl
  case still =>
    intro s hl hb
    refine exec_presLedBlink_still ?_
    rintro (h | ⟨h, ho⟩)
    · exact Bool.false_ne_true (hl.symm.trans h)
    · exact hb.elim (fun hb => Bool.false_ne_true (h.symm.trans hb)) (fun hc => Bool.false_ne_true (hc.symm.trans ho))

end Sys2Proof.Proofs
end

section
/-! SUPPORT. Packets that reach the concourse over the lane and from a ring (R109, R112, R113, R123, R126, R133;
O38). -/
namespace Sys2Proof.Proofs

open Sys2Proof Sys2Proof.Machine Sys2Proof.Safety Sys2Proof.Laws

/-! ### The lane -/

section
variable {s : State} {q : Nat} {ws : List Word}

theorem laneArrive_inReset (h : s.inReset = true) : s.laneArrive q ws = s := if_pos h

/-- Out of reset a packet with an invalid LEN ends at once: the lane has no ring to halt. -/
theorem laneArrive_badLen (h : s.inReset = false) (hl : (uw ws 1 0).bits 19 16 = 0 ∨ 8 < (uw ws 1 0).bits 19 16) :
    s.laneArrive q ws = s.packetRec (.lane q) none ws 0 St.badLength (1 + 8 * 256) 0 false :=
  (if_neg (ne_true_of_eq_false h)).trans (if_pos hl)

/-- Out of reset a packet of LEN 1 to 8 is taken as tenant 0's (R133). -/
theorem laneArrive_taken (h : s.inReset = false) (h1 : 1 ≤ (uw ws 1 0).bits 19 16)
    (h8 : (uw ws 1 0).bits 19 16 ≤ 8) :
    s.laneArrive q ws = s.takePkt (.lane q) none 0 0 ws :=
  (if_neg (ne_true_of_eq_false h)).trans (if_neg (by omega))

/-- A command that brings a packet over the lane, by what becomes of the packet. -/
theorem exec_lanePkt {c : Instr} {op : Nat} {pkt : List Word} {u : State} (hc : lanePkt c = some (op, q, pkt))
    (hw : ws = pktWords op pkt) (hu : s.laneArrive q ws = u) : exec c s = .next (kept s u.wake) := by
  rw [lane_exec hc, ← hw, hu]
  rfl

end

/-! ### A ring -/

section
variable {s : State} {n : Nat} {ws : List Word} {r : CmdRing}

/-- A ring that does not exist, is not read or has a read under way takes no packet. -/
theorem ringArrive_notRead (h : ∀ r, s.ring n = some r → s.mayRead n r = false ∨ s.ringBusy n = true) :
    s.ringArrive n ws = s := by
  unfold State.ringArrive
  split
  · rfl
  · next r hr => exact if_pos (by simpa using h r hr)

/-- A command that brings a ring's next packet, by what becomes of the packet. -/
theorem exec_ringPkt {c : Instr} {op : Nat} {pkt : List Word} {u : State} (hc : dataPkt c = some (op, .ring n, pkt))
    (hu : s.ringArrive n (pktWords op pkt) = u) : exec c s = .next (kept s u.wake) := by
  rw [data_exec hc, State.arrivePkt]
  simp only [hu]
  rfl

variable {a : State} {len : Nat} (hf : Found s a n len ws r)
include hf

/-- A LEN outside 1 to 8 halts the ring (R113). -/
theorem takeUnits_badLen (hl : (uw ws 1 0).bits 19 16 = 0 ∨ 8 < (uw ws 1 0).bits 19 16) :
    takeUnits a n 1 = a.haltRing n ((r.head + len) % 2 ^ 32) ((uw ws 1 0).bits 15 0) (uw ws 1 3).toNat :=
  (found_take hf).trans (if_pos hl)

variable (hl : (uw ws 1 0).bits 19 16 = len)
include hl

/-- A whole packet that the ring has in hand goes by the tenant's contexts and the completion ring's slots (R123,
R126). -/
theorem takeUnits_whole : takeUnits a n 1 =
    if s.ctxFull r.tenant then (a.modCmd n (fun r => { r with wait := .ctx })).readStops n
    else if ((mapGet s.conc.cpl r.cq).elim 0 CplRing.free) < 2 then a.waitCq r.cq
    else
      (State.takePkt ((a.modCpl r.cq (fun k => { k with reserved := k.reserved + 1 })).modCmd n (fun r => { r with
        head := (r.head + len) % 2 ^ 32, buf := r.buf.drop (32 * len) }))
        (.ring n) (some r.cq) r.head r.tenant ws).readEnds n := by
  have h1 := hf.l1
  have h8 := hf.l8
  have hall : bytesWords (wordsBytes ws) (8 * len) = ws := hf.wl ▸ bytesWords_wordsBytes ws
  have hbytes : ¬ (wordsBytes ws).length < 32 * len := by rw [flatMap_len, hf.wl]; omega
  rw [found_take hf, hl, if_neg (by omega), if_neg (by omega), if_neg hbytes, hall]

/-- With no context free for its tenant the ring waits for one (R123). -/
theorem takeUnits_ctxFull (hc : s.ctxFull r.tenant = true) :
    takeUnits a n 1 = (a.modCmd n (fun r => { r with wait := .ctx })).readStops n :=
  (takeUnits_whole hf hl).trans (if_pos hc)

variable (hc : s.ctxFull r.tenant = false) {k : CplRing} (hk : mapGet s.conc.cpl r.cq = some k)
include hc hk

/-- With fewer than two slots free every ring bound to the completion ring waits (R126). -/
theorem takeUnits_noSlots (h : k.free < 2) : takeUnits a n 1 = a.waitCq r.cq := by
  rw [takeUnits_whole hf hl, if_neg (ne_true_of_eq_false hc), hk]
  exact if_pos h

/-- With a context and two slots free a slot is reserved and the packet is taken as the ring's tenant's (R109, R112). -/
theorem takeUnits_taken (h : 2 ≤ k.free) : takeUnits a n 1 =
    (State.takePkt ((a.modCpl r.cq (fun k => { k with reserved := k.reserved + 1 })).modCmd n (fun r => { r with
      head := (r.head + len) % 2 ^ 32, buf := r.buf.drop (32 * len) }))
      (.ring n) (some r.cq) r.head r.tenant ws).readEnds n := by
  rw [takeUnits_whole hf hl, if_neg (ne_true_of_eq_false hc), hk]
  exact if_neg (Nat.not_lt.2 h)

end

/-- The words of a datapath packet are as many units as its LEN, where that is 1 to 8. -/
theorem lenOf_of_valid {c : Instr} {op : Nat} {src : PktSrc} {pkt ws : List Word} (hc : dataPkt c = some (op, src, pkt))
    (hw : ws = pktWords op pkt) (h1 : 1 ≤ (uw ws 1 0).bits 19 16) (h8 : (uw ws 1 0).bits 19 16 ≤ 8) :
    (uw ws 1 0).bits 19 16 = lenOf ws := by
  have h := lenOf_pkt op pkt (data_op hc)
  rw [← hw] at h
  omega

/-- Settles O38: over the lane by the reset and the packet's LEN; from a ring by whether it is read, the packet's LEN,
and the contexts and slots that are free. -/
theorem packetArrivals : Obligations.PacketArrivals := by
  unfold Obligations.PacketArrivals
  refine ⟨?laneTaken, ?laneBadLen, ?laneInReset, ?notRead, ?taken, ?notTaken⟩
  case laneTaken =>
    intro s c op q pkt ws hc hw hr h1 h8
    exact exec_lanePkt hc hw (laneArrive_taken hr h1 h8)
  case laneBadLen =>
    intro s c op q pkt ws hc hw hr hl
    exact exec_lanePkt hc hw (laneArrive_badLen hr hl)
  case laneInReset =>
    intro s c op q pkt hc hr
    exact exec_lanePkt hc rfl (laneArrive_inReset hr)
  case notRead =>
    intro s c op n pkt hc h
    exact exec_ringPkt hc (ringArrive_notRead h)
  case taken =>
    intro s a b c op n len pkt ws r k hc hw hr hm hb hlen h1 h8 hctx hk hfree ha hb'
    subst hlen
    have hl := lenOf_of_valid hc hw h1 h8
    rw [hl] at ha hb'
    obtain ⟨hexec, hf⟩ := ring_found hc hw s a r hr hm hb ha
    rw [hexec, takeUnits_taken hf hl hctx hk hfree, hb']
  case notTaken =>
    intro s a c op n pkt ws r hc hw hr hm hb ha
    obtain ⟨hexec, hf⟩ := ring_found hc hw s a r hr hm hb ha
    refine ⟨fun hl => ?_, fun h1 h8 hctx => ?_, fun k h1 h8 hctx hk hfree => ?_⟩
    · rw [hexec, takeUnits_badLen hf hl]
    · rw [hexec, takeUnits_ctxFull hf (lenOf_of_valid hc hw h1 h8) hctx]
    · rw [hexec, takeUnits_noSlots hf (lenOf_of_valid hc hw h1 h8) hctx hk hfree]

end Sys2Proof.Proofs
end

section
/-! SUPPORT. Completion records: their words and places, QUIET, and the lane's COMPLETION messages (R124, R126, R128,
R129, R133, R499, R502; O40, O41, O42). -/
namespace Sys2Proof.Proofs

open Sys2Proof Sys2Proof.Machine Sys2Proof.Safety Sys2Proof.Laws

/-! ### QUIET -/

/-- QUIET releases the record of a packet that ends with ST_OK (R128). -/
def Quiet (ws : List Word) (st : Nat) : Prop := st = St.ok ∧ (ws.getD 1 0).bit 0 = true

/-- The test by which a packet's record is released. -/
theorem quiet_iff (ws : List Word) (st : Nat) :
    (decide (st = St.ok) && (ws.getD 1 0).bit 0) = true ↔ Quiet ws st := by
  simp only [Quiet, Bool.and_eq_true, decide_eq_true_eq]

section
variable {s : State} {ws : List Word} {st : Nat} (n q index dt aux : Nat) (d : Bool)

theorem packetRec_quiet (h : Quiet ws st) :
    s.packetRec (.ring n) (some q) ws index st dt aux d =
      s.modCpl q (fun r => { r with reserved := r.reserved - 1 }) :=
  if_pos ((quiet_iff ws st).2 h)

theorem packetRec_ring (h : ¬ Quiet ws st) :
    s.packetRec (.ring n) (some q) ws index st dt aux d =
      s.putRec q (recWords s st ((ws.getD 0 0).bits 15 0) (ws.getD 3 0).toNat n index dt aux) true
        ((ws.getD 1 0).bit 1) d :=
  if_neg (mt (quiet_iff ws st).1 h)

theorem packetRec_lane (h : ¬ Quiet ws st) :
    s.packetRec (.lane q) none ws index st dt aux d = s.emit (.lane 4 0 q
      (withPhase (recWords s st ((ws.getD 0 0).bits 15 0) (ws.getD 3 0).toNat 0 index dt aux) false)) :=
  if_neg (mt (quiet_iff ws st).1 h)

end

/-- Settles O41: by whether the ending is quiet. -/
theorem quietRecords : Obligations.QuietRecords := by
  refine ⟨fun s n q index dt aux ws d h => packetRec_quiet n q index dt aux d ⟨rfl, h⟩,
    fun s n q index st dt aux ws d h => packetRec_ring n q index dt aux d ?_⟩
  rintro ⟨hst, hq⟩
  exact h.elim (fun hne => hne hst) (fun hf => Bool.false_ne_true (hf.symm.trans hq))

/-- Settles O40: PACKET is the lane's arrival of the packet, and a record that is not quiet is a message. -/
theorem laneCompletions : Obligations.LaneCompletions :=
  ⟨fun _ _ _ _ hw hr h1 h8 => exec_lanePkt rfl hw (laneArrive_taken hr h1 h8),
    fun _ q index _ dt aux _ d h => packetRec_lane q index dt aux d h⟩

/-! ### A record in its ring -/

/-- The state in which a record is written: the slot that was held for it is reserved no more. -/
def slotUsed (s : State) (n : Nat) (held : Bool) : State :=
  if held then s.modCpl n (fun r => { r with reserved := r.reserved - 1 }) else s

theorem slotUsed_host (s : State) (n : Nat) (held : Bool) : (slotUsed s n held).xlt.host = s.xlt.host := by
  cases held <;> rfl

/-- A record makes its ring's COALESCE full (R129). -/
def coalesced (r : CplRing) : Bool := r.coalesce != 0 && decide (r.sinceMsg + 1 ≥ r.coalesce)

/-- A ring's counts after one more record, with its COALESCE full or not. -/
def recCounted (full : Bool) (r : CplRing) : CplRing :=
  { r with written := (r.written + 1) % 2 ^ 32, sinceMsg := if full || r.coalesce == 0 then 0 else r.sinceMsg + 1 }

/-- The bytes of a ring's next record (R124). -/
def recBytes (r : CplRing) (ws : List Word) : List Byte :=
  wordsBytes (withPhase ws (r.written / 2 ^ r.log2 % 2 == 0))

/-- The place of a ring's next record. -/
def recAddr (r : CplRing) : Nat := r.base + 32 * (r.written % 2 ^ r.log2)

/-- The state in which a record that is not for the detach log is written: the ring's counts have moved on. -/
def recState (s : State) (n : Nat) (r : CplRing) (held : Bool) : State :=
  (slotUsed s n held).modCpl n (recCounted (coalesced r))

/-- A record in a ring in engine memory. -/
def recEngine (v : State) (n : Nat) (r : CplRing) (bs : List Byte) (irq : Bool) : State :=
  if irq then (v.engWrite (recAddr r) bs).sendMsix ((v.engWrite (recAddr r) bs).cplVector n r)
  else v.engWrite (recAddr r) bs

/-- A record in a ring in host memory. -/
def recHost (v : State) (n : Nat) (r : CplRing) (bs : List Byte) (irq : Bool) : State :=
  let x := v.hostAcc reqConc r.tenant (recAddr r) 32 (some bs) (.record n none irq) false
  if x.2 = .committed ∧ irq = true then x.1.sendMsix (x.1.cplVector n r) else x.1

/-- A record in host memory by how its access ends: a message follows at once where it is committed. -/
theorem recHost_eq {v w : State} {x : AccRes} {n : Nat} {r : CplRing} {bs : List Byte} {irq : Bool}
    (h : v.hostAcc reqConc r.tenant (recAddr r) 32 (some bs) (.record n none irq) false = (w, x)) :
    recHost v n r bs irq = if x = .committed ∧ irq = true then w.sendMsix (w.cplVector n r) else w := by
  rw [recHost, h]

section
variable {s : State} {n : Nat} {r : CplRing} (ws : List Word) (held msg d : Bool) (hr : mapGet s.conc.cpl n = some r)
include hr

/-- A record goes to the detach log or is written where its ring lies. -/
theorem putRec_eq : s.putRec n ws held msg d =
    if !r.engine && (slotUsed s n held).xlt.host != .attached && !d then
      (slotUsed s n held).detachLog (withPhase ws false) n 0
    else if r.engine then recEngine (recState s n r held) n r (recBytes r ws) (msg || coalesced r)
    else recHost (recState s n r held) n r (recBytes r ws) (msg || coalesced r) := by
  rw [State.putRec, hr]
  refine if_congr Iff.rfl rfl (if_congr Iff.rfl rfl ?_)
  split
  next v a h =>
    refine Eq.trans ?_ (recHost_eq h).symm
    cases a with
    | committed => exact if_congr (and_iff_right rfl).symm rfl rfl
    | waiting | fault => exact (if_neg fun h => AccRes.noConfusion h.1).symm

/-- A record for a host-memory ring of an engine that is not attached goes to the detach log (R499, R502). -/
theorem putRec_detached (he : r.engine = false) (hx : s.xlt.host ≠ .attached) (hd : d = false) :
    s.putRec n ws held msg d = (slotUsed s n held).detachLog (withPhase ws false) n 0 :=
  (putRec_eq ws held msg d hr).trans (if_pos (by simp [he, hx, hd, slotUsed_host]))

/-- Any other record is written. -/
theorem putRec_written (h : r.engine = true ∨ s.xlt.host = .attached ∨ d = true) :
    s.putRec n ws held msg d =
      if r.engine then recEngine (recState s n r held) n r (recBytes r ws) (msg || coalesced r)
      else recHost (recState s n r held) n r (recBytes r ws) (msg || coalesced r) :=
  (putRec_eq ws held msg d hr).trans (if_neg (by rcases h with h | h | h <;> simp [h, slotUsed_host]))

end

/-- Settles O42: a record by where its ring lies, whether the engine is attached, and whether a message is called
for. -/
theorem completionRecords : Obligations.CompletionRecords := by
  refine ⟨fun _ _ _ _ _ _ _ _ => rfl, ?_⟩
  rintro s u v n ws held msg d r full bs at_ hr rfl
  refine ⟨putRec_detached ws held msg d hr, ?_⟩
  rintro h rfl rfl rfl rfl
  have hput := putRec_written ws held msg d hr h
  refine ⟨fun he hirq => ?message, fun he hm hf => ?noMessage, fun w x he hx => ?host⟩
  case message =>
    rw [hput, if_pos he]
    exact if_pos (Bool.or_eq_true_iff.2 hirq)
  case noMessage =>
    rw [hput, if_pos he]
    exact if_neg (by rw [hm]; exact ne_true_of_eq_false hf)
  case host =>
    rw [hput, if_neg (ne_true_of_eq_false he)]
    exact recHost_eq hx

end Sys2Proof.Proofs
end

section
/-! SUPPORT. The control queue: which packet a control command acts on, and what taking it changes (R118, R132, R134;
O32). -/
namespace Sys2Proof.Proofs

open Sys2Proof Sys2Proof.Machine Sys2Proof.Safety Sys2Proof.Laws

/-- What a control command of an opcode comes to: it runs the core's next packet, the directory's mirror following or
not, or waits for a self-test. -/
inductive CtlRun (s : State) (op : Nat) : State → Prop where
  | run (ns : Nat) (f : State → MqPkt → State) : CtlRun s op (s.mgRun op ns f)
  | dir (ns : Nat) (f : State → MqPkt → State) : CtlRun s op (s.dirRun op ns f)
  | waits : CtlRun s op s

/-- SELFTEST while a self-test is in progress waits. -/
theorem exec_selftest_waits {s : State} {t : SelfTest} (h : s.selftest = some t) (ns : Nat) :
    exec (.selftest ns) s = .next s :=
  congrArg (ran s) (if_pos (by rw [h]; rfl))

theorem exec_selftest_run {s : State} (h : s.selftest = none) (ns : Nat) :
    exec (.selftest ns) s = ran s (s.mgRun 0x8040 ns State.mgSelftest) :=
  congrArg (ran s) (if_neg (by rw [h]; exact Bool.false_ne_true))

/-- Every control command comes to its opcode's run of the queue. -/
theorem exec_ctl {i : Instr} {op : Nat} (h : ctlOp i = some op) (s : State) :
    ∃ u, exec i s = ran s u ∧ CtlRun s op u := by
  cases i with
  | selftest ns =>
    cases h
    cases ht : s.selftest with
    | some t => exact ⟨s, exec_selftest_waits ht ns, .waits⟩
    | none => exact ⟨_, exec_selftest_run ht ns, .run ns _⟩
  | tableDefine ns | tableState ns | versionSwitch ns | shardMapWrite ns | epochBump ns | migrate ns | tableGrant ns
  | countersRead ns => cases h; exact ⟨_, rfl, .dir ns _⟩
  | statusGet ns | tenantSet ns | tenantDestroy ns | pasidBind ns | pasidUnbind ns | ringCreate ns | ringDestroy ns
  | ringReset ns | telemetryCfg ns | fence ns | unitReset ns | drain ns | persistWrite ns | repairMapWrite ns
  | fwLoad ns | fwAccept ns | debugEnable ns | wearOverride ns | remoteReset ns | hostLossMode ns
  | reattach ns => cases h; exact ⟨_, rfl, .run ns _⟩
  | _ => cases h

/-- Where no packet of its opcode can be run a control command changes nothing. -/
theorem exec_ctl_idle {i : Instr} {op : Nat} {s : State} (h : ctlOp i = some op)
    (hs : ∀ ns f, s.mgRun op ns f = s) : exec i s = .next s := by
  obtain ⟨u, he, hu⟩ := exec_ctl h s
  suffices u = s by rw [he, this]; rfl
  cases hu with
  | run ns f => exact hs ns f
  | dir ns f => rw [State.dirRun, hs, mirror_same]
  | waits => rfl

/-- Settles O32: a control command that finds no packet to run is idle, and a packet is taken from the concourse. -/
theorem controlQueue : Obligations.ControlQueue :=
  ⟨fun _ _ _ h hf => exec_ctl_idle h fun _ f => mgRun_off hf f,
    fun _ _ _ _ h hn hp => exec_ctl_idle h fun _ f => mgRun_other hn hp f,
    fun _ _ _ h hn => exec_ctl_idle h fun _ f => mgRun_none hn f,
    fun _ ns _ h => exec_selftest_waits h ns,
    fun _ _ _ => ⟨_, rfl, rfl, rfl, rfl, rfl, rfl, rfl, rfl⟩⟩

end Sys2Proof.Proofs
end

section
/-! SUPPORT. The checks of a packet, made one after another (R121). -/
namespace Sys2Proof.Proofs

open Sys2Proof Sys2Proof.Machine

@[simp] theorem firstBad_nil : firstBad [] = none := rfl

/-- A check that does not fail leaves the next ones. (The proof goes through `findSome?`: by `rfl` the kernel would
compare the checks themselves, and unfold the bounds that they compare with.) -/
@[simp] theorem firstBad_cons_none (l : List (Option Ending)) : firstBad (none :: l) = firstBad l :=
  List.findSome?_cons_of_isNone rfl

@[simp] theorem chk_false (e : Ending) : chk false e = none := rfl

theorem chk_eq_none {b : Bool} {e : Ending} (h : b = false) : chk b e = none := by rw [h, chk_false]

end Sys2Proof.Proofs
end

section
/-! SUPPORT. The control opcodes of status, telemetry, tenants and PASIDs (R140 to R143, R149, R364, R486; O33, O43). -/
namespace Sys2Proof.Proofs

open Sys2Proof Sys2Proof.Machine Sys2Proof.Safety Sys2Proof.Laws

/-! ### Tenants -/

section
variable {u : State} {p : MqPkt} {e : TenEntry}

theorem mgTenantSet_bad {b : Ending} (h : tenSetBad (p.arg % 4096) p.words = some b) :
    u.mgTenantSet p = u.mgEnd p b := by
  rw [State.mgTenantSet, h]

/-- A new tenant is entered as the packet's payload gives it, VALID set (R140). -/
theorem mgTenantSet_new (h : tenSetBad (p.arg % 4096) p.words = none) (hn : u.tenOf (p.arg % 4096) = none) :
    u.mgTenantSet p = ((u.setTen (p.arg % 4096)
      ⟨uw p.words 2 0 ||| 0x00100000, uw p.words 2 1, uw p.words 2 2, uw p.words 2 3⟩ true).mgOk p 0) := by
  simp only [State.mgTenantSet, h, hn]

theorem mgTenantDestroy_none (h : u.tenOf (p.arg % 4096) = none) : u.mgTenantDestroy p = u.mgBadState p := by
  simp only [State.mgTenantDestroy, h]

theorem mgPasidUnbind_none (h : u.tenOf (p.arg % 4096) = none) : u.mgPasidUnbind p = u.mgBadState p := by
  simp only [State.mgPasidUnbind, h]

/-- A tenant holds a ring, a context or a table of its own (R141). -/
def Holds (u : State) (t : Nat) (e : TenEntry) : Prop :=
  u.ringsOf t ≠ 0 ∨ u.ctxOf t ≠ 0 ∨ ∃ x ∈ u.dir.tables, x.2.owner = e.hallId

/-- The condition on which TENANT_DESTROY is refused. -/
theorem keptTenant_iff (u : State) (t : Nat) (e : TenEntry) :
    (decide (t = 0) || u.ringsOf t != 0 || u.ctxOf t != 0 ||
      u.dir.tables.any (fun x => x.2.owner == e.hallId)) = true ↔
      t = 0 ∨ Holds u t e := by
  simp only [Holds, Bool.or_eq_true, decide_eq_true_eq, bne_iff_ne, List.any_eq_true, beq_iff_eq, or_assoc]

theorem length_filter_ne_zero {α : Type} {l : List α} {q : α → Bool} (h : ∃ x ∈ l, q x = true) :
    (l.filter q).length ≠ 0 := by
  obtain ⟨x, hx, hq⟩ := h
  exact Nat.ne_of_gt (List.length_pos_of_mem (List.mem_filter.2 ⟨hx, hq⟩))

theorem holds_of_cmd (h : ∃ x ∈ u.conc.cmd, x.2.tenant = p.arg % 4096) : Holds u (p.arg % 4096) e :=
  .inl fun h0 => length_filter_ne_zero (h.imp fun _ hx => ⟨hx.1, beq_iff_eq.2 hx.2⟩)
    (Nat.eq_zero_of_add_eq_zero_right h0)

theorem holds_of_cpl (h : ∃ x ∈ u.conc.cpl, x.2.tenant = p.arg % 4096) : Holds u (p.arg % 4096) e :=
  .inl fun h0 => length_filter_ne_zero (h.imp fun _ hx => ⟨hx.1, beq_iff_eq.2 hx.2⟩)
    (Nat.eq_zero_of_add_eq_zero_left h0)

theorem holds_of_item (h : ∃ i ∈ u.conc.items, i.tenant = p.arg % 4096) : Holds u (p.arg % 4096) e :=
  .inr (.inl (length_filter_ne_zero (h.imp fun _ hx => ⟨hx.1, beq_iff_eq.2 hx.2⟩)))

/-- The state without a tenant's PASID. -/
def unbound (u : State) (e : TenEntry) : State :=
  match e.bound with
  | some pasid => u.dropPasid pasid
  | none => u

theorem mgTenantDestroy_refused (he : u.tenOf (p.arg % 4096) = some e)
    (h : p.arg % 4096 = 0 ∨ Holds u (p.arg % 4096) e) :
    u.mgTenantDestroy p = u.mgBadState p := by
  simp only [State.mgTenantDestroy, he]
  exact if_pos ((keptTenant_iff u _ e).2 h)

theorem mgTenantDestroy_done (he : u.tenOf (p.arg % 4096) = some e)
    (h : ¬ (p.arg % 4096 = 0 ∨ Holds u (p.arg % 4096) e)) :
    u.mgTenantDestroy p = (State.modConc
      { unbound u e with tiles := (unbound u e).tiles.filter (fun x => x.1 / 16 != p.arg % 4096) }
      (fun c => { c with ten := mapDel c.ten (p.arg % 4096), tenEff := mapDel c.tenEff (p.arg % 4096) })).mgOk p 0 := by
  simp only [State.mgTenantDestroy, he]
  exact if_neg (mt (keptTenant_iff u _ e).1 h)

/-! ### PASIDs -/

/-- A PASID that no other tenant holds is bound to a tenant without one (R142). -/
theorem mgPasidBind_done (h1 : rsvBad p.words 8 31 20 = none) (h2 : nzBad (wordsBytes p.words) 36 64 = none)
    (hfree : ∀ x ∈ u.conc.ten, x.1 ≠ p.arg % 4096 → x.2.bound ≠ some ((uw p.words 2 0).bits 19 0))
    (he : u.tenOf (p.arg % 4096) = some e) (hp : e.pasidValid = false) :
    u.mgPasidBind p =
      (u.setTen (p.arg % 4096) (e.withPasid (some ((uw p.words 2 0).bits 19 0))) false).mgOk p 0 := by
  have hany : u.conc.ten.any (fun (n, e) =>
      n != p.arg % 4096 && e.valid && e.bound == some ((uw p.words 2 0).bits 19 0)) = false := by
    rw [List.any_eq_false]
    intro x hx h
    simp only [Bool.and_eq_true, bne_iff_ne, beq_iff_eq] at h
    exact hfree x hx h.1.1 h.2
  simp only [State.mgPasidBind, h1, h2, firstBad_cons_none, firstBad_nil, hany, Bool.false_eq_true, if_false, he, hp]

/-- A tenant without host rings and contexts gives its PASID up (R142). -/
theorem mgPasidUnbind_done (he : u.tenOf (p.arg % 4096) = some e) (hp : e.pasidValid = true)
    (hc : u.ctxOf (p.arg % 4096) = 0) (hcmd : ∀ x ∈ u.conc.cmd, x.2.tenant = p.arg % 4096 → x.2.engine = true)
    (hcpl : ∀ x ∈ u.conc.cpl, x.2.tenant = p.arg % 4096 → x.2.engine = true) :
    u.mgPasidUnbind p = ((u.dropPasid e.pasid).setTen (p.arg % 4096) (e.withPasid none) false).mgOk p 0 := by
  have hcmd' : u.conc.cmd.any (fun (_, r) => r.tenant == p.arg % 4096 && !r.engine) = false := by
    simpa [List.any_eq_false] using fun a b h => hcmd (a, b) h
  have hcpl' : u.conc.cpl.any (fun (_, r) => r.tenant == p.arg % 4096 && !r.engine) = false := by
    simpa [List.any_eq_false] using fun a b h => hcpl (a, b) h
  simp only [State.mgPasidUnbind, he, hp, hc, hcmd', hcpl', Bool.not_true, Bool.or_self, bne_self_eq_false,
    Bool.false_eq_true, if_false]

end

/-- Settles O43: a ring, a context or a table each makes TENANT_DESTROY end with ST_BAD_STATE, whose DETAIL is drawn. -/
theorem tenantDestroyRefused : Obligations.TenantDestroyRefused := by
  intro s p ns u e ht hu he h
  have hh : Holds u (p.arg % 4096) e := by
    rcases h with h | h | h | h
    · exact holds_of_cmd h
    · exact holds_of_cpl h
    · exact holds_of_item h
    · exact .inr (.inr h)
  exact ⟨_, turn_go ht hu State.mgTenantDestroy (mgTenantDestroy_refused he (.inr hh))⟩

/-- Settles O33: each opcode by its packet's checks and by what its tenant holds. -/
theorem controlTenants : Obligations.ControlTenants := by
  refine ⟨?status, ?telemetry, ?setNew, ?setBad, ?destroy, ?bind, ?unbind, ?noTenant⟩
  case status => exact fun s p ns ht => ⟨_, turn_go ht rfl _ rfl⟩
  case telemetry => exact fun s p ns ht => turn_go ht rfl _ rfl
  case setNew => exact fun s p ns u ht hu h hn => turn_go ht hu _ (mgTenantSet_new h hn)
  case setBad => exact fun s p ns u e ht hu h => turn_go ht hu _ (mgTenantSet_bad h)
  case destroy =>
    rintro s p ns _ u v e ht hu rfl h0 he hr hc htab rfl
    refine turn_go ht hu _ (mgTenantDestroy_done he ?_)
    rintro (h | h | h | ⟨x, hx, h⟩)
    · exact h0 h
    · exact h hr
    · exact h hc
    · exact htab x hx h
  case bind => exact fun s p ns u e ht hu h1 h2 hf he hp => turn_go ht hu _ (mgPasidBind_done h1 h2 hf he hp)
  case unbind => exact fun s p ns u e ht hu he hp hc h1 h2 => turn_go ht hu _ (mgPasidUnbind_done he hp hc h1 h2)
  case noTenant =>
    exact fun s p ns u hu hn =>
      ⟨fun ht => turn_go ht hu _ (mgTenantDestroy_none hn), fun ht => turn_go ht hu _ (mgPasidUnbind_none hn)⟩

end Sys2Proof.Proofs
end

section
/-! SUPPORT. The control opcodes of rings (R104, R137 to R139; O34). -/
namespace Sys2Proof.Proofs

open Sys2Proof Sys2Proof.Machine Sys2Proof.Safety Sys2Proof.Laws

section
variable {u : State} {p : MqPkt} {n : Nat}

/-! ### RING_CREATE -/

/-- A ring that is made, of either kind. -/
def ringMade (u : State) (ws : List Word) (n : Nat) : State :=
  u.modConc (fun c => if (uw ws 2 0).bit 0 then { c with cpl := mapSet c.cpl n (newCpl ws) }
    else { c with cmd := mapSet c.cmd n (newCmd ws) })

/-- RING_CREATE by its packet's first failing check (R137). -/
theorem mgRingCreate_eq (u : State) (p : MqPkt) : u.mgRingCreate p =
    match ringBad u p.words with
    | some e => u.mgEnd p e
    | none =>
      let n := (freeRing (if (uw p.words 2 0).bit 0 then u.conc.cpl.map (·.1) else u.conc.cmd.map (·.1))).getD 0
      (ringMade u p.words n).mgOk p n := rfl

theorem mgRingCreate_bad {e : Ending} (h : ringBad u p.words = some e) : u.mgRingCreate p = u.mgEnd p e := by
  rw [mgRingCreate_eq, h]

/-- Without a failing check a completion ring is made under the lowest free number. -/
theorem mgRingCreate_cpl (h : ringBad u p.words = none) (hb : (uw p.words 2 0).bit 0 = true)
    (hn : freeRing (u.conc.cpl.map (·.1)) = some n) :
    u.mgRingCreate p = (u.modConc (fun c => { c with cpl := mapSet c.cpl n (newCpl p.words) })).mgOk p n := by
  simp only [mgRingCreate_eq, h, ringMade, hb, if_true, hn, Option.getD_some]

/-- Without a failing check a command ring is made under the lowest free number. -/
theorem mgRingCreate_cmd (h : ringBad u p.words = none) (hb : (uw p.words 2 0).bit 0 = false)
    (hn : freeRing (u.conc.cmd.map (·.1)) = some n) :
    u.mgRingCreate p = (u.modConc (fun c => { c with cmd := mapSet c.cmd n (newCmd p.words) })).mgOk p n := by
  simp only [mgRingCreate_eq, h, ringMade, hb, Bool.false_eq_true, if_false, hn, Option.getD_some]

/-! ### RING_DESTROY -/

/-- A completion ring that no command ring names is removed. -/
theorem mgRingDestroy_cpl {q : CplRing} (hk : p.arg / 8192 % 2 = 1) (hq : mapGet u.conc.cpl (p.arg % 8192) = some q)
    (hfree : ∀ x ∈ u.conc.cmd, x.2.cq ≠ p.arg % 8192) :
    u.mgRingDestroy p = (u.modConc (fun c => { c with cpl := mapDel c.cpl (p.arg % 8192) })).mgOk p 0 := by
  have hany : u.conc.cmd.any (fun (_, r) => r.cq == p.arg % 8192) = false := by
    simpa [List.any_eq_false] using fun a b h => hfree (a, b) h
  simp only [State.mgRingDestroy, hk, hq, hany, if_true, Bool.false_eq_true, if_false]

variable {r : CmdRing} (hk : p.arg / 8192 % 2 = 0)
include hk

/-- A command ring is read no more at once, and goes when the last of its packets is over (R138). -/
theorem mgRingDestroy_cmd (hr : u.ring (p.arg % 8192) = some r) (hd : r.destroying = false) :
    u.mgRingDestroy p =
      let v := (u.modCmd (p.arg % 8192) (fun r => { r with destroying := true })).readStops (p.arg % 8192)
      (if p.arg / 16384 % 2 = 1 then v.cancelRing (p.arg % 8192) p.seq else v).putOp p
        (.ringDestroy (p.arg % 8192)) := by
  simp only [State.mgRingDestroy, hk, hr, hd, Nat.zero_ne_one, Bool.false_eq_true, if_false]

theorem mgRingDestroy_none (hr : u.ring (p.arg % 8192) = none) : u.mgRingDestroy p = u.endMq p St.badState 0 0 := by
  simp only [State.mgRingDestroy, hk, hr, Nat.zero_ne_one, if_false]

omit hk

/-! ### RING_RESET -/

theorem mgRingReset_none (hr : u.ring (p.arg % 8192) = none) : u.mgRingReset p = u.endMq p St.badState 0 0 := by
  simp only [State.mgRingReset, hr]

variable (hr : u.ring (p.arg % 8192) = some r) (hh : r.halted = true) (hd : r.destroying = false)
include hr hh hd

/-- The TAIL of a halted ring in host memory is asked for (R139). -/
theorem mgRingReset_host (he : r.engine = false) :
    u.mgRingReset p = ((u.putOp p (.ringReset (p.arg % 8192))).hostAcc reqConc r.tenant r.rcb 4 none
      (.tail (p.arg % 8192)) false).1 := by
  simp only [State.mgRingReset, hr, hh, hd, he, Bool.not_true, Bool.or_self, Bool.false_eq_true, if_false]

/-- A halted ring in engine memory restarts at the TAIL that is read there. -/
theorem mgRingReset_engine {v : State} {rd : Rd} (he : r.engine = true) (hread : u.engRead r.rcb 4 .good = (v, rd))
    (hok : rd.bad = none) :
    u.mgRingReset p = (v.ringRestart (p.arg % 8192) (ofLe (rd.data.take 4))).mgOk p 0 := by
  simp only [State.mgRingReset, hr, hh, hd, he, hread, hok, Bool.not_true, Bool.or_self, Option.isSome_none,
    Bool.false_eq_true, if_false, if_true]

end

/-- Settles O34: each opcode by its packet's checks and by the ring that it names. -/
theorem controlRings : Obligations.ControlRings := by
  refine ⟨?createCpl, ?createCmd, ?createBad, ?destroyCpl, ?destroyCmd, ?resetHost, ?resetEngine, ?noRing⟩
  case createCpl => exact fun s p ns n u ht hu h hb hn => turn_go ht hu _ (mgRingCreate_cpl h hb hn)
  case createCmd => exact fun s p ns n u ht hu h hb hn => turn_go ht hu _ (mgRingCreate_cmd h hb hn)
  case createBad => exact fun s p ns u e ht hu h => turn_go ht hu _ (mgRingCreate_bad h)
  case destroyCpl => exact fun s p ns u q ht hu hk hq hf => turn_go ht hu _ (mgRingDestroy_cpl hk hq hf)
  case destroyCmd =>
    rintro s p ns u v r ht hu hk hr hd rfl
    exact turn_go ht hu _ (mgRingDestroy_cmd hk hr hd)
  case resetHost => exact fun s p ns u r ht hu hr hh hd he => turn_go ht hu _ (mgRingReset_host hr hh hd he)
  case resetEngine =>
    exact fun s p ns u v r rd ht hu hr hh hd he hread hok =>
      turn_go ht hu _ (mgRingReset_engine hr hh hd he hread hok)
  case noRing =>
    exact fun s p ns u hu hn => ⟨fun ht hk => turn_go ht hu _ (mgRingDestroy_none hk hn),
      fun ht => turn_go ht hu _ (mgRingReset_none hn)⟩

end Sys2Proof.Proofs
end

section
/-! SUPPORT. The control opcodes of tables (R134, R156, R164 to R172, R180, R188, R189, R202, R207, R294; O35). -/
namespace Sys2Proof.Proofs

open Sys2Proof Sys2Proof.Machine Sys2Proof.Safety Sys2Proof.Laws

section
variable {u : State} {p : MqPkt}

/-- A packet that names no table of the directory ends with ST_BAD_TABLE (log 40). -/
theorem onTable_none (f : State → Table → State) (h : u.table p.table = none) :
    u.onTable p f = u.endMq p St.badTable p.table 0 := by
  rw [State.onTable, h]

theorem onTable_some {t : Table} (f : State → Table → State) (h : u.table p.table = some t) :
    u.onTable p f = f u t := by
  rw [State.onTable, h]

/-! ### TABLE_DEFINE -/

/-- The table that a TABLE_DEFINE packet's entry describes, before its shards. -/
def definedTable (u : State) (ws : List Word) : Table :=
  Table.define ((upto 0 16).map (fun i => if i < 8 then uw ws 2 i else uw ws 3 (i - 8))) u.hall.landing

/-- A table with the shards that a TABLE_DEFINE packet holds. -/
def withShards (t : Table) (ws : List Word) : Table :=
  (upto 0 (min ((lenOf ws - 3) * 4) t.shardCount)).foldl
    (fun t j => t.setShard j ⟨plAt ws (96 + 8 * j), 0, 0, false⟩) t

/-- TABLE_DEFINE by its packet's first failing check (R156, R160, R161; log 34). -/
theorem mgTableDefine_eq (u : State) (p : MqPkt) : u.mgTableDefine p =
    if !u.baseOk then u.endMq p St.noResource 6 0
    else if (u.table p.table).isSome then u.endMq p St.badState (u.tstate p.table).code 0
    else
      match u.defineBad p.words (definedTable u p.words) with
      | some e => u.mgEnd p e
      | none => State.mgOk { u with dir := { u.dir with
          tables := mapSet u.dir.tables p.table (withShards (definedTable u p.words) p.words) } } p 0 := rfl

theorem mgTableDefine_done (hb : u.baseOk = true) (hn : u.table p.table = none)
    (h : u.defineBad p.words (definedTable u p.words) = none) :
    u.mgTableDefine p = State.mgOk { u with dir := { u.dir with
      tables := mapSet u.dir.tables p.table (withShards (definedTable u p.words) p.words) } } p 0 := by
  rw [mgTableDefine_eq, hb, hn, h]
  rfl

variable {t : Table} (ht : u.table p.table = some t)
include ht

/-! ### TABLE_STATE, EPOCH_BUMP and MIGRATE -/

theorem mgTableState_done (hr : rsvBad p.words 2 31 19 = none) (h2 : 2 ≤ p.arg % 8) (h4 : p.arg % 8 ≤ 4)
    (hl : u.landingBad p = none) : u.mgTableState p = u.schedule p (.tableState p.table (p.arg % 8)) := by
  have hc : chk (decide (p.arg % 8 < 2) || decide (p.arg % 8 > 4)) (badAt 10) = none :=
    chk_eq_none (by simp; omega)
  simp only [State.mgTableState, onTable_some _ ht, hr, hc, hl, firstBad_cons_none, firstBad_nil]

/-- An epoch bump of a table that is not replicated and has none pending is scheduled, and pends (R180, R191). -/
theorem mgEpochBump_done (hrep : t.replicated = false) (hl : u.landingBad p = none) (hb : t.bumpPend = false)
    (ha : p.arg = (t.epoch + 1) % 65536) (hs : p.at_ = 0 ∨ u.schedUsed < 1024) :
    u.mgEpochBump p = (u.modTable p.table (fun t => { t with bumpPend := true })).schedule p (.epochBump p.table) := by
  have hnext : (p.arg != (t.epoch + 1) % 65536) = false := by rw [ha]; exact bne_self_eq_false _
  simp only [State.mgEpochBump, onTable_some _ ht, hrep, hl, hb, hnext, chk_false, firstBad_cons_none, firstBad_nil]
  rw [if_neg]
  simp only [Bool.and_eq_true, decide_eq_true_eq]
  omega

theorem mgMigrate_done (hz : nzBad (wordsBytes p.words) 40 64 = none) (hl : u.landingBad p = none) :
    u.mgMigrate p = if p.at_ = 0 then u.migBegin p p.table ((uw p.words 2 0).bits 23 0) ((uw p.words 2 1).bits 17 0)
      else u.schedule p (.migrate p.table ((uw p.words 2 0).bits 23 0) ((uw p.words 2 1).bits 17 0)) := by
  simp only [State.mgMigrate, onTable_some _ ht, hz, hl, firstBad_cons_none, firstBad_nil]

/-! ### VERSION_SWITCH -/

section
variable (hr : rsvBad p.words 2 31 19 = none) (hst : t.st ≠ .retiring)
include hr hst

/-- ACT 0 schedules the switch to a READY slot (R170, R171). -/
theorem mgSwitch_switch (ha : p.arg / 2 % 4 = 0) (hat : p.at_ ≠ 0) (hl : u.landingBad p = none)
    (hs : (t.slot (p.arg % 2)).st = .ready) : u.mgSwitch p = u.schedule p (.switch p.table (p.arg % 2)) := by
  simp [State.mgSwitch, onTable_some _ ht, hr, ha, hat, hl, hs, hst]

/-- ACT 1 opens an EMPTY slot for filling, with the invalidation that R172 asks for. -/
theorem mgSwitch_open (ha : p.arg / 2 % 4 = 1) (hat : p.at_ = 0) (hs : (t.slot (p.arg % 2)).st = .empty) :
    u.mgSwitch p = ((u.modTable p.table (fun t => t.modSlot (p.arg % 2) (fun v => { v with st := .filling }))).mntQueue
      (.table p.table (p.arg % 2 == 0) (p.arg % 2 == 1)) true false).1.putOp p (.openSlot p.table (p.arg % 2)) := by
  simp [State.mgSwitch, onTable_some _ ht, hr, ha, hat, hs, hst]

/-- ACT 2 seals a FILLING slot. -/
theorem mgSwitch_seal (ha : p.arg / 2 % 4 = 2) (hat : p.at_ = 0) (hs : (t.slot (p.arg % 2)).st = .filling) :
    u.mgSwitch p =
      (u.modTable p.table (fun t => t.modSlot (p.arg % 2) (fun v => { v with st := .ready }))).mgOk p 0 := by
  simp [State.mgSwitch, onTable_some _ ht, hr, ha, hat, hs, hst]

/-- ACT 3 discards a FILLING or READY slot. -/
theorem mgSwitch_discard (ha : p.arg / 2 % 4 = 3) (hat : p.at_ = 0)
    (hs : (t.slot (p.arg % 2)).st = .filling ∨ (t.slot (p.arg % 2)).st = .ready) :
    u.mgSwitch p =
      (u.modTable p.table (fun t => t.modSlot (p.arg % 2) (fun v => { v with st := .empty }))).mgOk p 0 := by
  rcases hs with hs | hs <;> simp [State.mgSwitch, onTable_some _ ht, hr, ha, hat, hs, hst]

end

/-! ### SHARD_MAP_WRITE -/

/-- A table with the placements that a SHARD_MAP_WRITE packet holds: in CUR while it is LOADING, in NEXT otherwise
(R188). -/
def placed (t : Table) (ws : List Word) (first count : Nat) : Table :=
  (upto 0 count).foldl (fun (t : Table) j => t.setShard (first + j) (if t.st == .loading
    then { t.shard (first + j) with cur := plAt ws (smwByte j), pend := false }
    else { t.shard (first + j) with next := plAt ws (smwByte j), pend := true })) t

theorem mgShardMap_done {first count : Nat} (hf : first = (uw p.words 2 0).bits 23 0)
    (hn : count = (uw p.words 2 0).bits 31 24) (hrep : t.replicated = false) (h1 : 1 ≤ count) (h27 : count ≤ 27)
    (hheld : count ≤ (lenOf p.words - 2) * 4 + 3) (hsh : first + count ≤ t.shardCount)
    (hr : rsvBad p.words 9 31 0 = none)
    (hpl : ∀ j, plBad p.words (smwByte j) = none ∧ plTier (plAt p.words (smwByte j)) ≠ 1) :
    u.mgShardMap p = (u.modTable p.table (fun t => placed t p.words first count)).mgOk p 0 := by
  have hcount : chk (decide (count < 1) || decide (count > 27) || decide (count > (lenOf p.words - 2) * 4 + 3)
      || decide (first + count > t.shardCount)) (badAt 35) = none := chk_eq_none (by simp; omega)
  subst hf hn
  have hpls : ∀ js : List Nat, js.findSome? (fun j => plBad p.words (smwByte j)) = none := fun js =>
    List.findSome?_eq_none_iff.2 fun j _ => (hpl j).1
  have hnone : ∀ js : List Nat, js.findSome? (fun _ => (none : Option Ending)) = none := fun js =>
    List.findSome?_eq_none_iff.2 fun _ _ => rfl
  have hballoon : ∀ j, (plTier (plAt p.words (smwByte j)) == 1) = false := fun j => beq_eq_false_iff_ne.2 (hpl j).2
  simp only [State.mgShardMap, onTable_some _ ht, hrep, hr, hcount, hballoon, Bool.false_eq_true, if_false,
    Bool.and_false, Bool.false_and, chk_false, firstBad_cons_none, hpls, hnone, firstBad_nil]
  rfl

/-! ### TABLE_GRANT -/

/-- The grants of the next landing but for those of a table and a hall ID. -/
def otherGrants (u : State) (table hall : Nat) : List (Nat × Nat × Bool × Bool) :=
  u.dir.grantsNext.filter (fun x => !(x.1 == table && x.2.1 == hall))

/-- The state with the grants of the next landing replaced. -/
def granting (u : State) (l : List (Nat × Nat × Bool × Bool)) : State :=
  { u with dir := { u.dir with grantsNext := l } }

section
variable (hr : rsvBad p.words 8 31 22 = none)
include hr

theorem mgGrant_none (h0 : (uw p.words 2 0).bit 20 = false) (h1 : (uw p.words 2 0).bit 21 = false) :
    u.mgGrant p = (granting u (otherGrants u p.table ((uw p.words 2 0).bits 19 0))).mgOk p 0 := by
  simp only [State.mgGrant, onTable_some _ ht, hr, h0, h1, Bool.not_false, Bool.and_self, if_true]
  rfl

theorem mgGrant_some (h : (uw p.words 2 0).bit 20 = true ∨ (uw p.words 2 0).bit 21 = true)
    (hroom : (otherGrants u p.table ((uw p.words 2 0).bits 19 0)).length < 16384) :
    u.mgGrant p = (granting u (otherGrants u p.table ((uw p.words 2 0).bits 19 0) ++
      [(p.table, (uw p.words 2 0).bits 19 0, (uw p.words 2 0).bit 20, (uw p.words 2 0).bit 21)])).mgOk p 0 := by
  have hset : ¬ (!(uw p.words 2 0).bit 20 && !(uw p.words 2 0).bit 21) = true := by
    rcases h with h | h <;> simp [h]
  simp only [State.mgGrant, onTable_some _ ht, hr]
  exact (if_neg hset).trans (if_neg (Nat.not_le.2 hroom))

end

/-! ### COUNTERS_READ -/

/-- The state with the load counters of a table's shards cleared, where the packet asks for it (R207). -/
def countersTaken (u : State) (p : MqPkt) (first count : Nat) : State :=
  if (uw p.words 2 1).bit 31 then u.modTable p.table (fun t => { t with
    load := (upto first count).foldl (fun m k => mapSet m k ⟨0, 0, 0, 0, u.hall.landing⟩) t.load }) else u

theorem mgCounters_done {first count homed : Nat} {w : State} (hf : first = (uw p.words 2 0).bits 23 0)
    (hn : count = (uw p.words 2 1).bits 16 0) (ho : (u.tenant p.tenant).hallId = t.owner) (h1 : 1 ≤ count)
    (h2 : count ≤ 65536) (hsh : first + count ≤ t.shardCount) (hal : misaligned (uw64 p.words 2 2) 64 = false)
    (hz : nzBad (wordsBytes p.words) 48 64 = none) (hh : homed = ((upto first count).filter (u.homes t)).length)
    (hw : ((countersTaken u p first count).putOp p (.counters homed)).hostAcc reqMgmt p.tenant (uw64 p.words 2 2)
      (16 * count) (some ((upto first count).flatMap (fun k => wordsBytes (u.loadRecord t k)))) (.counters p.seq) false =
      (w, .committed)) :
    u.mgCounters p = (w.dropOp p.seq).mgOk p homed := by
  have hcount : chk (decide (count < 1) || decide (count > 65536) || decide (first + count > t.shardCount)) (badAt 36)
      = none := chk_eq_none (by simp; omega)
  subst hf hn hh
  unfold countersTaken at hw
  simp only [State.mgCounters, onTable_some _ ht, ho, hcount, hal, hz, hw, chk_false, firstBad_cons_none, firstBad_nil,
    ne_eq, not_true_eq_false, if_false]

end

/-- Settles O35: each opcode by its packet's checks and the table that it names. -/
theorem controlTables : Obligations.ControlTables := by
  refine ⟨?define, ?state, ?version, ?shards, ?epoch, ?migrate, ?grant, ?counters, ?noTable⟩
  case define =>
    rintro s p ns u t ht rfl hb hn rfl h
    exact turn_dir ht rfl _ (mgTableDefine_done hb hn h)
  case state => exact fun s p ns u t ht hu h hr h2 h4 hl => turn_dir ht hu _ (mgTableState_done h hr h2 h4 hl)
  case version =>
    exact fun s p ns u t ht hu h hr hst =>
      ⟨fun ha hat hl hs => turn_dir ht hu _ (mgSwitch_switch h hr hst ha hat hl hs),
        fun ha hat hs => turn_dir ht hu _ (mgSwitch_open h hr hst ha hat hs),
        fun ha hat hs => turn_dir ht hu _ (mgSwitch_seal h hr hst ha hat hs),
        fun ha hat hs => turn_dir ht hu _ (mgSwitch_discard h hr hst ha hat hs)⟩
  case shards =>
    exact fun s p ns first count u t ht hu h hrep hf hn h1 h27 hheld hsh hr hpl =>
      turn_dir ht hu _ (mgShardMap_done h hf hn hrep h1 h27 hheld hsh hr hpl)
  case epoch =>
    exact fun s p ns u t ht hu h hrep hl hb ha hs => turn_dir ht hu _ (mgEpochBump_done h hrep hl hb ha hs)
  case migrate =>
    intro s p ns u t ht hu h hz hl
    refine ⟨fun h0 => turn_dir ht hu State.mgMigrate ?_, fun h0 => turn_dir ht hu State.mgMigrate ?_⟩
    · rw [mgMigrate_done h hz hl, if_pos h0]
    · rw [mgMigrate_done h hz hl, if_neg h0]
  case grant =>
    rintro s p ns u t rest ht hu h hr rfl
    exact ⟨fun h0 h1 => turn_dir ht hu _ (mgGrant_none h hr h0 h1),
      fun hg hroom => turn_dir ht hu _ (mgGrant_some h hr hg hroom)⟩
  case counters =>
    rintro s p ns first count homed u v w t ht hu h ho hf hn h1 h2 hsh hal hz hh rfl hw
    exact turn_dir ht hu _ (mgCounters_done h hf hn ho h1 h2 hsh hal hz hh hw)
  case noTable =>
    intro s i op p ns u hi hop ht hu h
    simp only [List.mem_cons, List.not_mem_nil, or_false] at hi
    rcases hi with rfl | rfl | rfl | rfl | rfl | rfl | rfl <;> cases hop <;>
      exact turn_dir ht hu _ (onTable_none _ h)

end Sys2Proof.Proofs
end

section
/-! SUPPORT. The control opcodes of the persistent store, firmware images, debug, remote reset and the host's loss (R150
to R153, R458, R497, R504, R566, R567, R572, R577, R614; O37). -/
namespace Sys2Proof.Proofs

open Sys2Proof Sys2Proof.Machine Sys2Proof.Safety Sys2Proof.Laws

section
variable {u : State} {p : MqPkt}

/-! ### PERSIST_WRITE -/

theorem mgPersist_free (h1 : 640 ≤ (uw p.words 2 0).bits 13 0) (h2 : (uw p.words 2 0).bits 13 0 < 4096) :
    u.mgPersist p = u.psPacket p [((uw p.words 2 0).bits 13 0, uw p.words 2 1)] :=
  if_pos ⟨h1, h2⟩

/-- A settings word takes what its register makes of the value (R572, R573). -/
theorem mgPersist_settings {v : Word} (h : (uw p.words 2 0).bits 13 0 < 6)
    (hv : u.rwpValue ((uw p.words 2 0).bits 13 0) (uw p.words 2 1) = some v) :
    u.mgPersist p = u.psPacket p [((uw p.words 2 0).bits 13 0, v)] := by
  unfold State.mgPersist
  rw [if_neg (by omega), if_pos h, hv]

theorem mgPersist_reserved (h6 : 6 ≤ (uw p.words 2 0).bits 13 0)
    (h : (uw p.words 2 0).bits 13 0 < 640 ∨ 4096 ≤ (uw p.words 2 0).bits 13 0) :
    u.mgPersist p = u.mgEnd p (badAt 32) := by
  unfold State.mgPersist
  rw [if_neg (by omega), if_neg (by omega)]

/-! ### Presence (R152, R153) -/

theorem gated_present (f : State → State) (h : u.presence = true) : u.gated p f = f u := if_pos h

theorem gated_absent (f : State → State) (h : u.presence = false) :
    u.gated p f = u.endMq p St.presence (u.presDetail none) 0 := if_neg (ne_true_of_eq_false h)

/-- The fields of a REPAIR_MAP_WRITE packet pass its checks (R457, R458). -/
structure RepairOk (ws : List Word) : Prop where
  rsv9 : rsvBad ws 8 9 9 = none
  rsv16 : rsvBad ws 8 31 16 = none
  count_pos : 1 ≤ (uw ws 2 0).bits 15 10
  count_le : (uw ws 2 0).bits 15 10 ≤ 55
  len : lenOf ws = 2 + ceilDiv ((uw ws 2 0).bits 15 10 - 7) 8
  range : (uw ws 2 0).bits 8 0 + (uw ws 2 0).bits 15 10 ≤ 512
  entries : ∀ j, repairBad ws (9 + j) = none

/-- The words of the store that a REPAIR_MAP_WRITE packet writes. -/
def repairWords (ws : List Word) : List (Nat × Word) :=
  (upto 0 ((uw ws 2 0).bits 15 10)).map (fun j => (64 + (uw ws 2 0).bits 8 0 + j, ws.getD (9 + j) 0))

theorem mgRepair_ok (h : RepairOk p.words) :
    u.mgRepair p = u.gated p (fun s => s.psPacket p (repairWords p.words)) := by
  obtain ⟨h9, h16, h1, h55, hlen, h512, hent⟩ := h
  have hcount : chk (decide ((uw p.words 2 0).bits 15 10 < 1) || decide ((uw p.words 2 0).bits 15 10 > 55)) (badAt 33)
      = none := chk_eq_none (by simp; omega)
  have hrange : chk (decide ((uw p.words 2 0).bits 8 0 + (uw p.words 2 0).bits 15 10 > 512)) (badAt 32) = none :=
    chk_eq_none (decide_eq_false (Nat.not_lt.2 h512))
  have hents : (upto 0 ((uw p.words 2 0).bits 15 10)).findSome? (fun j => repairBad p.words (9 + j)) = none :=
    List.findSome?_eq_none_iff.2 fun j _ => hent j
  simp only [State.mgRepair, h9, h16, hcount, hlen, bne_self_eq_false, chk_false, hrange, hents, firstBad_cons_none,
    firstBad_nil, repairWords]

theorem mgOverride_ok (h : p.arg < psWords) :
    u.mgOverride p = u.gated p (fun s =>
      (s.modPs (fun x => { x with unlocked := setIns x.unlocked p.arg })).mgOk p 0) :=
  if_neg (Nat.not_le.2 h)

theorem mgFwAccept_staged {img : List Byte} (hp : u.presence = true) (h : u.boot.staged = some img) :
    u.mgFwAccept p = u.psPacket p (u.fwWords img) := by
  rw [State.mgFwAccept, gated_present _ hp, h]

theorem mgDebug_ok (h : rsvBad p.words 2 31 18 = none) :
    u.mgDebug p = u.gated p (fun s => ((s.modErr (fun e => { e with dbgScope := p.arg % 4 })).raise
      { code := 0x02, d0 := p.arg % 4 }).mgOk p 0) := by
  simp only [State.mgDebug, h]

/-! ### REATTACH -/

theorem mgReattach_attaching (h : reattachBad p.words = none) (hx : u.xlt.host = .attaching) :
    u.mgReattach p = (u.logCopy (uw64 p.words 2 0) (u.reattachN p)).reattached p (u.reattachN p)
      (u.logCopy (uw64 p.words 2 0) (u.reattachN p)).logUsed ((uw p.words 2 2).bit 8) :=
  (unless_none h).trans (if_neg (by rw [hx]; exact Bool.false_ne_true))

theorem mgReattach_other (h : reattachBad p.words = none) (hx : u.xlt.host ≠ .attaching) :
    u.mgReattach p = u.endMq p St.badState u.xlt.host.code 0 :=
  (unless_none h).trans (if_pos (bne_iff_ne.2 hx))

end

/-- Settles O37: each opcode by its packet's checks, presence, and the host's state. -/
theorem controlPersist : Obligations.ControlPersist := by
  refine ⟨?persist, ?repair, ?override, ?load, ?accept, ?debug, ?remote, ?hostLoss, ?reattach, ?absent⟩
  case persist =>
    rintro s p ns w u ht hu rfl
    exact ⟨fun h1 h2 => turn_go ht hu _ (mgPersist_free h1 h2),
      fun v h hv => turn_go ht hu _ (mgPersist_settings h hv),
      fun h6 h => turn_go ht hu _ (mgPersist_reserved h6 h)⟩
  case repair =>
    rintro s p ns first count u ht hu hp rfl rfl h9 h16 h1 h55 hlen h512 hent
    exact turn_go ht hu _ ((mgRepair_ok ⟨h9, h16, h1, h55, hlen, h512, hent⟩).trans (gated_present _ hp))
  case override => exact fun s p ns u ht hu hp h => turn_go ht hu _ ((mgOverride_ok h).trans (gated_present _ hp))
  case load => exact fun s p ns u ht hu h => turn_go ht hu _ (unless_none h)
  case accept => exact fun s p ns u img ht hu hp h => turn_go ht hu _ (mgFwAccept_staged hp h)
  case debug => exact fun s p ns u ht hu hp h => turn_go ht hu _ ((mgDebug_ok h).trans (gated_present _ hp))
  case remote => exact fun s p ns u ht hu hp => turn_go ht hu _ (gated_present _ hp)
  case hostLoss => exact fun s p ns u ht hu => turn_go ht hu _ rfl
  case reattach =>
    intro s p ns u v ht hu h
    refine ⟨?_, fun hx => turn_go ht hu _ (mgReattach_other h hx)⟩
    rintro hx rfl
    exact turn_go ht hu _ (mgReattach_attaching h hx)
  case absent =>
    intro s p ns u hu hp
    refine ⟨fun ht h0 h55 h9 h16 hlen h512 hent => ?_, fun ht h => ?_, fun ht h => ?_, fun ht => ?_, fun ht => ?_⟩
    · exact turn_go ht hu _
        ((mgRepair_ok ⟨h9, h16, Nat.one_le_iff_ne_zero.2 h0, h55, hlen, h512, hent⟩).trans (gated_absent _ hp))
    · exact turn_go ht hu _ ((mgOverride_ok h).trans (gated_absent _ hp))
    · exact turn_go ht hu _ ((mgDebug_ok h).trans (gated_absent _ hp))
    · exact turn_go ht hu _ (gated_absent _ hp)
    · exact turn_go ht hu _ (gated_absent _ hp)

end Sys2Proof.Proofs
end

section
/-! SUPPORT. NaN codes of the floating formats: which codes are NaNs, and what a NaN is written as (R193, R243; O45). -/
namespace Sys2Proof.Proofs

open Sys2Proof Sys2Proof.Machine

/-- A code is a NaN exactly when its magnitude lies above the largest finite code and is not the infinity's. -/
theorem decode_eq_nan_iff (f : FFmt) (code : Nat) :
    f.decode code = .nan ↔
      f.maxCode < code % 2 ^ (f.width - 1) ∧ f.infCode ≠ some (code % 2 ^ (f.width - 1)) := by
  unfold FFmt.decode
  by_cases hmag : f.maxCode < code % 2 ^ (f.width - 1)
  · by_cases hinf : f.infCode = some (code % 2 ^ (f.width - 1)) <;> simp [hmag, hinf]
  · -- a finite code, whether or not its last place is a whole number
    simp only [gt_iff_lt, hmag, if_false, false_and, iff_false]
    split_ifs <;> exact not_false

/-- A saturating conversion writes a NaN as the format's canonical code, and does not count it as saturated. -/
theorem convSat_nan (f : FFmt) : f.convSat .nan = ⟨f.nanCode, false⟩ := rfl

/-- A conversion that overflows to infinity writes a NaN as the format's canonical code. -/
theorem convInf_nan (f : FFmt) : f.convInf .nan = f.nanCode := rfl

/-- Settles O45: each output conversion writes a NaN as its format's `nanCode`, whose magnitude lies above the largest
finite code and is not the infinity's. -/
theorem canonicalNan : Obligations.CanonicalNan := by
  refine ⟨fun f code hnan => ?written, ?bf16, ?fp16, ?fp32, ?e4m3, ?e5m2⟩
  case written =>
    rw [hnan]
    exact ⟨congrArg Conv.code (convSat_nan fBF16), congrArg Conv.code (convSat_nan fFP16), convInf_nan fFP32,
      congrArg Conv.code (convSat_nan fE4M3), congrArg Conv.code (convSat_nan fE5M2)⟩
  case bf16 => exact (decode_eq_nan_iff fBF16 0x7FC0).2 (by decide)
  case fp16 => exact (decode_eq_nan_iff fFP16 0x7E00).2 (by decide)
  case fp32 => exact (decode_eq_nan_iff fFP32 0x7FC00000).2 (by decide)
  case e4m3 => exact (decode_eq_nan_iff fE4M3 0x7F).2 (by decide)
  case e5m2 => exact (decode_eq_nan_iff fE5M2 0x7E).2 (by decide)

end Sys2Proof.Proofs
end

section
/-! SUPPORT. Tether slots and kites served, at their times (R276, R277, R280, R282; O21). -/
namespace Sys2Proof.Proofs

open Sys2Proof Sys2Proof.Machine Sys2Proof.Safety Sys2Proof.Laws

section
variable {s : State} {n : Nat} {t : Tether}

/-! ### A slot in the state that the event is about -/

theorem exec_slotHeldExpire_held (h : s.slotIn n .held = some t) :
    exec (.slotHeldExpire n) s = .next (keptAt s (((s.due (t.since + 2000)).freeSlot n).wake)) := by
  change execSlotHeldExpire n s = _
  simp only [execSlotHeldExpire, h]
  rfl

theorem exec_kiteTimeout_busy (h : s.slotIn n .busy = some t) :
    exec (.kiteTimeout n) s = .next (keptAt s (((((s.due (t.since + s.lifeNs)).quarSlot n).bump
      Reg.KITE_TIMEOUT_CNT 1).kiteEnds t.owner none 0 t.dst).wake)) := by
  change execKiteTimeout n s = _
  simp only [execKiteTimeout, h]
  rfl

/-- While every slot is in quarantine after a warm reset, the quarantine of all of them ends (R282). -/
theorem exec_quarantineEnd_all {u : Nat} (h : s.kite.quarAll = some u) :
    exec (.quarantineEnd n) s =
      .next (keptAt s (((s.due u).modKite (fun k => { k with quarAll := none })).wake)) := by
  change execQuarantineEnd n s = _
  simp only [execQuarantineEnd, h]
  rfl

theorem exec_quarantineEnd_slot (ha : s.kite.quarAll = none) (h : s.slotIn n .quar = some t) :
    exec (.quarantineEnd n) s = .next (keptAt s (((s.due (t.since + 2 * s.lifeNs)).freeSlot n).wake)) := by
  change execQuarantineEnd n s = _
  simp only [execQuarantineEnd, ha, h]
  rfl

/-! ### A slot in another state -/

theorem exec_slotHeldExpire_other (h : s.slotIn n .held = none) : exec (.slotHeldExpire n) s = .next s := by
  change execSlotHeldExpire n s = _
  simp only [execSlotHeldExpire, h, came_eq, keptAt_self]

theorem exec_kiteTimeout_other (h : s.slotIn n .busy = none) : exec (.kiteTimeout n) s = .next s := by
  change execKiteTimeout n s = _
  simp only [execKiteTimeout, h, came_eq, keptAt_self]

theorem exec_quarantineEnd_other (ha : s.kite.quarAll = none) (h : s.slotIn n .quar = none) :
    exec (.quarantineEnd n) s = .next s := by
  change execQuarantineEnd n s = _
  simp only [execQuarantineEnd, ha, h, came_eq, keptAt_self]

/-! ### KITE_ABANDON -/

/-- A served kite is given up only when it came from another engine. -/
theorem exec_kiteAbandon_served {v : Served} (h : s.servedOf n = some v) :
    exec (.kiteAbandon n) s = .next (keptAt s (if v.item.isSome then s
      else ((s.due (v.arrived + s.lifeNs - 32000)).abandon n).wake)) := by
  change execKiteAbandon n s = _
  simp only [execKiteAbandon, h]
  rfl

theorem exec_kiteAbandon_unserved (h : s.servedOf n = none) : exec (.kiteAbandon n) s = .next s := by
  change execKiteAbandon n s = _
  simp only [execKiteAbandon, h, came_eq, keptAt_self]

end

/-- Settles O21: each event by the state its slot is in, QUARANTINE_END also by whether all slots are in quarantine, and
KITE_ABANDON by whether the kite is served and whose it is. -/
theorem tetherRows : Obligations.TetherRows := by
  unfold Obligations.TetherRows
  refine ⟨fun _ _ _ => exec_slotHeldExpire_held, fun _ _ _ => exec_kiteTimeout_busy,
    fun _ _ _ => exec_quarantineEnd_all, fun _ _ _ => exec_quarantineEnd_slot, ?foreign, ?ownItem,
    fun _ _ => ⟨exec_slotHeldExpire_other, exec_kiteTimeout_other, exec_quarantineEnd_other,
      exec_kiteAbandon_unserved⟩⟩
  case foreign =>
    intro s id v h hitem
    rw [exec_kiteAbandon_served h, if_neg (by simp [hitem])]
    rfl
  case ownItem =>
    intro s id v h hitem
    rw [exec_kiteAbandon_served h, if_pos (Option.isSome_iff_ne_none.2 hitem), keptAt_self]

end Sys2Proof.Proofs
end

section
/-! SUPPORT. The host's accesses to stairwell memory: what they reach, what they wait for, and what a write within one
line changes (R263, R411, R440, R449, R464, R468; O27). -/
namespace Sys2Proof.Proofs

open Sys2Proof Sys2Proof.Machine Sys2Proof.Safety Sys2Proof.Laws

/-! ### What a store into one line depends on -/

/-- The memory, the poisoned lines, the adds that wait and the columns' tests of one state are those of another. -/
structure SameLines (s u : State) : Prop where
  mem : u.stw.mem = s.stw.mem
  poison : u.stw.poison = s.stw.poison
  comb : u.kite.comb = s.kite.comb
  tests : u.stw.cols.map Col.test = s.stw.cols.map Col.test

namespace SameLines

variable {s u v : State}

theorem trans (h : SameLines s u) (k : SameLines u v) : SameLines s v :=
  ⟨k.mem.trans h.mem, k.poison.trans h.poison, k.comb.trans h.comb, k.tests.trans h.tests⟩

/-- Nothing outside the stairwells and the kites' terminal counts. -/
theorem of_eq (hstw : u.stw = s.stw) (hkite : u.kite = s.kite) : SameLines s u :=
  ⟨by rw [hstw], by rw [hstw], by rw [hkite], by rw [hstw]⟩

theorem refl (s : State) : SameLines s s := of_eq rfl rfl

theorem foldl {α : Type} {f : State → α → State} (hf : ∀ u x, SameLines u (f u x)) (l : List α) (s : State) :
    SameLines s (l.foldl f s) :=
  List.foldlRecOn l f (refl s) fun u h x _ => h.trans (hf u x)

/-- States with the same lines have the same columns free of tests. -/
theorem noTest (h : SameLines s u) (hs : ∀ c ∈ s.stw.cols, c.test = none) : ∀ c ∈ u.stw.cols, c.test = none := by
  intro c hc
  have hmem : c.test ∈ s.stw.cols.map Col.test := h.tests ▸ List.mem_map_of_mem hc
  obtain ⟨d, hd, htest⟩ := List.mem_map.1 hmem
  exact htest ▸ hs d hd

end SameLines

/-- A change at one place that keeps a projection keeps the list of the projections. -/
theorem map_updAt_of_proj {α β : Type} {f : α → α} {g : α → β} (h : ∀ x, g (f x) = g x) (l : List α) (i : Nat) :
    (updAt l i f).map g = l.map g := by
  induction l generalizing i with
  | nil => rfl
  | cons x r ih =>
    cases i with
    | zero => simp [updAt, h]
    | succ n => simp [updAt, ih]

theorem sameLines_bump (s : State) (key n : Nat) : SameLines s (s.bump key n) := .of_eq rfl rfl

theorem sameLines_modCol {f : Col → Col} (hf : ∀ c, (f c).test = c.test) (s : State) (k : Nat) :
    SameLines s (s.modCol k f) :=
  ⟨rfl, rfl, rfl, map_updAt_of_proj hf s.stw.cols k⟩

theorem sameLines_drawTokens (s : State) (k part n : Nat) : SameLines s (s.drawTokens k part n) := by
  unfold State.drawTokens
  split
  · refine sameLines_modCol ?_ s k
    exact fun _ => rfl
  · exact .refl s

theorem sameLines_takeTokens (s : State) (off n part : Nat) : SameLines s (s.takeTokens off n part).1 := by
  unfold State.takeTokens
  dsimp only
  split
  · refine .trans (sameLines_modCol ?_ s _) (sameLines_bump _ _ _)
    exact fun _ => rfl
  · exact .foldl (fun u k => sameLines_drawTokens u k part 1) _ s

theorem sameLines_countActs (s : State) (off n : Nat) : SameLines s (s.countActs off n) := by
  unfold State.countActs
  split
  · exact .refl s
  · exact .foldl (fun u _ => sameLines_bump u _ _) _ s

theorem sameLines_rcProbe1 (s : State) (key salt off : Nat) (bs : List Byte) :
    SameLines s (s.rcProbe1 key salt off bs) := by
  unfold State.rcProbe1
  dsimp only
  split
  · exact .refl s
  · refine .foldl (fun u w => ?_) _ s
    split
    · split
      · exact .of_eq rfl rfl
      · exact .refl u
    · exact .refl u

/-- The probe of the cache that goes with a write (R411) changes the cache and its count alone. -/
theorem sameLines_rcWriteLine (s : State) (line off : Nat) (bs : List Byte) :
    SameLines s (s.rcWriteLine line off bs) := by
  have hw : ∀ p, SameLines s (s.rcWithhold p) := fun _ => .of_eq rfl rfl
  unfold State.rcWriteLine
  dsimp only
  split
  · exact hw _
  · exact (hw _).trans (.foldl (fun u salt => sameLines_rcProbe1 u _ salt off bs) _ _)

/-! ### A write within one line -/

section
variable {s : State} {off : Nat} {bs : List Byte}

/-- Where no column is under test, no range meets a test. -/
theorem inTest_eq_false (h : ∀ c ∈ s.stw.cols, c.test = none) (off n : Nat) : s.inTest off n = false := by
  refine List.any_eq_false.2 fun k _ => ?_
  rw [Option.not_isSome_iff_eq_none, State.col, List.getD_eq_getElem?_getD]
  cases hk : s.stw.cols[k]? with
  | none => rfl
  | some c => exact h c (List.mem_of_getElem? hk)

/-- A line on which no add waits, and that is not poisoned, takes the bytes as they are. -/
theorem stwWriteLine_plain (hc : s.kite.comb = []) (hp : s.stw.poison.contains (off / 64) = false) :
    s.stwWriteLine off bs = s.lineStore off bs := by
  have hflush : s.flushLine (off / 64) = s := by simp only [State.flushLine, State.combOf, hc, List.find?_nil]
  simp only [State.stwWriteLine, hflush, hp, Bool.false_eq_true, if_false]

/-- Bytes that lie in one line are written by one write of a line, after their activates are counted. -/
theorem stwWrite_oneLine (hne : bs ≠ []) (hl : off % 64 + bs.length ≤ 64) (ht : s.inTest off bs.length = false) :
    s.stwWrite off bs = (s.countActs off bs.length).stwWriteLine off bs := by
  have hk : bs.length ≤ 64 - off % 64 := by omega
  have hbs : bs.isEmpty = false := List.isEmpty_eq_false_iff.2 hne
  simp only [State.stwWrite, ht, stwWriteGo, List.take_of_length_le hk, List.drop_of_length_le hk, hbs,
    List.isEmpty_nil, Bool.false_eq_true, if_false, if_true]

/-- The memory after a write within one plain line: the bytes are stored and nothing else. -/
theorem stwWrite_mem (hne : bs ≠ []) (hl : off % 64 + bs.length ≤ 64) (hc : s.kite.comb = [])
    (hp : s.stw.poison.contains (off / 64) = false) (ht : ∀ c ∈ s.stw.cols, c.test = none) :
    (s.stwWrite off bs).stw.mem = cellsPut s.stw.mem off bs := by
  have hacts := sameLines_countActs s off bs.length
  rw [stwWrite_oneLine hne hl (inTest_eq_false ht off bs.length),
    stwWriteLine_plain (hacts.comb.trans hc) (by rw [hacts.poison, hp]), State.lineStore, State.memStore_stw,
    (sameLines_rcWriteLine _ _ _ bs).mem, hacts.mem]

end

/-! ### The commands -/

section
variable {s : State} {off len conn : Nat} {data : List Byte} {e : Ecc}

theorem exec_hostMemWrite_beyond (h : memLimit < off + data.length) :
    exec (.hostMemWrite off data) s = .fault (.noMemory off) := if_pos h

theorem exec_hostMemRead_beyond (h : memLimit < off + len) :
    exec (.hostMemRead off len e) s = .fault (.noMemory off) := if_pos h

theorem exec_scrubRead_beyond (h : memLimit ≤ off) :
    exec (.scrubRead off conn e) s = .fault (.noMemory off) := if_pos h

/-- With the stairwells out of reset and no column of the range blocked, an access does not wait for either. -/
theorem hostRuns (hd : s.domHeld 2 = false) (hb : s.rangeBlocked off len = false) :
    ¬ (s.domHeld 2 || s.rangeBlocked off len) = true := by simp [hd, hb]

/-- While the stairwells are held or a column of the range is blocked, a write is still to be made (log 36). -/
theorem exec_hostMemWrite_waits (hin : off + data.length ≤ memLimit)
    (h : s.domHeld 2 = true ∨ s.rangeBlocked off data.length = true) :
    exec (.hostMemWrite off data) s = .next s :=
  (if_neg (Nat.not_lt.2 hin)).trans (congrArg (ran s) (if_pos ((Bool.or_eq_true _ _).mpr h)))

/-- While the stairwells are held or a column of the range is blocked, a read is still to be made (log 36). -/
theorem exec_hostMemRead_waits (hin : off + len ≤ memLimit)
    (h : s.domHeld 2 = true ∨ s.rangeBlocked off len = true) :
    exec (.hostMemRead off len e) s = .next s :=
  (if_neg (Nat.not_lt.2 hin)).trans (congrArg (ran s) (if_pos ((Bool.or_eq_true _ _).mpr h)))

/-- A write with tokens for its range is stored and answered. -/
theorem exec_hostMemWrite_done (hin : off + data.length ≤ memLimit) (hd : s.domHeld 2 = false)
    (hb : s.rangeBlocked off data.length = false)
    (ht : (s.takeTokens off data.length (s.hostPart off)).2 = true) :
    exec (.hostMemWrite off data) s = .next (kept s
      ((((s.takeTokens off data.length (s.hostPart off)).1.stwWrite off data).emit .cxlWriteDone).wake)) :=
  (if_neg (Nat.not_lt.2 hin)).trans (congrArg (ran s) ((if_neg (hostRuns hd hb)).trans
    (if_neg (ne_true_of_eq_false (congrArg not ht)))))

/-- A write without tokens for its range only counts its wait. -/
theorem exec_hostMemWrite_noTokens (hin : off + data.length ≤ memLimit) (hd : s.domHeld 2 = false)
    (hb : s.rangeBlocked off data.length = false)
    (ht : (s.takeTokens off data.length (s.hostPart off)).2 = false) :
    exec (.hostMemWrite off data) s =
      .next (kept s (s.takeTokens off data.length (s.hostPart off)).1) :=
  (if_neg (Nat.not_lt.2 hin)).trans (congrArg (ran s) ((if_neg (hostRuns hd hb)).trans (if_pos (congrArg not ht))))

/-- The answer to a read of the host: the bytes, and whether they are poisoned. -/
def hostReadDone (x : State × Rd) : State := (x.1.emit (.cxlRead x.2.data x.2.bad.isSome)).wake

/-- A read with tokens for its range is made and answered. -/
theorem exec_hostMemRead_done (hin : off + len ≤ memLimit) (hd : s.domHeld 2 = false)
    (hb : s.rangeBlocked off len = false) (ht : (s.takeTokens off len (s.hostPart off)).2 = true) :
    exec (.hostMemRead off len e) s = .next (kept s
      (hostReadDone ((s.takeTokens off len (s.hostPart off)).1.stwRead off len e))) :=
  (if_neg (Nat.not_lt.2 hin)).trans (congrArg (ran s) ((if_neg (hostRuns hd hb)).trans
    (if_neg (ne_true_of_eq_false (congrArg not ht)))))

/-- A read without tokens for its range only counts its wait. -/
theorem exec_hostMemRead_noTokens (hin : off + len ≤ memLimit) (hd : s.domHeld 2 = false)
    (hb : s.rangeBlocked off len = false) (ht : (s.takeTokens off len (s.hostPart off)).2 = false) :
    exec (.hostMemRead off len e) s = .next (kept s (s.takeTokens off len (s.hostPart off)).1) :=
  (if_neg (Nat.not_lt.2 hin)).trans (congrArg (ran s) ((if_neg (hostRuns hd hb)).trans (if_pos (congrArg not ht))))

end

/-- Settles O27: each access by whether it reaches past memory, waits, or finds its tokens; a write within one plain
line stores its bytes by `cellsPut`, which reads back and keeps every other byte. -/
theorem hostMemory : Obligations.HostMemory := by
  unfold Obligations.HostMemory
  refine ⟨fun _ _ _ _ _ hw hr => ⟨exec_hostMemWrite_beyond hw, exec_hostMemRead_beyond hr⟩,
    fun _ _ _ _ => exec_scrubRead_beyond, fun _ _ _ => exec_hostMemWrite_done,
    fun _ _ _ _ hin hd hb ht => ⟨_, _, rfl, exec_hostMemRead_done hin hd hb ht⟩,
    fun _ _ _ _ hin hd hb ht =>
      ⟨exec_hostMemWrite_noTokens hin hd hb ht, exec_hostMemRead_noTokens hin hd hb ht⟩,
    fun _ _ _ _ hin h => ⟨exec_hostMemWrite_waits hin h, exec_hostMemRead_waits hin h⟩, ?bytes⟩
  case bytes =>
    intro s off data hs hin hd hb ht hne hl hp hc htest
    have hwf : Memory.wf s.stw.mem = true := hs.1
    have htok := sameLines_takeTokens s off data.length (s.hostPart off)
    have hmem : ((s.takeTokens off data.length (s.hostPart off)).1.stwWrite off data).stw.mem
        = cellsPut s.stw.mem off data := by
      rw [stwWrite_mem hne hl (htok.comb.trans hc) (by rw [htok.poison, hp]) (htok.noTest htest), htok.mem]
    refine ⟨_, exec_hostMemWrite_done hin hd hb ht, fun a ha => ?outside, fun i hi => ?inside⟩
    case outside => rw [State.emit_stw, hmem, cellGet_cellsPut_out s.stw.mem off data ha]
    case inside => rw [State.emit_stw, hmem, cellGet_cellsPut_in hwf off data hi, List.getD_eq_getElem data 0 hi]

end Sys2Proof.Proofs
end

section
/-! SUPPORT. The row cache's own commands: maintenance requests and their queue, the cache's control, the pinned ways and
returned fills (R406, R408, R420, R426 to R428, R430, R432, R433, R435; O23, O24). -/
namespace Sys2Proof.Proofs

open Sys2Proof Sys2Proof.Machine Sys2Proof.Safety Sys2Proof.Laws

section
variable {s : State} {w : Word} {op : MntOp}

/-! ### The queue of requests -/

/-- While a walk runs, a request behind fewer than sixteen others, none beyond them, becomes the queue's last (R432). -/
theorem mntQueue_last (engine : Bool) (hr : s.rc.running ≠ none) (hq : s.rc.queue.length < 16)
    (ho : s.rc.overflow = []) :
    (s.mntQueue op engine false).1 = s.modRc (fun r => { r with
      queue := r.queue ++ [⟨r.nextMnt, op, engine⟩], nextMnt := r.nextMnt + 1 }) := by
  have hrun : s.rc.running.isNone = false := by simpa [Option.isSome_iff_ne_none] using hr
  simp only [State.mntQueue, State.modRc_rc, hrun, hq, ho, List.isEmpty_nil, decide_true, Bool.and_self,
    Bool.false_eq_true, if_false, if_true]
  rfl

/-! ### The maintenance commands -/

/-- Each of the four maintenance commands makes the request that `mntOpOf` names. -/
theorem exec_maintenance {i : Instr} (h : mntOpOf s i = some op) : exec i s = .next (kept s (s.mntReq op)) := by
  cases i with
  | invRange | invTable table slots | invAll | mntNop => cases h; rfl
  | _ => cases h

theorem mntReq_held (hd : s.domHeld 3 = true) : s.mntReq op = s := if_pos hd

/-- Behind sixteen requests that wait, a request is dropped and RC_MNT_STAT shows it (R432). -/
theorem mntReq_dropped (hd : s.domHeld 3 = false) (hq : 16 ≤ s.rc.queue.length) :
    s.mntReq op = s.setReg Reg.RC_MNT_STAT (s.reg Reg.RC_MNT_STAT ||| 0x40) :=
  (if_neg (ne_true_of_eq_false hd)).trans (if_pos hq)

theorem mntReq_queued (hd : s.domHeld 3 = false) (hq : s.rc.queue.length < 16) :
    s.mntReq op = (s.mntQueue op false false).1 :=
  (if_neg (ne_true_of_eq_false hd)).trans (if_neg (Nat.not_le.2 hq))

/-- With room in the queue a maintenance command queues its request. -/
theorem exec_maintenance_queued {i : Instr} (hd : s.domHeld 3 = false) (hq : s.rc.queue.length < 16)
    (h : mntOpOf s i = some op) : exec i s = .next (kept s (s.mntQueue op false false).1) := by
  rw [exec_maintenance h, mntReq_queued hd hq]

/-! ### The end of a walk -/

theorem exec_mntWalkDone_ready (hd : s.domHeld 3 = false) : exec .mntWalkDone s = .next (kept s s.walkDone.wake) :=
  congrArg (ran s) (if_neg (ne_true_of_eq_false hd))

theorem walkDone_idle (h : s.rc.running = none) : s.walkDone = s := by simp only [State.walkDone, h]

/-! ### RC_CTL -/

/-- The state with RC_CTL's writable bits as written and its EN bit as given. -/
def rcCtlSet (s : State) (w : Word) (en : Nat) : State := s.setReg Reg.RC_CTL (Word.ofNat (w.bits 4 1 * 2 + en))

theorem rcEnable_enabled (hd : s.domHeld 3 = false) (hen : (s.reg Reg.RC_CTL).bit 0 = true) :
    s.rcEnable w = rcCtlSet s w 1 :=
  (if_neg (ne_true_of_eq_false hd)).trans (if_pos hen)

/-- A disabled cache that is enabled: whether its lines are kept is KEEP's and the salts' to say. -/
theorem rcEnable_disabled (hd : s.domHeld 3 = false) (hen : (s.reg Reg.RC_CTL).bit 0 = false) :
    s.rcEnable w = if (w.bit 1 && !s.rc.saltDirty) = true
      then (rcCtlSet s w 1).modRc (fun r => { r with saltDirty := false, stale := true })
      else (((rcCtlSet s w 1).modRc (fun r => { r with saltDirty := false, init := true })).mntQueue
        (.init true) true true).1 :=
  (if_neg (ne_true_of_eq_false hd)).trans (if_neg (ne_true_of_eq_false hen))

/-- With KEEP and no salt written the lines stay, as stale (R428). -/
theorem rcEnable_keep (hd : s.domHeld 3 = false) (hen : (s.reg Reg.RC_CTL).bit 0 = false) (hk : w.bit 1 = true)
    (hs : s.rc.saltDirty = false) :
    s.rcEnable w = (rcCtlSet s w 1).modRc (fun r => { r with saltDirty := false, stale := true }) := by
  rw [rcEnable_disabled hd hen, if_pos (by simp [hk, hs])]

/-- Without KEEP, or after a write of a salt, the cache starts anew by a walk at the queue's head (R406, R427, R433). -/
theorem rcEnable_anew (hd : s.domHeld 3 = false) (hen : (s.reg Reg.RC_CTL).bit 0 = false)
    (hk : w.bit 1 = false ∨ s.rc.saltDirty = true) :
    s.rcEnable w = (((rcCtlSet s w 1).modRc (fun r => { r with saltDirty := false, init := true })).mntQueue
      (.init true) true true).1 := by
  rw [rcEnable_disabled hd hen, if_neg (by simpa [imp_iff_not_or] using hk)]

theorem rcDisable_ready (hd : s.domHeld 3 = false) : s.rcDisable w = rcCtlSet s w 0 :=
  if_neg (ne_true_of_eq_false hd)

/-! ### RC_PIN -/

/-- The pinned bytes within the first `ways` ways: those above are taken away. -/
def pinShrunk (ways : Nat) (r : RCache) : RCache :=
  { r with
    pinCap := min r.pinCap ways
    pinned := r.pinned.filter (fun x => decide (x.1 < min r.pinCap ways * 8 * 2 ^ 20))
    pinErr := r.pinErr.filter (fun x => decide (8 * x < min r.pinCap ways * 8 * 2 ^ 20)) }

theorem rcPin_refused (h : 8 < w.bits 3 0 ∨ s.dir.tables.any (fun x => x.2.pin) = true) : s.rcPin w = s := by
  refine if_pos ?_
  obtain hsize | hpin := h
  · simp [hsize]
  · exact (Bool.or_eq_true _ _).mpr (.inr hpin)

/-- A size of at most 8 with no pinned table is taken: a larger one by a walk, another at once (R420). -/
theorem rcPin_taken (hd : s.domHeld 3 = false) (h8 : w.bits 3 0 ≤ 8)
    (hp : s.dir.tables.any (fun x => x.2.pin) = false) :
    s.rcPin w = if s.rbits Reg.RC_PIN 3 0 < w.bits 3 0
      then ((s.setReg Reg.RC_PIN (Word.ofNat (w.bits 3 0))).mntQueue
        (.pin (s.rbits Reg.RC_PIN 3 0) (w.bits 3 0)) true false).1
      else (s.setReg Reg.RC_PIN (Word.ofNat (w.bits 3 0))).modRc (pinShrunk (w.bits 3 0)) := by
  have hgo : ¬ (s.domHeld 3 || decide (w.bits 3 0 > 8) || s.dir.tables.any (fun x => x.2.pin)) = true := by
    simp [hd, hp, Nat.not_lt.2 h8]
  exact if_neg hgo

/-! ### Fills -/

section
variable {n : Nat} {e : Ecc}

/-- While the core runs RC_FILL of a miss that is out is its fill, and work that waited goes on. -/
theorem exec_rcFill_out {m : RcMiss} (hrun : s.rst.phase = .run)
    (h : s.rc.misses.find? (fun m => m.id == n) = some m) :
    exec (.rcFill n e) s = .next (kept s (s.rcFill m e).wake) := by
  change execRcFill n e s = _
  simp only [execRcFill, h, inReset_of_run hrun, Bool.false_eq_true, if_false, ran_eq]

theorem exec_rcFill_unknown (h : s.rc.misses.find? (fun m => m.id == n) = none) :
    exec (.rcFill n e) s = .next s := by
  change execRcFill n e s = _
  simp only [execRcFill, h, ran_eq, kept_self]

end

end

/-- Settles O23: each command is the request that `mntOpOf` names, which the queue's room and the domain's reset drop,
queue or discard. -/
theorem cacheMaintenance : Obligations.CacheMaintenance := by
  unfold Obligations.CacheMaintenance
  refine ⟨?full, ?last, ?held, fun _ _ _ => ⟨rfl, rfl, rfl, rfl⟩, ?room, fun _ => exec_mntWalkDone_ready,
    fun _ => walkDone_idle⟩
  case full =>
    intro s op hd hq i hi
    rw [exec_maintenance hi, mntReq_dropped hd hq]
  case last =>
    intro s op hd hq ho hr i hi
    rw [exec_maintenance_queued hd hq hi, mntQueue_last false hr hq ho]
    rfl
  case held =>
    intro s op hd i hi
    rw [exec_maintenance hi, mntReq_held hd, kept_self]
  case room =>
    intro s table slots hd hq
    exact ⟨exec_maintenance_queued hd hq rfl, exec_maintenance_queued hd hq rfl, exec_maintenance_queued hd hq rfl,
      exec_maintenance_queued hd hq rfl⟩

/-- Settles O24: RC_ENABLE by EN and by whether the lines are kept, RC_PIN_WRITE by the size and the pinned tables,
RC_FILL by whether the miss is out. -/
theorem cacheControl : Obligations.CacheControl := by
  unfold Obligations.CacheControl
  refine ⟨fun s w hd hen => congrArg (ran s) (rcEnable_enabled hd hen),
    fun s w hd hen hk hs => congrArg (ran s) (rcEnable_keep hd hen hk hs),
    fun s w hd hen hk => congrArg (ran s) (rcEnable_anew hd hen hk),
    fun s w hd => congrArg (ran s) (rcDisable_ready hd),
    fun s w h => congrArg (ran s) (rcPin_refused h), ?grows, ?shrinks,
    fun _ _ _ _ => exec_rcFill_out, fun _ _ _ => exec_rcFill_unknown⟩
  case grows =>
    intro s w hd h8 hp hlt
    exact congrArg (ran s) ((rcPin_taken hd h8 hp).trans (if_pos hlt))
  case shrinks =>
    intro s w hd h8 hp hle
    exact congrArg (ran s) ((rcPin_taken hd h8 hp).trans (if_neg (Nat.not_lt.2 hle)))

end Sys2Proof.Proofs
end

section
/-! SUPPORT. The stairwell columns' own commands: refresh and temperature, scrub, remaps, partition buckets and the
march test (R441 to R443, R446, R448 to R450, R453, R459 to R462; O28). -/
namespace Sys2Proof.Proofs

open Sys2Proof Sys2Proof.Machine Sys2Proof.Safety Sys2Proof.Laws

section
variable {s : State} {k : Nat} {w : Word}

/-! ### Refresh and temperature -/

/-- Rows are refreshed whether or not the column is held; nothing but their count moves. -/
theorem exec_refresh (s : State) (k : Nat) : exec (.refresh k) s = .next { s with
    stw := { s.stw with cols := updAt s.stw.cols k (fun c => { c with refreshes := c.refreshes + 1 }) } } :=
  ran_eq s _

theorem exec_tempSample_ready (temps : List Int) (hd : s.colHeld k = false) :
    exec (.tempSample k temps) s = .next (kept s (s.sampleCol k temps).wake) :=
  congrArg (ran s) (if_neg (ne_true_of_eq_false hd))

/-! ### Scrub -/

section
variable {off conn : Nat} {e : Ecc}

/-- The test by which SCRUB_READ leaves a column alone is that its scrub does not run. -/
theorem scrubIdle_eq (s : State) (k : Nat) :
    (!((s.reg (stwReg k Reg.STW_CTL)).bit 0 || (s.selftest.bind (·.cur)) == some (2, k)) || s.colHeld k ||
      (s.col k).test.isSome || (s.col k).temp == .halt) = !scrubs s k := by
  simp [scrubs, bne]

/-- What a running scrub does at a line that is not poisoned, by what it reads there (R448, R449, R459). -/
def scrubbed (s : State) (off conn : Nat) : Ecc → State
  | .good => s.countActs (off / 64 * 64) 64
  | .corrected => ((s.countActs (off / 64 * 64) 64).lineCe (off / 64)).connError
      (dramOf (off / 64 * 64)).column (dramOf (off / 64 * 64)).channel conn
  | .uncorrectable _ => (s.countActs (off / 64 * 64) 64).lineUe (off / 64)

theorem exec_scrubRead_running (hin : off < memLimit) (hr : scrubs s (dramOf (off / 64 * 64)).column = true)
    (hp : s.stw.poison.contains (off / 64) = false) :
    exec (.scrubRead off conn e) s = .next (kept s (scrubbed s off conn e)) := by
  have hgo : ¬ (!scrubs s (dramOf (off / 64 * 64)).column) = true := by simp [hr]
  have hclean : ¬ (s.countActs (off / 64 * 64) 64).stw.poison.contains (off / 64) = true := by
    rw [(sameLines_countActs s (off / 64 * 64) 64).poison, hp]
    exact Bool.false_ne_true
  rw [← scrubIdle_eq] at hgo
  refine (if_neg (Nat.not_le.2 hin)).trans (congrArg (ran s) ((if_neg hgo).trans ((if_neg hclean).trans ?_)))
  cases e <;> rfl

theorem exec_scrubRead_idle (hin : off < memLimit) (hr : scrubs s (dramOf (off / 64 * 64)).column = false) :
    exec (.scrubRead off conn e) s = .next s := by
  have hidle : (!scrubs s (dramOf (off / 64 * 64)).column) = true := by simp [hr]
  rw [← scrubIdle_eq] at hidle
  exact (if_neg (Nat.not_le.2 hin)).trans (congrArg (ran s) (if_pos hidle))

end

theorem exec_scrubPassEnd_ready (hd : s.colHeld k = false) :
    exec (.scrubPassEnd k) s = .next (kept s
      ((s.bump (stwReg k Reg.STW_SCRUB_PASS) 1).modCol k (fun c => { c with rowCe := [], connCe := [] }))) :=
  congrArg (ran s) (if_neg (ne_true_of_eq_false hd))

/-! ### Remaps -/

/-- The remap that ends is the one that began first (R453). -/
theorem exec_remapDone_first {p : Nat} {r : List Nat} (hd : s.colHeld k = false)
    (h : (s.col k).remapBusy = p :: r) : exec (.remapDone k) s = .next (kept s (s.installRemap k p)) := by
  change execRemapDone k s = _
  simp only [execRemapDone, hd, h, Bool.false_eq_true, if_false, ran_eq]

theorem exec_remapDone_none (h : (s.col k).remapBusy = []) : exec (.remapDone k) s = .next s := by
  change execRemapDone k s = _
  simp only [execRemapDone, h, ite_self, ran_eq, kept_self]

/-! ### Partition buckets -/

theorem stwRegCfg_ready (w : Word) (hd : s.colHeld k = false) : s.stwRegCfg k w =
    ((s.setReg (selKey (stwReg k Reg.STW_REG_CFG) (s.rbits (stwReg k Reg.STW_REG_SEL) 5 0)) w).modCol k (fun c =>
      { c with tokens := mapPut c.tokens (s.rbits (stwReg k Reg.STW_REG_SEL) 5 0) (w.bits 30 16) })).wake :=
  if_neg (ne_true_of_eq_false hd)

/-- An enabled partition's bucket gains RATE tokens up to BURST, and its waits end (R441). -/
theorem exec_partitionTokenGain_enabled {part : Nat} (hd : s.colHeld k = false)
    (hw : s.reg (selKey (stwReg k Reg.STW_REG_CFG) part) = w) (hen : w.bit 31 = true) :
    exec (.partitionTokenGain k part) s = .next (kept s ((s.modCol k (fun c => { c with
      tokens := mapPut c.tokens part (min (w.bits 30 16) (mapCnt c.tokens part + w.bits 15 0)),
      waiting := mapDel c.waiting part })).wake)) := by
  subst hw
  exact congrArg (ran s) (if_neg (by simp [hd, hen]))

/-! ### March test -/

/-- With START set, a march test is refused while the concourse is enabled, a table exists, a test runs or the pattern
is invalid (R460). -/
theorem marchStart_refused (hd : s.colHeld k = false) (hw : w.bit 31 = true)
    (h : (s.reg Reg.CONC_CTL).bit 0 = true ∨ s.dir.tables ≠ [] ∨ (s.col k).test ≠ none ∨ w.bits 1 0 = 3) :
    s.marchStart k w = s.setReg (stwReg k Reg.STW_TEST_STAT) (s.reg (stwReg k Reg.STW_TEST_STAT) ||| 4) := by
  have hgo : ¬ (s.colHeld k || !w.bit 31) = true := by simp [hd, hw]
  refine (if_neg hgo).trans (if_pos ?_)
  simpa only [Bool.or_eq_true, Bool.not_eq_true', List.isEmpty_eq_false_iff, Option.isSome_iff_ne_none,
    decide_eq_true_eq, or_assoc] using h

/-- The state in which a march test's end, its count of failures and the first of them are noted (R461). -/
def marchNoted (s : State) (k : Nat) (fails : List Nat) : State :=
  ((s.setReg (stwReg k Reg.STW_TEST_STAT) (s.reg (stwReg k Reg.STW_TEST_STAT) ||| 2)).setReg
    (stwReg k Reg.STW_TEST_FAIL_CNT) (Word.ofNat (sat32 fails.length))).setReg
    (stwReg k Reg.STW_TEST_FIRST) (Word.ofNat (fails.headD 0 % 2 ^ 30))

/-- The end of a test: its failing rows are proposed where bit 3 of its control word says so (R462), and the walk that
empties the cache is queued. -/
theorem exec_marchTestDone_running (fails : List Nat) (hd : s.colHeld k = false) (h : (s.col k).test = some w) :
    exec (.marchTestDone k fails) s = .next (kept s ((((if w.bit 3
      then (fails.map (fun f => f % 2 ^ 25)).eraseDups.foldl (fun (u : State) p => u.propose k p)
        (marchNoted s k fails)
      else marchNoted s k fails).modCol k (fun c => { c with test := none })).mntQueue .all true false).1.wake)) := by
  change execMarchTestDone k fails s = _
  simp only [execMarchTestDone, hd, h, Bool.false_eq_true, if_false, ran_eq]
  rfl

theorem exec_marchTestDone_none (fails : List Nat) (h : (s.col k).test = none) :
    exec (.marchTestDone k fails) s = .next s := by
  change execMarchTestDone k fails s = _
  simp only [execMarchTestDone, h, ite_self, ran_eq, kept_self]

end

/-- Settles O28: each command by whether its column is held and by what the column has to do: a scrub that runs, a remap
under way, an enabled partition, a test that may start or has ended. -/
theorem columnRows : Obligations.ColumnRows := by
  unfold Obligations.ColumnRows
  exact ⟨exec_refresh, fun _ _ temps => exec_tempSample_ready temps,
    fun _ _ _ hin hr hp => ⟨exec_scrubRead_running hin hr hp, fun _ => exec_scrubRead_running hin hr hp,
      exec_scrubRead_running hin hr hp⟩,
    fun _ _ _ _ => exec_scrubRead_idle,
    fun _ _ => exec_scrubPassEnd_ready,
    fun _ _ _ _ => exec_remapDone_first,
    fun _ _ => exec_remapDone_none,
    fun s _ w hd => congrArg (ran s) (stwRegCfg_ready w hd),
    fun _ _ _ _ => exec_partitionTokenGain_enabled,
    fun s _ _ hd hw h => congrArg (ran s) (marchStart_refused hd hw h),
    fun s _ _ _ _ _ _ _ _ => ran_eq s _,
    fun s k _ fails hd h => ⟨marchNoted s k fails, rfl, exec_marchTestDone_running fails hd h⟩,
    fun _ _ fails => exec_marchTestDone_none fails⟩

end Sys2Proof.Proofs
end

section
/-! SUPPORT. The ends of host reads, and the copy channels' two register commands (R491, R521, R524; O29). -/
namespace Sys2Proof.Proofs

open Sys2Proof Sys2Proof.Machine Sys2Proof.Safety Sys2Proof.Laws

section
variable {s : State} {n b : Nat} {a : HAcc} {data : List Byte}

/-! ### Completions -/

/-- Only a completion with as many bytes as the read asked for is its completion. -/
theorem exec_hostReadCompletion_issued (h : s.issuedRead n = some a) :
    exec (.hostReadCompletion n data none) s =
      .next (kept s (if data.length = a.len then (s.hostDone a (.data data)).wake else s)) := by
  change execHostReadCompletion n data none s = _
  simp only [execHostReadCompletion, h, ran_eq]

/-- A poisoned completion ends the read whatever bytes came with it. -/
theorem exec_hostReadCompletion_poisoned (h : s.issuedRead n = some a) :
    exec (.hostReadCompletion n data (some b)) s = .next (kept s ((s.hostDone a (.poison b)).wake)) := by
  change execHostReadCompletion n data (some b) s = _
  simp only [execHostReadCompletion, h, ran_eq]

theorem exec_hostReadCompletion_unknown (p : Option Nat) (h : s.issuedRead n = none) :
    exec (.hostReadCompletion n data p) s = .next s := by
  change execHostReadCompletion n data p s = _
  simp only [execHostReadCompletion, h, ran_eq, kept_self]

/-! ### Error completions -/

/-- An error of a copy's read is the copy's to retry or to fail (R524). -/
theorem exec_copyReadError_copy {seq k : Nat} (h : s.issuedRead n = some a) (hp : a.purpose = .cpyRead seq k) :
    exec (.copyReadError n b) s = .next (kept s ((s.cpyReadErr a seq k b).wake)) := by
  change execCopyReadError n b s = _
  simp only [execCopyReadError, h, hp, ran_eq]

/-- An error of any other read ends the work that asked for it (R491). -/
theorem exec_copyReadError_other (h : s.issuedRead n = some a) (hp : ∀ seq k, a.purpose ≠ .cpyRead seq k) :
    exec (.copyReadError n b) s = .next (kept s ((s.hostDone a (.err b)).wake)) := by
  change execCopyReadError n b s = _
  -- `hp` rules out the only purpose treated apart
  simp only [execCopyReadError, h, ran_eq]

theorem exec_copyReadError_unknown (h : s.issuedRead n = none) : exec (.copyReadError n b) s = .next s := by
  change execCopyReadError n b s = _
  simp only [execCopyReadError, h, ran_eq, kept_self]

/-! ### Copy channels -/

theorem exec_cpyChStop_ready (stop : Bool) (hd : s.domHeld 4 = false) :
    exec (.cpyChStop stop) s = .next (kept s ((s.setReg (selKey Reg.CPY_CH_CTL s.chanSel)
      (if stop then s.reg (selKey Reg.CPY_CH_CTL s.chanSel) ||| 1
        else s.reg (selKey Reg.CPY_CH_CTL s.chanSel) &&& 0xFFFFFFFE)).wake)) :=
  congrArg (ran s) (if_neg (ne_true_of_eq_false hd))

theorem exec_cpyChStop_held (stop : Bool) (hd : s.domHeld 4 = true) : exec (.cpyChStop stop) s = .next s :=
  congrArg (ran s) (if_pos hd)

theorem exec_cpyHaltClear_ready (hd : s.domHeld 4 = false) :
    exec .cpyHaltClear s = .next (kept s ((s.modChan s.chanSel (fun c => { c with halt := false })).wake)) :=
  congrArg (ran s) (if_neg (ne_true_of_eq_false hd))

theorem exec_cpyHaltClear_held (hd : s.domHeld 4 = true) : exec .cpyHaltClear s = .next s :=
  congrArg (ran s) (if_pos hd)

end

/-- Settles O29: a completion by whether its read was sent and by what came; an error by whose read it is; a channel's
command by whether the copy engines are held in reset. -/
theorem hostReads : Obligations.HostReads := by
  unfold Obligations.HostReads
  refine ⟨?whole, fun _ _ _ _ _ => exec_hostReadCompletion_poisoned, ?short, ?unknown,
    fun _ _ _ _ _ _ => exec_copyReadError_copy, fun _ _ _ _ => exec_copyReadError_other,
    fun _ hd => ⟨exec_cpyChStop_ready true hd, exec_cpyChStop_ready false hd, exec_cpyHaltClear_ready hd⟩,
    fun _ stop hd => ⟨exec_cpyChStop_held stop hd, exec_cpyHaltClear_held hd⟩⟩
  case whole =>
    intro s n a data h hlen
    rw [exec_hostReadCompletion_issued h, if_pos hlen]
  case short =>
    intro s n a data h hlen
    rw [exec_hostReadCompletion_issued h, if_neg hlen, kept_self]
  case unknown => exact fun s n data p b h => ⟨exec_hostReadCompletion_unknown p h, exec_copyReadError_unknown h⟩

end Sys2Proof.Proofs
end

section
/-! SUPPORT. Translations, page requests, invalidations and the hot-page window (R478, R480, R483, R485, R495; O30). -/
namespace Sys2Proof.Proofs

open Sys2Proof Sys2Proof.Machine Sys2Proof.Safety Sys2Proof.Laws

section
variable {s : State} {n : Nat}

/-! ### Translations -/

/-- The entry that a reply to a translation request brings: the aligned page of the size held that the request's page
lies in, with the reply's permissions (R478). -/
def replyEntry (s : State) (a : Ats) (r : AtsReply) : Tlb :=
  ⟨a.pasid, a.page / heldSize r.size * heldSize r.size, heldSize r.size, r.r, r.w, s.now, []⟩

/-- The state without the translation request of a number, which a reply has ended. -/
def atsEnded (s : State) (n : Nat) : State := s.modXlt (fun x => { x with ats := x.ats.filter (fun b => b.id != n) })

theorem exec_atsCompletion_allowed {a : Ats} {r : AtsReply}
    (h : s.xlt.ats.find? (fun a => a.id == n && a.sent) = some a) (hp : r.present = true)
    (hok : (if a.write then r.w else r.r) = true) :
    exec (.atsCompletion n r) s = .next (kept s ((atsPump ((atsEnded s n).tlbInsert (replyEntry s a r)).retryAccs
      (((atsEnded s n).tlbInsert (replyEntry s a r)).xlt.ats.length + 1)).wake)) := by
  change execAtsCompletion n r s = _
  simp only [execAtsCompletion, h, hp, hok, Bool.and_self, if_true, ran_eq]
  rfl

theorem exec_atsCompletion_unknown {r : AtsReply} (h : s.xlt.ats.find? (fun a => a.id == n && a.sent) = none) :
    exec (.atsCompletion n r) s = .next s := by
  change execAtsCompletion n r s = _
  simp only [execAtsCompletion, h, ran_eq, kept_self]

/-! ### Page requests (R483) -/

section
variable {p : Pri}

/-- The state without the page request of a number, which the host has answered. -/
def priEnded (s : State) (n : Nat) : State := s.modXlt (fun x => { x with pri := x.pri.filter (fun q => q.id != n) })

/-- The state in which a page request has failed and no more are made. -/
def priStopped (s : State) (p : Pri) : State := (s.priFails p).modXlt (fun x => { x with priStop := true })

theorem exec_pageRequestResponse_success (h : s.xlt.pri.find? (fun p => p.id == n && p.sent) = some p) :
    exec (.pageRequestResponse n .success) s =
      .next (kept s (((priEnded s n).atsAsk p.pasid p.page p.write false true 0).priNext)) := by
  change execPageRequestResponse n .success s = _
  simp only [execPageRequestResponse, h, ran_eq]
  rfl

theorem exec_pageRequestResponse_invalid (h : s.xlt.pri.find? (fun p => p.id == n && p.sent) = some p) :
    exec (.pageRequestResponse n .invalid) s = .next (kept s ((s.priFails p).priNext)) := by
  change execPageRequestResponse n .invalid s = _
  simp only [execPageRequestResponse, h, ran_eq]

/-- With the request that failed fails every one that was not sent. -/
theorem exec_pageRequestResponse_failure (h : s.xlt.pri.find? (fun p => p.id == n && p.sent) = some p) :
    exec (.pageRequestResponse n .failure) s =
      .next (kept s ((((priStopped s p).xlt.pri.filter (fun q => !q.sent)).foldl
        (fun (z : State) q => z.priFails q) (priStopped s p)).retryAccs.wake)) := by
  change execPageRequestResponse n .failure s = _
  simp only [execPageRequestResponse, h, ran_eq]
  rfl

theorem exec_pageRequestResponse_unknown (r : PriReply)
    (h : s.xlt.pri.find? (fun p => p.id == n && p.sent) = none) : exec (.pageRequestResponse n r) s = .next s := by
  change execPageRequestResponse n r s = _
  simp only [execPageRequestResponse, h, ran_eq, kept_self]

/-- A request is counted as timed out and fails TIMEOUT_MS after it was sent. -/
theorem exec_pageRequestTimeout_sent (h : s.xlt.pri.find? (fun p => p.id == n && p.sent) = some p) :
    exec (.pageRequestTimeout n) s = .next (keptAt s ((((s.due (p.at_ + 1000000 * s.rbits Reg.XLT_PRI_CFG 15 0)).bump
      Reg.XLT_PRI_TIMEOUT_CNT 1).priFails p).priNext)) := by
  change execPageRequestTimeout n s = _
  simp only [execPageRequestTimeout, h, ms, Nat.mul_comm _ 1000000, came_eq]

theorem exec_pageRequestTimeout_unknown (h : s.xlt.pri.find? (fun p => p.id == n && p.sent) = none) :
    exec (.pageRequestTimeout n) s = .next s := by
  change execPageRequestTimeout n s = _
  simp only [execPageRequestTimeout, h, came_eq, keptAt_self]

end

/-! ### Invalidations (R485) -/

section
variable (pasid addr size : Nat)

/-- The state without the entries of a PASID that meet a range. -/
def tlbInvalidated (s : State) (pasid addr size : Nat) : State :=
  s.modXlt (fun x => { x with tlb := x.tlb.filter (fun e =>
    !(e.pasid == pasid && decide (e.page < addr + size) && decide (addr < e.page + e.size))) })

theorem exec_atsInvalidation_run (h : s.rst.phase = .run) :
    exec (.atsInvalidation pasid addr size) s = .next (kept s ((((tlbInvalidated s pasid addr size).bump
      Reg.XLT_INVAL_CNT 1).emit (.invalDone pasid addr)).retryAccs.wake)) :=
  congrArg (ran s) (if_neg (ne_true_of_eq_false (inReset_of_run h)))

theorem exec_atsInvalidation_reset (h : s.rst.phase ≠ .run) :
    exec (.atsInvalidation pasid addr size) s = .next { s with outs := s.outs ++ [.invalDone pasid addr] } :=
  congrArg (ran s) (if_pos (inReset_of_not_run h))

end

/-! ### The hot-page window (R495) -/

theorem exec_hotWindowEnd_off (h : (s.reg Reg.XLT_HOT_CFG).bit 0 = false ∨ s.rst.phase ≠ .run) :
    exec .hotWindowEnd s = .next s := by
  have hoff : (!(s.reg Reg.XLT_HOT_CFG).bit 0 || s.inReset) = true :=
    (Bool.or_eq_true _ _).mpr (h.imp (by simp) inReset_of_not_run)
  exact congrArg (ran s) (if_pos hoff)

/-- No counter at the threshold, no record: the counts start anew. -/
theorem exec_hotWindowEnd_cold (hen : (s.reg Reg.XLT_HOT_CFG).bit 0 = true) (hrun : s.rst.phase = .run)
    (hcold : ∀ h ∈ s.xlt.hot, h.count < s.rbits Reg.XLT_HOT_CFG 31 16) :
    exec .hotWindowEnd s = .next { s with xlt := { s.xlt with hot := [] } } := by
  have hnone : s.xlt.hot.filter (fun h => decide (h.count ≥ (s.reg Reg.XLT_HOT_CFG).bits 31 16)) = [] :=
    List.filter_eq_nil_iff.2 fun h hm => mt of_decide_eq_true (Nat.not_le.2 (hcold h hm))
  change execHotWindowEnd s = _
  simp only [execHotWindowEnd, hen, inReset_of_run hrun, hnone, List.foldl_nil, Bool.not_true, Bool.or_self,
    Bool.false_eq_true, if_false, ran_eq]
  rfl

end

/-- Settles O30: a reply and a page request's end by whether the request was sent; an invalidation by the core's reset;
a window's end also by whether the counters are enabled. -/
theorem translationRows : Obligations.TranslationRows := by
  unfold Obligations.TranslationRows
  exact ⟨fun s n _ _ h hp hok => ⟨atsEnded s n, rfl, exec_atsCompletion_allowed h hp hok⟩,
    fun _ _ _ => exec_atsCompletion_unknown,
    fun s n p h => ⟨exec_pageRequestResponse_success h, exec_pageRequestResponse_invalid h,
      ⟨priStopped s p, rfl, exec_pageRequestResponse_failure h⟩, exec_pageRequestTimeout_sent h⟩,
    fun _ _ r h => ⟨exec_pageRequestResponse_unknown r h, exec_pageRequestTimeout_unknown h⟩,
    fun _ => exec_atsInvalidation_run, fun _ => exec_atsInvalidation_reset,
    fun s _ _ => ran_eq s _,
    fun _ => exec_hotWindowEnd_off, fun _ => exec_hotWindowEnd_cold⟩

end Sys2Proof.Proofs
end

section
/-! SUPPORT. The host link going down and coming up (R497, R498, R500, R502, log 44; O31). -/
namespace Sys2Proof.Proofs

open Sys2Proof Sys2Proof.Machine Sys2Proof.Safety Sys2Proof.Laws

section
variable {s : State}

/-! ### HOST_LINK_DOWN -/

/-- The state cut off from the host, in the loss mode in force and with an empty detach log (R497, R498, R501). -/
def hostLost (s : State) : State :=
  (s.modXlt (fun x => { x with mode := s.lossMode, logHead := 0, logTail := 0 })).cutOff

theorem exec_hostLinkDown_attached (hrun : s.rst.phase = .run) (hx : s.xlt.host = .attached) :
    exec .hostLinkDown s = .next (kept s ((((hostLost s).bump Reg.XLT_LINKDOWN_CNT 1).raise
      { code := 0x70, d0 := b2n s.lossMode }).wake)) := by
  change execHostLinkDown s = _
  simp only [execHostLinkDown, inReset_of_run hrun, hx, Bool.false_eq_true, if_false, ran_eq]
  rfl

theorem exec_hostLinkDown_detached (hrun : s.rst.phase = .run) (hx : s.xlt.host = .detached) :
    exec .hostLinkDown s = .next s := by
  change execHostLinkDown s = _
  simp only [execHostLinkDown, inReset_of_run hrun, hx, Bool.false_eq_true, if_false, ran_eq, kept_self]

/-- In reset the loss is no host loss: the engine waits for a fresh link (log 44). -/
theorem exec_hostLinkDown_reset (h : s.rst.phase ≠ .run) :
    exec .hostLinkDown s =
      .next { s with xlt := { s.xlt with link := false, host := .detached, fresh := true } } :=
  congrArg (ran s) (if_pos (inReset_of_not_run h))

/-! ### HOST_LINK_UP -/

/-- The link that comes up is noted, whatever the engine's state. -/
def linkNoted (s : State) : State := s.modXlt (fun x => { x with link := true })

/-- A DETACHED engine is ATTACHED at once where a reset found the link down, and else has to be reattached (R500,
R502). -/
theorem exec_hostLinkUp_detached (hx : s.xlt.host = .detached) :
    exec .hostLinkUp s = .next (kept s (if s.xlt.fresh = true
      then ((linkNoted s).modXlt (fun x => { x with host := .attached, fresh := false })).kickAll.wake
      else ((linkNoted s).modXlt (fun x => { x with host := .attaching })).kickAll.wake)) := by
  change execHostLinkUp s = _
  simp only [execHostLinkUp, State.modXlt_xlt, hx, ran_eq]
  rfl

theorem exec_hostLinkUp_other (hx : s.xlt.host ≠ .detached) :
    exec .hostLinkUp s = .next { s with xlt := { s.xlt with link := true } } := by
  change execHostLinkUp s = _
  -- `hx` rules out the only state treated apart
  simp only [execHostLinkUp, State.modXlt_xlt, ran_eq]
  rfl

end

/-- Settles O31: the loss by the core's reset and the engine's state, the link's return by that state and by whether a
reset found the link down. -/
theorem hostLinkRows : Obligations.HostLinkRows := by
  unfold Obligations.HostLinkRows
  refine ⟨fun s hrun hx => ⟨hostLost s, rfl, exec_hostLinkDown_attached hrun hx⟩,
    fun _ => exec_hostLinkDown_detached, fun _ => exec_hostLinkDown_reset, ?fresh, ?reattach,
    fun _ => exec_hostLinkUp_other⟩
  case fresh =>
    intro s hx hf
    rw [exec_hostLinkUp_detached hx, if_pos hf]
    rfl
  case reattach =>
    intro s hx hf
    rw [exec_hostLinkUp_detached hx, if_neg (ne_true_of_eq_false hf)]
    rfl

end Sys2Proof.Proofs
end

section
/-! SUPPORT. What a timed event leaves of the state that its meaning formed (log 1). -/
namespace Sys2Proof.Proofs

open Sys2Proof.Machine Sys2Proof.Safety

/-- A timed event whose meaning leaves the queue alone and takes no time back goes on to that meaning. -/
theorem keptAt_eq_self {s u : State} (hn : s.now ≤ u.now) (hp : u.pending = s.pending) : keptAt s u = u := by
  rw [keptAt, max_eq_right hn, ← hp]

theorem keptAt_rst (s u : State) : (keptAt s u).rst = u.rst := rfl

theorem keptAt_boot (s u : State) : (keptAt s u).boot = u.boot := rfl

end Sys2Proof.Proofs
end

section
/-! SUPPORT. The invariant: it holds after reset, and every step keeps it (R576; O49, O53). -/
namespace Sys2Proof.Proofs

open Sys2Proof Sys2Proof.Machine Sys2Proof.Safety Sys2Proof.Laws

/-- A command that does not serve keeps the invariant, by its own law of Laws/KeepExec. The commands that serve fall to
the last arm, where the hypothesis `serves c = false` reads `true = false`. -/
theorem sane_of_not_serves {c : Instr} {s t : State} (hc : serves c = false) (hs : Sane s) (h : exec c s = .next t) :
    Sane t := by
  cases c with
  -- presence and the seal loop
  | presencePress => exact sane_execPresencePress h hs
  | presenceExpire => exact sane_execPresenceExpire h hs
  | sealSample => exact sane_execSealSample h hs
  | backupSealSample => exact sane_execBackupSealSample h hs
  | presLedBlink => exact sane_execPresLedBlink h hs
  -- the thermal pins
  | thermtrip => exact sane_execThermtrip h hs
  | coreSupplyRise => exact sane_execCoreSupplyRise h hs
  -- landings and their effects
  | landing => exact sane_execLanding h hs
  | flightLengthChange => exact sane_execFlightLengthChange h hs
  | switchTakesEffect => exact sane_execSwitchTakesEffect h hs
  | stateChangeTakesEffect => exact sane_execStateChangeTakesEffect h hs
  | epochBumpTakesEffect => exact sane_execEpochBumpTakesEffect h hs
  | migrateStart => exact sane_execMigrateStart h hs
  | graceEnd => exact sane_execGraceEnd h hs
  | slotEmpty => exact sane_execSlotEmpty h hs
  | heldRun => exact sane_execHeldRun h hs
  | resyncStep => exact sane_execResyncStep h hs
  | spareEnabled => exact sane_execSpareEnabled h hs
  | floorBreach => exact sane_execFloorBreach h hs
  -- hall time and its sources
  | beaconSend => exact sane_execBeaconSend h hs
  | beacon => exact sane_execBeacon h hs
  | upstreamSwitch => exact sane_execUpstreamSwitch h hs
  | syncFree => exact sane_execSyncFree h hs
  | syncFreeLong => exact sane_execSyncFreeLong h hs
  | refclkLoss => exact sane_execRefclkLoss h hs
  | refclkReturn => exact sane_execRefclkReturn h hs
  | fltRootWrite path => exact sane_execFltRootWrite (_path := path) h hs
  | resync => exact sane_execResync h hs
  -- resets: their sources, the abort phase and the release
  | yfRstinAssert => exact sane_execYfRstinAssert h hs
  | yfRstinRelease => exact sane_execYfRstinRelease h hs
  | warm => exact sane_execWarm h hs
  | cold => exact sane_execCold h hs
  | standbyRailFall => exact sane_execStandbyRailFall h hs
  | powerOn => exact sane_execPowerOn h hs
  | vbakLoss => exact sane_execVbakLoss h hs
  | abortPhaseEnd => exact sane_execAbortPhaseEnd h hs
  | resetHoldEnd => exact sane_execResetHoldEnd h hs
  | releaseStep => exact sane_execReleaseStep h hs
  | domainReady => exact sane_execDomainReady h hs
  -- resets that other units start
  | wdogExpiry => exact sane_execWdogExpiry h hs
  | unitReset => exact sane_execUnitReset h hs
  | remoteReset => exact sane_execRemoteReset h hs
  | hostLossReset => exact sane_execHostLossReset h hs
  -- register accesses
  | registerWrite => exact sane_execRegisterWrite h hs
  | loWrite => exact sane_execLoWrite h hs
  | hiWrite => exact sane_execHiWrite h hs
  | fltLenAtHiWrite => exact sane_execFltLenAtHiWrite h hs
  | loRead => exact sane_execLoRead h hs
  | regRead => exact sane_execRegRead h hs
  | laneReadNoResponse => exact sane_execLaneReadNoResponse h hs
  | regWrite => exact sane_execRegWrite h hs
  | _ => exact absurd hc.symm Bool.false_ne_true

/-- Every command keeps the invariant: one that serves, with the parts that serving leaves alone. -/
theorem exec_sane {c : Instr} {s t : State} (hs : Sane s) (h : exec c s = .next t) : Sane t := by
  cases hc : serves c with
  | true => exact (held_of_serves hc hs h).sane
  | false => exact sane_of_not_serves hc hs h

/-- Settles O53: a step is the idle step, which changes the time alone, or the front command on the queue's rest. -/
theorem stepKeepsSane : Obligations.StepKeepsSane := by
  intro s t hs h
  cases hp : s.pending with
  | nil =>
    rw [step_of_empty hp] at h
    cases h
    exact hs
  | cons c rest =>
    rw [step_of_cons hp] at h
    exact exec_sane (s := s.withQueue rest) hs h

/-- Settles O49: each part of the reset state is `Sound` by computation; no word has been written yet. -/
theorem saneReset : Obligations.SaneReset := by
  refine ⟨rfl, rfl, rfl, rfl, rfl, rfl, ?counts⟩
  case counts =>
    intro x hx
    cases hx

end Sys2Proof.Proofs
end

section
/-! SUPPORT. Pin keepers, the landing pulse and the thermal pins (R38, R39, R556, R558, R571; O2). -/
namespace Sys2Proof.Proofs

open Sys2Proof Sys2Proof.Machine Sys2Proof.Safety Sys2Proof.Laws

section
variable {s : State} {temp : Int}

/-! ### Keepers and pulses -/

/-- A pin's keeper lets go at its time (R558). -/
theorem exec_pinKeeperRelease_kept {n t : Nat} {level : Bool}
    (h : (s.pins.getD n (Pin.reset 0)).keep = some (t, level)) :
    exec (.pinKeeperRelease n) s = .next ((s.due t).modPin n (fun p => { p with keep := none })) := by
  change execPinKeeperRelease n s = _
  rw [execPinKeeperRelease, h, came_eq]
  exact congrArg _ (keptAt_eq_self (Nat.le_max_left _ _) rfl)

/-- The pulses that a landing raised fall together (R556). -/
theorem exec_landingPulseEnd_high {t : Nat} (h : s.pins.findSome? (·.pulse) = some t) :
    exec .landingPulseEnd s = .next { s.due t with pins := s.pins.map (fun p => { p with pulse := none }) } := by
  change execLandingPulseEnd s = _
  rw [execLandingPulseEnd, h, came_eq]
  exact congrArg _ (keptAt_eq_self (Nat.le_max_left _ _) rfl)

/-! ### The thermal trip (R39, R571) -/

theorem therm_cool (h : temp < 125) : s.therm temp = s := if_pos (by simp [h])

/-- At 125 °C or above a pin not yet asserted is, and the backup domain notes it. -/
theorem therm_trips (h : 125 ≤ temp) (ht : s.err.therm = false) :
    s.therm temp = State.raise (State.modBk { s with err := { s.err with therm := true } }
      (fun b => { b with therm := true })) { code := 0x63 } :=
  if_neg (by simp [ht, Int.not_lt.2 h])

theorem exec_thermtrip : exec (.thermtrip temp) s = .next (kept s (s.therm temp)) := rfl

theorem exec_coreSupplyRise : exec (.coreSupplyRise temp) s =
    .next (kept s (State.therm { s with err := { s.err with therm := false, core := true } } temp)) := rfl

/-! ### The logic's sensor (R38) -/

/-- Above 105 °C the budgets of the next flight on are halved, with one record. -/
theorem exec_hot_rises (h : 105 < temp) (hn : s.flt.hotNext = false) :
    exec (.hot temp) s = .next (kept s ((s.modFlt (fun f => { f with hotNext := true })).raise
      { code := 0x60, d0 := temp.toNat })) :=
  congrArg (ran s) (if_pos ⟨h, by simp [hn]⟩)

theorem exec_hot_falls (h : temp ≤ 100) :
    exec (.hot temp) s = .next (kept s (s.modFlt (fun f => { f with hotNext := false }))) :=
  congrArg (ran s) ((if_neg fun hr => by omega).trans (if_pos h))

/-- Between the two temperatures, and where the budgets are halved already, nothing changes. -/
theorem exec_hot_stays (h : 100 < temp) (hs : temp ≤ 105 ∨ s.flt.hotNext = true) : exec (.hot temp) s = .next s := by
  have hrise : ¬ (temp > 105 ∧ !s.flt.hotNext) := by
    rintro ⟨hhot, hnext⟩
    rcases hs with hs | hs
    · omega
    · simp [hs] at hnext
  exact congrArg (ran s) ((if_neg hrise).trans (if_neg (by omega)))

end

/-- Settles O2: the thermal pins by whether the sensor calls for the trip, HOT by its two temperatures. -/
theorem pinRows : Obligations.PinRows := by
  unfold Obligations.PinRows
  refine ⟨fun _ _ _ _ => exec_pinKeeperRelease_kept, fun _ _ => exec_landingPulseEnd_high, ?trip, ?cool, ?riseCool,
    ?riseHot, fun _ _ => exec_hot_rises, fun _ _ => exec_hot_falls, fun _ _ => exec_hot_stays⟩
  case trip =>
    intro s temp h ht
    rw [exec_thermtrip, therm_trips h ht]
    rfl
  case cool =>
    intro s temp h
    rw [exec_thermtrip, therm_cool h, kept_self]
  case riseCool =>
    intro s temp h
    rw [exec_coreSupplyRise, therm_cool h]
    rfl
  case riseHot =>
    intro s temp h
    rw [exec_coreSupplyRise, therm_trips h rfl]
    rfl

end Sys2Proof.Proofs
end

section
/-! SUPPORT. The registers held in the persistent store, and the store's queue (R573 to R576, R628, R629; O3). -/
namespace Sys2Proof.Proofs

open Sys2Proof Sys2Proof.Machine Sys2Proof.Safety Sys2Proof.Laws

section
variable {s : State} {word : Nat} {v : Word}

/-! ### What the store says to a write -/

/-- Below the gate of 950,000 a word is written without presence (R576). -/
theorem psWear_ok (h : s.psCount word < psGate) : s.psWear word = .ok := by
  have hlimit : ¬ psLimit ≤ s.psCount word := Nat.not_le.2 (h.trans (by decide))
  simp only [State.psWear, ge_iff_le, if_neg hlimit, Nat.not_le.2 h, false_and, if_false]

/-- A write that changes a word below the gate is taken while the queue has room (R575). -/
theorem psCheck_ok (hv : s.psValue word ≠ v) (h : s.psCount word < psGate)
    (hroom : s.ps.busy = none ∨ s.ps.queue.length < 8) : s.psCheck word v = .ok := by
  have hfull : ¬ (s.ps.busy.isSome && decide (s.ps.queue.length ≥ 8)) = true := by
    rcases hroom with hb | hq
    · simp [hb]
    · simp [hq]
  simp only [State.psCheck, if_neg hv, psWear_ok h, if_neg hfull]

/-- A word at its limit takes no write (R576). -/
theorem psCheck_wear (hv : s.psValue word ≠ v) (h : psLimit ≤ s.psCount word) : s.psCheck word v = .wear := by
  simp only [State.psCheck, State.psWear, if_neg hv, ge_iff_le, if_pos h]

/-! ### A settings register written -/

variable {w : Word}

/-- A write that the store takes is queued, and the register holds its value at once (R573). -/
theorem rwpWrite_taken (hw : s.rwpValue word w = some v) (hc : s.psCheck word v = .ok) :
    s.rwpWrite word w = (s.psPut word v false).rwpSet word v := by
  simp only [State.rwpWrite, hw, State.psRegister, hc, if_true]

theorem rwpWrite_worn (hw : s.rwpValue word w = some v) (hc : s.psCheck word v = .wear) :
    s.rwpWrite word w = s.modPs (fun p => { p with wearRef := true }) := by
  simp only [State.rwpWrite, hw, State.psRegister, hc, Bool.false_eq_true, if_false]

theorem exec_rwpRegisterWrite {off : Nat} (h : psWordOf off = some word) :
    exec (.rwpRegisterWrite off w) s = .next (kept s (s.rwpWrite word w)) := by
  change execRwpRegisterWrite off w s = _
  rw [execRwpRegisterWrite, h, ran_eq]

theorem exec_hrMfpFuncWrite : exec (.hrMfpFuncWrite w) s = .next (kept s (s.rwpWrite 5 w)) := rfl

end

/-! ### The write in hand persisted -/

/-- The value that a write leaves in its word: word 0 takes the bits that the engine sets from their live values
(R628). -/
def persistedValue (s : State) (x : PsWrite) : Word :=
  if x.word = 0 then
    Word.ofNat (x.value.bits 12 8 * 2 ^ 8 + x.value.bits 1 0 + (s.reg Reg.ENG_PROFILE).bits 31 13 * 2 ^ 13)
  else x.value

/-- The write in hand is in its word and counted, and the next one starts (R574, R575). -/
theorem psDone_busy {s : State} {x : PsWrite} {t : Nat} (h : s.ps.busy = some (x, t)) :
    s.psDone = s.modPs (fun p => { p with
      words := mapSet p.words x.word (persistedValue s x)
      counts := mapPut p.counts x.word (min psLimit (mapCnt p.counts x.word + 1))
      busy := p.queue.head?.map (fun y => (y, s.now))
      queue := p.queue.drop 1 }) := by
  simp only [State.psDone, h]
  rfl

theorem exec_persistDone (s : State) : exec .persistDone s = .next (kept s s.psDone.psOps.wake) := rfl

/-- Settles O3: a register's write by what its rules make of the value and what the store says to it. -/
theorem persistentRegisters : Obligations.PersistentRegisters := by
  unfold Obligations.PersistentRegisters
  refine ⟨?register, ?pins, ?discarded, ?worn, ?done⟩
  case register =>
    intro s off word w v hoff hw hv hc hroom
    rw [exec_rwpRegisterWrite hoff, rwpWrite_taken hw (psCheck_ok hv hc hroom)]
  case pins =>
    intro s w v hw hv hc hroom
    rw [exec_hrMfpFuncWrite, rwpWrite_taken hw (psCheck_ok hv hc hroom)]
  case discarded =>
    intro s off word w hoff hw
    rw [exec_rwpRegisterWrite hoff, rwpWrite_of_discarded hw, kept_self]
  case worn =>
    intro s off word w v hoff hw hv hc
    rw [exec_rwpRegisterWrite hoff, rwpWrite_worn hw (psCheck_wear hv hc)]
    rfl
  case done =>
    intro s x t h
    rw [exec_persistDone, psDone_busy h]
    rfl

end Sys2Proof.Proofs
end

section
/-! SUPPORT. Power-on and cold resets: the pin, the command and the supplies (R538 to R540, R550, R569, R570; O4). -/
namespace Sys2Proof.Proofs

open Sys2Proof Sys2Proof.Machine Sys2Proof.Safety Sys2Proof.Laws

/-! ### A write of HR_RST_CMD (R540) -/

section
variable {s : State} {path : Path} {w : Word}

/-- A write of HR_RST_CMD that names a kind of reset but not its key, or that its path may not make, is refused with a
record. -/
theorem rstCmd_refused (hd : s.domHeld 1 = false) (h : s.rstCmdOk path w = some false) :
    s.rstCmd path w = (s.modRst (fun r => { r with refused := true })).raise
      { code := 0x81, d0 := w.bits 1 0, d1 := if path = .bar then 0 else 1 } := by
  simp only [State.rstCmd, hd, h, Bool.false_eq_true, if_false]
  cases path <;> rfl

/-- A warm reset that is taken. -/
theorem rstCmd_warm (hd : s.domHeld 1 = false) (h : s.rstCmdOk path w = some true) (hk : w.bits 1 0 = 1) :
    s.rstCmd path w = s.warmStart 4 := by
  simp only [State.rstCmd, hd, h, hk, Bool.false_eq_true, if_false, if_true]

/-- A cold reset that is taken: its source holds for 64 µs, or 160 ns in large style. -/
theorem rstCmd_cold (hd : s.domHeld 1 = false) (h : s.rstCmdOk path w = some true) (hk : w.bits 1 0 = 2) :
    s.rstCmd path w = ((s.bkCount 3).wideStart).modRst (fun r =>
      { r with coldCmd := some (s.now + if s.rst.large then 160 else 64000) }) := by
  have h1 : ¬ (2 = 1) := by decide
  simp only [State.rstCmd, hd, h, hk, h1, Bool.false_eq_true, if_false]
  rfl

/-- A write with a kind of reset and the wrong key. -/
theorem rstCmdOk_badKey (h0 : w.bits 1 0 ≠ 0) (h3 : w.bits 1 0 ≠ 3) (hkey : w.bits 31 16 ≠ 0xA5C3) :
    s.rstCmdOk path w = some false := by
  simp only [State.rstCmdOk, h0, h3, hkey, or_self, if_false, ne_eq, not_false_eq_true, if_true]

variable (h0 : w.bits 1 0 ≠ 0) (h3 : w.bits 1 0 ≠ 3) (hkey : w.bits 31 16 = 0xA5C3)
include h0 h3 hkey

/-- With its key a write through the BAR may start a warm reset and no other. -/
theorem rstCmdOk_bar : s.rstCmdOk .bar w = some (w.bits 1 0 == 1) := by
  simp only [State.rstCmdOk, h0, h3, hkey, or_self, if_false, ne_eq, not_true_eq_false]

/-- With its key a write over the lane may start either while lane resets are allowed. -/
theorem rstCmdOk_lane : s.rstCmdOk .lane w = some s.laneTerms := by
  simp only [State.rstCmdOk, h0, h3, hkey, or_self, if_false, ne_eq, not_true_eq_false]

end

section
variable {s : State}

theorem exec_cold {path : Path} {w : Word} (hk : w.bits 1 0 = 2) :
    exec (.cold path w) s = .next (kept s (s.rstCmd path w)) :=
  congrArg (ran s) (if_pos hk)

/-! ### A wide reset -/

/-- A map without the keys that p keeps out has no such key. -/
theorem mapGet_filter_out {α : Type} (m : SMap α) {p : Nat → Bool} {k : Nat} (h : p k = false) :
    mapGet (m.filter (fun x => p x.1)) k = none := by
  induction m with
  | nil => rfl
  | cons x r ih =>
    obtain ⟨a, b⟩ := x
    rw [List.filter_cons]
    split
    next ha =>
      have hne : a ≠ k := fun e => Bool.false_ne_true (h.symm.trans (e ▸ ha))
      simp only [mapGet, if_neg hne]
      exact ih
    next => exact ih

/-- The registers that a wide reset reaches read their reset values (R550). -/
theorem reg_wideClear (s : State) {k : Nat} (h : keptWide k = false) : s.wideClear.reg k = regReset k := by
  have hnone : mapGet s.wideClear.regs k = none := mapGet_filter_out s.coreClear.regs h
  rw [State.reg, hnone]
  rfl

/-- What a wide source's assertion leaves, the source's own time noted in the reset controller or not. -/
theorem wideResetDone_of_wideStart (s : State) (cause : Nat) {f : Rst → Rst} (hphase : ∀ r, (f r).phase = r.phase)
    (hstep : ∀ r, (f r).step = r.step) (hready : ∀ r, (f r).ready = r.ready) (hwide : ∀ r, (f r).wide = r.wide) :
    wideResetDone s (kept s (((s.bkCount cause).wideStart).modRst f)) :=
  ⟨hphase _, hstep _, hready _, hwide _, rfl, rfl, rfl, rfl, fun _ => reg_wideClear (s.bkCount cause), rfl, rfl, rfl,
    rfl, rfl, rfl, rfl⟩

/-- YF_RSTIN# asserted with the rail up is a wide reset of cause 2 (R539). -/
theorem exec_yfRstinAssert_falls (hs : s.rst.standby = true) (hp : s.rst.coldPin = false) :
    exec .yfRstinAssert s = .next (kept s (((s.bkCount 2).wideStart).modRst (fun r => { r with coldPin := true }))) :=
  congrArg (ran s) ((if_neg (ne_true_of_eq_false hp)).trans (if_neg (by simp [hs])))

/-! ### The supplies -/

/-- The clock that a power-on waits for is there (R538). -/
theorem clockGood_iff (h : Hall) : (!h.refLost || h.refReturn) = true ↔ h.refLost = false ∨ h.refReturn = true := by
  rw [Bool.or_eq_true, Bool.not_eq_true']

/-- The rail that rises from down, with the backup domain there, counts its cause and starts the power-on source (R538,
R570). -/
theorem exec_powerOn_rises (hs : s.rst.standby = false) (hp : s.rst.coldPin = false) (hb : s.bk.gone = false) :
    exec .powerOn s = .next (kept s ((s.bkCount 1).modRst (fun r => { r with
      standby := true
      porUntil := if s.hall.refLost = false ∨ s.hall.refReturn = true then some (s.now + 10240) else none
      assertAt := s.now
      outLow := some (s.now + us 64) }))) := by
  have hp' : (s.bkCount 1).rst.coldPin = false := hp
  change execPowerOn s = _
  simp only [execPowerOn, hs, hb, hp', Bool.false_eq_true, if_false, clockGood_iff, ran_eq]

theorem exec_standbyRailFall_up (hs : s.rst.standby = true) :
    exec .standbyRailFall s = .next (kept s s.railFall) :=
  congrArg (ran s) (if_pos hs)

theorem exec_vbakLoss_off (hs : s.rst.standby = false) :
    exec .vbakLoss s = .next (kept s (s.modBk (fun b => { b with gone := true, valid := false }))) :=
  congrArg (ran s) (if_neg (ne_true_of_eq_false hs))

theorem exec_vbakLoss_on (hs : s.rst.standby = true) : exec .vbakLoss s = .next s :=
  congrArg (ran s) (if_pos hs)

end

/-- Settles O4: each source by what it does to the backup domain and the reset controller; the wide reset itself is the
same for all of them. -/
theorem coldSources : Obligations.ColdSources := by
  unfold Obligations.ColdSources
  refine ⟨?pin, fun _ => rfl, ?lane, ?bar, fun _ hs hp hb => exec_powerOn_rises hs hp hb, ?fall,
    fun _ => exec_vbakLoss_off, fun _ => exec_vbakLoss_on⟩
  case pin =>
    intro s hs hp
    exact ⟨_, exec_yfRstinAssert_falls hs hp, wideResetDone_of_wideStart s 2 (fun _ => rfl) (fun _ => rfl)
      (fun _ => rfl) (fun _ => rfl), rfl, rfl⟩
  case lane =>
    intro s w hk hkey hd ht
    have hok : s.rstCmdOk .lane w = some true := by rw [rstCmdOk_lane (by omega) (by omega) hkey, ht]
    have he := exec_cold (s := s) (path := .lane) hk
    rw [rstCmd_cold hd hok hk] at he
    exact ⟨_, he, wideResetDone_of_wideStart s 3 (fun _ => rfl) (fun _ => rfl) (fun _ => rfl) (fun _ => rfl), rfl, rfl⟩
  case bar =>
    intro s w hk hkey hd
    have hok : s.rstCmdOk .bar w = some false := by rw [rstCmdOk_bar (by omega) (by omega) hkey, hk]; rfl
    rw [exec_cold hk, rstCmd_refused hd hok, hk]
    rfl
  case fall =>
    intro s hs
    exact ⟨_, exec_standbyRailFall_up hs, rfl, rfl, rfl, rfl, rfl, rfl, rfl, rfl, rfl, rfl, rfl, rfl, rfl, rfl, rfl⟩

end Sys2Proof.Proofs
end

section
/-! SUPPORT. Warm resets from RUN: the command, the watchdog's second stage and a lost host link (R500, R540, R541,
R549, R550, R612; O5). -/
namespace Sys2Proof.Proofs

open Sys2Proof Sys2Proof.Machine Sys2Proof.Safety Sys2Proof.Laws

/-! ### A warm source asserted in RUN -/

/-- The parts that `Held` compares are the same whatever the directory. -/
theorem Held_dir {b s : State} (d : Dir) (h : Held b s) : Held b { s with dir := d } := h

/-- A reset cause that is neither power-on nor UNIT is noted with the landing and counted (R569). -/
theorem counted_bkCount (s : State) {cause : Nat} (h1 : cause ≠ 1) (h8 : cause ≠ 8) :
    counted s (s.bkCount cause) cause := by
  simp only [counted, State.bkCount, State.modBk, if_neg h1, if_neg h8]

/-- Every packet that has no record has ended, and the directory's mirror is left with free entries (R158, R549). -/
def aborted (s : State) (cause : Nat) : State :=
  State.mirror ((s.bkCount cause).abortRecords cause)
    { (s.bkCount cause).abortRecords cause with dir := ⟨[], [], []⟩ }

/-- The reset controller as the abort phase of a warm reset begins (R541). -/
def abortBegun (s : State) (r : Rst) : Rst :=
  { r with
    phase := .abort
    ready := 1
    warm := some (s.now + us 64)
    abortEnd := some (s.now + us 50)
    assertAt := s.now
    gapFrom := none
    wide := false
    outLow := if !s.rst.large && (s.reg Reg.HR_RST_CTL).bit 1 then some (s.now + us 64) else none }

/-- In RUN a warm source aborts and clears the core at once, and the abort phase begins (R541). -/
theorem warmStart_run {s : State} {cause : Nat} (h : s.rst.phase = .run) :
    s.warmStart cause = (aborted s cause).coreClear.modRst (abortBegun s) := by
  have h' : (s.bkCount cause).rst.phase = .run := h
  simp only [State.warmStart, h', State.warmClear, aborted]
  rfl

/-- The end of the packets leaves hall time and the backup domain alone, but for the cause that is counted. -/
theorem aborted_keeps {s : State} (cause : Nat) (hs : Sane s) :
    (aborted s cause).hall = s.hall ∧ (aborted s cause).bk = (s.bkCount cause).bk := by
  have hended : Held (s.bkCount cause) ((s.bkCount cause).abortRecords cause) :=
    keep_State_abortRecords (Held.self (keep_State_bkCount hs))
  obtain ⟨_, _, _, _, hhall, _, _, hbk, _⟩ := keep_State_mirror (old := (s.bkCount cause).abortRecords cause)
    (Held_dir ⟨[], [], []⟩ hended)
  exact ⟨hhall, hbk⟩

/-- What the clearing of the core makes of a state whose hall time and backup domain are known. -/
theorem warmResetDone_coreClear {s u v : State} {cause : Nat} (now : Nat) (hhall : v.hall = s.hall)
    (hbk : counted s v cause) :
    warmResetDone s { v.coreClear.modRst (abortBegun u) with pending := s.pending, now := now } u.now cause :=
  ⟨rfl, rfl, rfl, rfl, rfl, hbk, hhall, rfl, rfl, rfl, rfl, rfl, rfl, rfl, rfl, rfl, rfl⟩

/-- What a warm source that asserts in RUN leaves: `u` is the state then, `s` the one that the command found. -/
theorem warmResetDone_of_warmStart {s u : State} {cause : Nat} (now : Nat) (hu : Sane u) (hrun : u.rst.phase = .run)
    (hhall : u.hall = s.hall) (hbk : u.bk = s.bk) (h1 : cause ≠ 1) (h8 : cause ≠ 8) :
    warmResetDone s { u.warmStart cause with pending := s.pending, now := now } u.now cause := by
  obtain ⟨hh, hb⟩ := aborted_keeps cause hu
  rw [counted_bkCount u h1 h8, hbk, hhall] at hb
  rw [warmStart_run hrun]
  exact warmResetDone_coreClear now (hh.trans hhall) hb

/-! ### The sources -/

section
variable {s : State}

theorem exec_warm {path : Path} {w : Word} (hk : w.bits 1 0 = 1) :
    exec (.warm path w) s = .next (kept s (s.rstCmd path w)) :=
  congrArg (ran s) (if_pos hk)

/-- The terms on which WARM with its key is taken (R540). -/
theorem rstCmdOk_warm {path : Path} {w : Word} (hk : w.bits 1 0 = 1) (hkey : w.bits 31 16 = 0xA5C3)
    (hp : path = .bar ∨ s.laneTerms = true) : s.rstCmdOk path w = some true := by
  cases path with
  | bar => rw [rstCmdOk_bar (by omega) (by omega) hkey, hk]; rfl
  | lane => rw [rstCmdOk_lane (by omega) (by omega) hkey, hp.resolve_left Path.noConfusion]

/-- WARM without its key, or over the lane while lane resets are not allowed. -/
theorem rstCmdOk_warm_refused {path : Path} {w : Word} (hk : w.bits 1 0 = 1)
    (h : w.bits 31 16 ≠ 0xA5C3 ∨ (path = .lane ∧ s.laneTerms = false)) : s.rstCmdOk path w = some false := by
  by_cases hkey : w.bits 31 16 = 0xA5C3
  · obtain ⟨rfl, hterms⟩ := h.resolve_left (not_not_intro hkey)
    rw [rstCmdOk_lane (by omega) (by omega) hkey, hterms]
  · exact rstCmdOk_badKey (by omega) (by omega) hkey

/-- In RUN no domain is held. -/
theorem domHeld_of_run (h : s.rst.phase = .run) (step : Nat) : s.domHeld step = false := by
  simp only [State.domHeld, h, bne_self_eq_false, Bool.false_and]

/-- The state at the end of the watchdog's period. -/
def wdogDue (s : State) : State := s.due (s.boot.wdogStart + ms (s.boot.wdogCtl.bits 15 0))

theorem wdogDue_now (s : State) :
    (wdogDue s).now = max s.now (s.boot.wdogStart + 1000000 * s.boot.wdogCtl.bits 15 0) :=
  congrArg (fun n => max s.now (s.boot.wdogStart + n)) (Nat.mul_comm _ _)

/-- In RUN, with the count on and the watchdog enabled, WDOG_EXPIRY acts. -/
theorem wdogActs (hb : s.boot.running = true) (hen : s.boot.wdogCtl.bit 16 = true) (hrun : s.rst.phase = .run) :
    ¬ (!s.boot.running || !s.boot.wdogCtl.bit 16 || s.inReset) = true := by
  simp [hb, hen, inReset_of_run hrun]

/-- The second stage makes a record and a warm reset (R612). -/
theorem exec_wdogExpiry_second (hb : s.boot.running = true) (hen : s.boot.wdogCtl.bit 16 = true)
    (hrun : s.rst.phase = .run) (hstage : s.boot.wdogStage ≠ 0) :
    exec .wdogExpiry s = .next (keptAt s (((wdogDue s).raise { code := 0x91 }).warmStart 5)) :=
  congrArg (came s) ((if_neg (wdogActs hb hen hrun)).trans (if_neg hstage))

/-- HOST_LOSS_RESET comes 100 ms after the link went down (R500). -/
theorem exec_hostLossReset_due (hrun : s.rst.phase = .run) (hx : s.xlt.host = .detached) (hf : s.xlt.fresh = false)
    (hm : s.xlt.mode = false) :
    exec .hostLossReset s = .next (keptAt s ((s.due (s.xlt.downSince + 100000000)).warmStart 7)) :=
  congrArg (came s) (if_neg (by simp [inReset_of_run hrun, hx, hf, hm]))

end

/-- Settles O5: each source comes to `State.warmStart` in RUN, with its cause, at its time. -/
theorem warmSources : Obligations.WarmSources := by
  unfold Obligations.WarmSources
  refine ⟨?command, ?watchdog, ?hostLoss, ?refused⟩
  case command =>
    intro s path w hs hk hkey hrun hp
    have he := exec_warm (s := s) (path := path) hk
    rw [rstCmd_warm (domHeld_of_run hrun 1) (rstCmdOk_warm hk hkey hp) hk] at he
    exact ⟨_, he, warmResetDone_of_warmStart _ hs hrun rfl rfl (by decide) (by decide)⟩
  case watchdog =>
    intro s hs hb hen hrun hstage
    have hsane : Sane ((wdogDue s).raise { code := 0x91 }) := Sane_by keep_State_raise (Sane_by keep_State_due hs)
    refine ⟨_, exec_wdogExpiry_second hb hen hrun hstage, ?_⟩
    rw [← wdogDue_now, ← raise_now (wdogDue s) { code := 0x91 }]
    exact warmResetDone_of_warmStart _ hsane ((congrArg Rst.phase (raise_rst _ _)).trans hrun)
      (raise_proj State.hall (fun _ _ _ _ => rfl) _ _) (raise_proj State.bk (fun _ _ _ _ => rfl) _ _) (by decide)
      (by decide)
  case hostLoss =>
    intro s hs hrun hx hf hm
    have hsane : Sane (s.due (s.xlt.downSince + 100000000)) := Sane_by keep_State_due hs
    exact ⟨_, exec_hostLossReset_due hrun hx hf hm,
      warmResetDone_of_warmStart _ hsane hrun rfl rfl (by decide) (by decide)⟩
  case refused =>
    intro s path w hk hd h
    rw [exec_warm hk, rstCmd_refused hd (rstCmdOk_warm_refused hk h), hk]
    rfl

end Sys2Proof.Proofs
end

section
/-! SUPPORT. The end of the abort phase and of a hold, and the release sequence (R282, R335, R541, R543, R552 to R555;
O6). -/
namespace Sys2Proof.Proofs

open Sys2Proof Sys2Proof.Machine Sys2Proof.Safety Sys2Proof.Laws

section
variable {s : State}

/-! ### The ends of the abort phase and of a hold (R541) -/

theorem exec_abortPhaseEnd_abort (h : s.rst.phase = .abort) :
    exec .abortPhaseEnd s = .next (kept s (s.modRst (fun r => { r with
      phase := .held, step := 1, abortEnd := none, warm := if r.large then some (s.now + 160) else r.warm }))) :=
  congrArg (ran s) (if_neg (by simp [h]))

/-- The commanded cold source ends its hold, no later than a warm one. -/
theorem exec_resetHoldEnd_cold {c : Nat} (hp : s.rst.phase ≠ .abort) (hc : s.rst.coldCmd = some c)
    (hw : ∀ w, s.rst.warm = some w → c ≤ w) :
    exec .resetHoldEnd s = .next ((s.due c).modRst (fun r => { r with coldCmd := none })) := by
  have hphase : (s.rst.phase == .abort) = false := beq_false_of_ne hp
  change execResetHoldEnd s = _
  rw [← keptAt_eq_self (s := s) (u := (s.due c).modRst _) (Nat.le_max_left _ _) rfl, ← came_eq]
  cases hwarm : s.rst.warm with
  | none => simp only [execResetHoldEnd, hphase, hc, hwarm, Bool.false_eq_true, if_false]
  | some w => simp only [execResetHoldEnd, hphase, hc, hwarm, if_pos (hw w hwarm), Bool.false_eq_true, if_false]

/-- The warm source ends its hold, before the commanded cold one. -/
theorem exec_resetHoldEnd_warm {w : Nat} (hp : s.rst.phase ≠ .abort) (hw : s.rst.warm = some w)
    (hc : ∀ c, s.rst.coldCmd = some c → w < c) :
    exec .resetHoldEnd s = .next ((s.due w).modRst (fun r => { r with warm := none })) := by
  have hphase : (s.rst.phase == .abort) = false := beq_false_of_ne hp
  change execResetHoldEnd s = _
  rw [← keptAt_eq_self (s := s) (u := (s.due w).modRst _) (Nat.le_max_left _ _) rfl, ← came_eq]
  cases hcold : s.rst.coldCmd with
  | none => simp only [execResetHoldEnd, hphase, hw, hcold, Bool.false_eq_true, if_false]
  | some c =>
    simp only [execResetHoldEnd, hphase, hw, hcold, if_neg (Nat.not_le.2 (hc c hcold)), Bool.false_eq_true, if_false]

/-! ### A step of the release (R543, R552) -/

/-- The state with the next step of the release taken. -/
def stepTaken (s : State) : State :=
  (s.due s.stepDue).modRst (fun r => { r with
    phase := .releasing, step := s.rst.step + 1, stepAt := max s.now s.stepDue, por := false, porUntil := none })

/-- The state in which every slot's quarantine and the refusals last twice the kites' life (R282, R335). -/
def quarantined (s : State) : State :=
  s.modKite (fun k => { k with
    quarWait := false, nackWait := false
    quarAll := some (s.now + 2 * s.lifeNs), nackUntil := some (s.now + 2 * s.lifeNs) })

/-- RELEASE_STEP with the last domain ready and no source that reaches the next. -/
theorem exec_releaseStep_free (hp : s.rst.phase = .held ∨ s.rst.phase = .releasing) (hr : s.rst.step = s.rst.ready)
    (h6 : s.rst.step < 6) (hh : s.stepHeld (s.rst.step + 1) = false) :
    exec .releaseStep s = .next (keptAt s
      (if (s.rst.step + 1 = 6 && s.kite.quarWait) = true then quarantined (stepTaken s) else stepTaken s)) := by
  have hphase : (s.rst.phase != .held && s.rst.phase != .releasing) = false := by
    rcases hp with hp | hp <;> simp [hp]
  refine congrArg (came s) (if_neg ?_)
  simp only [hphase, hr, bne_self_eq_false, hr ▸ hh, Bool.or_false, Bool.false_or, decide_eq_true_eq]
  omega

/-! ### A domain that becomes ready (R554) -/

/-- The work of the step whose domain is ready; step 4 has none. -/
def domainWork (strap : Nat) (temps : List Int) (u : State) : Nat → State
  | 1 => u.step1Ready strap
  | 2 => u.step2Ready temps
  | 3 => u.walkDone
  | 5 => u.step5Ready
  | 6 => u.step6Ready
  | _ => u

theorem domainWork_one (strap : Nat) (temps : List Int) (u : State) :
    domainWork strap temps u 1 = u.step1Ready strap := rfl

theorem domainWork_six (strap : Nat) (temps : List Int) (u : State) : domainWork strap temps u 6 = u.step6Ready := rfl

/-- DOMAIN_READY for a step whose domain is not ready yet. -/
theorem exec_domainReady_next (strap : Nat) (temps : List Int) (hp : s.rst.phase = .releasing)
    (hr : s.rst.step = s.rst.ready + 1) :
    exec (.domainReady strap temps) s =
      .next (keptAt s (domainWork strap temps (domainUp s strap) s.rst.step)) := by
  have hcond : ¬ (s.rst.phase != .releasing || s.rst.step != s.rst.ready + 1) = true := by simp [hp, hr]
  refine congrArg (came s) ((if_neg hcond).trans ?_)
  -- step 1 alone has its own time, by the style of the strap that it measures (log 64)
  by_cases h1 : s.rst.step = 1
  · simp only [domainUp, if_pos h1]
    rfl
  · simp only [domainUp, if_neg h1]
    rfl

end

/-! ### What the work of steps 1 and 6 leaves -/

/-- A projection that no step of a fold changes is as it was before. -/
theorem foldl_proj {α β : Type} (f : State → β) {g : State → α → State} (hg : ∀ s x, f (g s x) = f s) (l : List α)
    (s : State) : f (l.foldl g s) = f s := by
  induction l generalizing s with
  | nil => rfl
  | cons x r ih => exact (ih (g s x)).trans (hg s x)

/-- A write that was cut short changes the store, with a record, and leaves the reset controller alone (R574). -/
theorem resolveTorn_rst (s : State) : s.resolveTorn.rst = s.rst := by
  unfold State.resolveTorn
  split
  next => rfl
  next => exact raise_rst _ _

/-- The settings registers hold the values of their words, and the profile is in force (R24, R578). -/
def settingsLoaded (s : State) : State :=
  let u := (upto 0 6).foldl (fun (s : State) w => match psRegOf w with
    | some off => s.setReg off (s.psValue w)
    | none => s) s
  { u with active := u.rbits Reg.ENG_PROFILE 1 0 }

theorem settingsLoaded_rst (s : State) : (settingsLoaded s).rst = s.rst := by
  refine foldl_proj State.rst (fun s w => ?_) (upto 0 6) s
  cases psRegOf w <;> rfl

/-- A backup domain that was lost starts anew, with a record (R570). -/
def backupChecked (s : State) : State :=
  if s.bk.gone then
    ((s.modBk (fun _ => ⟨true, true, false, s.err.therm, 0, 0, List.replicate 8 0, false⟩)).bkCount 1).raise
      { code := 0x82 }
  else s

theorem backupChecked_rst (s : State) : (backupChecked s).rst = s.rst := ite_proj State.rst (raise_rst _ _) rfl

/-- The strap is measured, and hall time starts anew. -/
def strapMeasured (s : State) (strap : Nat) : State :=
  { s with
    rst := { s.rst with strap := strap % 256, large := (strapBits (strap % 256)).testBit 0 }
    hall := { Hall.reset with landingAt := s.now, refLost := s.hall.refLost } }

/-- The rest of step 1's work: the drain state, the source of boot and the galleries (R563, R594, R598). -/
def step1Finished (s : State) (strap : Nat) : State :=
  (((s.modErr (fun e => { e with
    drain := if s.replace then .requested else .none
    drainCause := if s.replace then 7 else 0
    hourStart := s.now })).modBoot (fun b => { b with
      fromLane := (strapBits (strap % 256)).testBit 3 })).galsAtStart).noteCap

theorem step1Finished_rst (s : State) (strap : Nat) : (step1Finished s strap).rst = s.rst := by
  simp only [step1Finished, State.noteCap, State.galsAtStart, State.modBoot, State.modErr_rst]

theorem step1Finished_fromLane (s : State) (strap : Nat) :
    (step1Finished s strap).boot.fromLane = (strapBits (strap % 256)).testBit 3 := rfl

/-- The work of step 1, one part after another. -/
theorem step1Ready_eq (s : State) (strap : Nat) :
    s.step1Ready strap =
      step1Finished (backupChecked (settingsLoaded (strapMeasured s strap).resolveTorn)) strap := rfl

/-- Step 1 leaves the reset controller with the strap as measured and its style (R553, R563). -/
theorem step1Ready_rst (s : State) (strap : Nat) :
    (s.step1Ready strap).rst = { s.rst with strap := strap % 256, large := (strapBits (strap % 256)).testBit 0 } := by
  rw [step1Ready_eq, step1Finished_rst, backupChecked_rst, settingsLoaded_rst, resolveTorn_rst]
  rfl

/-- An engine that was DRAINING is DRAINED, with a record (R598). -/
def drainEnded (s : State) : State :=
  if s.err.drain == .draining then
    (s.modErr (fun e => { e with drain := .drained })).raise { code := 0x00, d0 := s.err.drainCause }
  else s

theorem drainEnded_rst (s : State) : (drainEnded s).rst = s.rst := ite_proj State.rst (raise_rst _ _) rfl

theorem drainEnded_sane {s : State} (hs : Sane s) : Sane (drainEnded s) := Sane_ite (Sane_by keep_State_raise hs) hs

/-- The pins are configured once after a power-on or cold reset (R555), and the phase is RUN (R559). -/
def runEntered (s : State) : State :=
  (if s.rst.pincfg then s else s.pinConfig).modRst (fun r => { r with
    phase := .run, outLow := r.outLow.filter (fun t => decide ((if s.rst.pincfg then s else s.pinConfig).now < t)) })

theorem runEntered_sane {s : State} (hs : Sane s) : Sane (runEntered s) :=
  keep_State_modRst (Sane_ite hs (keep_State_pinConfig hs))

/-- The work of step 6, one part after another. -/
theorem step6Ready_eq (s : State) : s.step6Ready = (drainEnded (runEntered s)).openFlight.wake := rfl

/-- Step 6 enters RUN. -/
theorem step6Ready_run {s : State} (hs : Sane s) : s.step6Ready.rst.phase = .run := by
  have hsane : Sane (drainEnded (runEntered s)) := drainEnded_sane (runEntered_sane hs)
  obtain ⟨_, _, _, _, _, hrst, _⟩ := keep_State_wake (keep_State_openFlight (Held.self hsane))
  rw [step6Ready_eq, hrst, drainEnded_rst]
  rfl

/-- Settles O6: each command by the phase and the sources that stand; DOMAIN_READY by the step taken last. -/
theorem releaseSequence : Obligations.ReleaseSequence := by
  unfold Obligations.ReleaseSequence
  refine ⟨fun _ => exec_abortPhaseEnd_abort, fun _ _ => exec_resetHoldEnd_cold, fun _ _ => exec_resetHoldEnd_warm,
    ?step, ?lastStep, ?ready, ?measured, ?run⟩
  case step =>
    intro s hp hr h6 hh hq
    have hstay : ¬ (s.rst.step + 1 = 6 && s.kite.quarWait) = true := by
      rcases hq with hq | hq
      · simp; omega
      · simp [hq]
    rw [exec_releaseStep_free hp hr h6 hh, if_neg hstay, keptAt_eq_self (u := stepTaken s) (Nat.le_max_left _ _) rfl]
    rfl
  case lastStep =>
    intro s hp h5 hr hh hq
    rw [exec_releaseStep_free hp (h5.trans hr.symm) (by omega) (h5 ▸ hh), if_pos (by simp [h5, hq]),
      keptAt_eq_self (u := quarantined (stepTaken s)) (Nat.le_max_left _ _) rfl, stepTaken, h5]
    rfl
  case ready =>
    intro s strap temps hp hr
    have he := exec_domainReady_next strap temps hp hr
    refine ⟨_, rfl, rfl, ?_, ?_, ?_, ?_, ?_, ?_⟩
    all_goals
      intro hn
      rw [hn] at he
      exact he
  case measured =>
    intro s strap temps hp h1 hr
    have he := exec_domainReady_next strap temps hp (by omega)
    rw [h1, domainWork_one] at he
    have hrst := step1Ready_rst (domainUp s strap) strap
    refine ⟨_, he, ?_⟩
    rw [keptAt_rst, keptAt_boot, hrst, step1Ready_eq, step1Finished_fromLane]
    exact ⟨rfl, rfl, rfl⟩
  case run =>
    intro s strap temps hs hp h6 hr
    have he := exec_domainReady_next strap temps hp (by omega)
    rw [h6, domainWork_six] at he
    refine ⟨_, he, ?_⟩
    rw [keptAt_rst]
    exact step6Ready_run (s := domainUp s strap) hs

end Sys2Proof.Proofs
end

section
/-! SUPPORT. Boot from the store and over the lane, and the firmware watchdog (R564, R565, R612, R613, log 6, log 47;
O7). -/
namespace Sys2Proof.Proofs

open Sys2Proof Sys2Proof.Machine Sys2Proof.Safety Sys2Proof.Laws

section
variable {s : State}

/-! ### Boot (R564, R565) -/

/-- In the state that a command of boot is for, and with the domain out of reset, the command acts. -/
theorem bootActs {n : Nat} (hst : s.boot.state = n) (hd : s.domHeld 4 = false) :
    ¬ (s.boot.state != n || s.domHeld 4) = true := by
  simp [hst, hd]

/-- Where the strap says so, boot waits for an image over the lane. -/
theorem exec_boot_lane (hst : s.boot.state = 0) (hd : s.domHeld 4 = false) (hl : s.boot.fromLane = true) :
    exec .boot s =
      .next (kept s (s.modBoot (fun b => { b with state := 2, image := [], lastReq := none }))) :=
  congrArg (ran s) ((if_neg (bootActs hst hd)).trans (if_pos hl))

theorem exec_boot_store (hst : s.boot.state = 0) (hd : s.domHeld 4 = false) (hl : s.boot.fromLane = false) :
    exec .boot s = .next (kept s s.bootStore) :=
  congrArg (ran s) ((if_neg (bootActs hst hd)).trans (if_neg (ne_true_of_eq_false hl)))

/-- The image of a slot of the store starts. -/
theorem fwStart_slot (s : State) (slot : Nat) : s.fwStart slot (s.psStored (slotCtl slot + 2)) = started s slot := rfl

/-- Boot from the store: the active slot, else the other one, else a stop with a record (R565). -/
theorem bootStore_eq (s : State) {k : Nat} (hk : k = (s.psStored 576).toNat % 2) :
    s.bootStore =
      if s.slotOk k then started s k
      else if s.slotOk (1 - k) then started s (1 - k)
      else (s.modBoot (fun b => { b with state := 4 })).raise { code := 0x92, d0 := 1 - k } := by
  subst hk
  simp only [State.bootStore, fwStart_slot]

/-! ### An image over the lane -/

/-- The first request for an image goes out at once. -/
theorem exec_bootRequest_first (hst : s.boot.state = 2) (hd : s.domHeld 4 = false) (hl : s.boot.lastReq = none) :
    exec .bootRequest s =
      .next ((s.emit (.lane 7 0 0 [])).modBoot (fun b => { b with lastReq := some s.now })) := by
  change execBootRequest s = _
  rw [← keptAt_eq_self (s := s) (u := (s.emit (.lane 7 0 0 [])).modBoot _) (Nat.le_refl _) rfl, ← came_eq]
  simp only [execBootRequest, if_neg (bootActs hst hd), hl]

/-- The next request goes out a second after the last. -/
theorem exec_bootRequest_next {t : Nat} (hst : s.boot.state = 2) (hd : s.domHeld 4 = false)
    (hl : s.boot.lastReq = some t) :
    exec .bootRequest s = .next (((s.due (t + 1000000000)).emit (.lane 7 0 0 [])).modBoot
      (fun b => { b with lastReq := some (max s.now (t + 1000000000)) })) := by
  change execBootRequest s = _
  rw [← keptAt_eq_self (s := s) (u := ((s.due (t + 1000000000)).emit (.lane 7 0 0 [])).modBoot _)
    (Nat.le_max_left _ _) rfl, ← came_eq]
  simp only [execBootRequest, if_neg (bootActs hst hd), hl]
  rfl

/-- What BOOT_IMAGE makes of the image received so far. -/
def imageTaken (s : State) : State :=
  match s.boot.received with
  | some img => if Config.imageOk img then s.fwStart s.boot.slot (Config.imageVersion img) else s
  | none => s

/-- BOOT_IMAGE keeps the bytes it brings, and an image received whole starts where its check holds. -/
theorem exec_bootImage_part {off : Nat} {data : List Byte} (hst : s.boot.state = 2) (hd : s.domHeld 4 = false)
    (hlen : off + data.length ≤ 24576) :
    exec (.bootImage off data) s = .next (kept s (imageTaken { s with boot := imagePut s.boot off data })) := by
  have hacts : ¬ (s.boot.state != 2 || s.domHeld 4 || decide (off + data.length > 24576)) = true := by
    simp [hst, hd, hlen]
  exact congrArg (ran s) (if_neg hacts)

theorem imageTaken_part (h : s.boot.received = none) : imageTaken s = s := by rw [imageTaken, h]

theorem imageTaken_whole {img : List Byte} (h : s.boot.received = some img) :
    imageTaken s = if Config.imageOk img then s.fwStart s.boot.slot (Config.imageVersion img) else s := by
  rw [imageTaken, h]

/-! ### The watchdog (R612, R613) -/

theorem exec_errWdogKick_enabled (hf : s.fwRuns = true) (hen : s.boot.wdogCtl.bit 16 = true) :
    exec .errWdogKick s =
      .next (kept s (s.modBoot (fun b => { b with wdogStage := 0, wdogStart := s.now }))) :=
  congrArg (ran s) (if_neg (by simp [hf, hen]))

section
variable {w : Word}

/-- Firmware's one write of the watchdog's control after a start. -/
theorem exec_errWdogCtlWrite_first (hf : s.fwRuns = true) (hw : s.boot.wdogWritten = false)
    (hst : s.boot.wdogStage = 0) (hlen : 10 ≤ w.bits 15 0) :
    exec (.errWdogCtlWrite w) s = .next (kept s (s.modBoot (fun b =>
      { b with wdogCtl := Word.ofNat (w.bits 16 0), wdogWritten := true, wdogStart := s.now }))) :=
  congrArg (ran s) (if_neg (by simp [hf, hw, hst, hlen]))

/-- A second write, one at stage 1, and one of a period below 10 ms are discarded. -/
theorem exec_errWdogCtlWrite_discarded
    (h : s.boot.wdogWritten = true ∨ s.boot.wdogStage ≠ 0 ∨ w.bits 15 0 < 10) :
    exec (.errWdogCtlWrite w) s = .next s := by
  refine congrArg (ran s) (if_pos ?_)
  rcases h with h | h | h <;> simp [h]

end

/-- The first stage stops the image (R612). -/
theorem exec_wdogExpiry_first (hb : s.boot.running = true) (hen : s.boot.wdogCtl.bit 16 = true)
    (hrun : s.rst.phase = .run) (hstage : s.boot.wdogStage = 0) :
    exec .wdogExpiry s = .next (keptAt s (wdogDue s).fwRestart) :=
  congrArg (came s) ((if_neg (wdogActs hb hen hrun)).trans (if_pos hstage))

end

/-- The first stage of the watchdog stops the image, so that boot starts anew at stage 1 with the control at its reset
value (R612, R613). -/
theorem fwRestart_boot (s : State) :
    ∃ u : State, s.fwRestart = u.wake ∧ u.boot.state = 0 ∧ u.boot.wdogStage = 1 ∧ u.boot.wdogCtl = 0x000101F4 ∧
      u.boot.wdogWritten = false ∧ u.boot.staged = none := by
  unfold State.fwRestart
  refine ⟨_, rfl, ?_⟩
  rw [raise_boot]
  exact ⟨rfl, rfl, rfl, rfl, rfl⟩

/-- Settles O7: boot by the strap and the slots whose checks hold, a request by the last one, an image by what of it has
come, and the watchdog by its control and its stage. -/
theorem bootAndWatchdog : Obligations.BootAndWatchdog := by
  unfold Obligations.BootAndWatchdog
  refine ⟨fun _ => exec_boot_lane, ?store, fun _ => exec_bootRequest_first, fun _ _ => exec_bootRequest_next, ?part,
    ?whole, fun _ => exec_errWdogKick_enabled, fun _ _ => exec_errWdogCtlWrite_first,
    fun _ _ => exec_errWdogCtlWrite_discarded, ?expiry⟩
  case store =>
    intro s k hst hd hl hk
    rw [exec_boot_store hst hd hl, bootStore_eq s hk]
    split_ifs <;> rfl
  case part =>
    intro s off data hst hd hlen h
    rw [exec_bootImage_part hst hd hlen, imageTaken_part h]
    rfl
  case whole =>
    intro s off data img hst hd hlen h
    rw [exec_bootImage_part hst hd hlen, imageTaken_whole h]
    split_ifs <;> rfl
  case expiry =>
    intro s hb hen hrun hstage
    obtain ⟨u, hu, hboot⟩ := fwRestart_boot (wdogDue s)
    exact ⟨u, hu ▸ exec_wdogExpiry_first hb hen hrun hstage, hboot⟩

end Sys2Proof.Proofs
end

section
/-! SUPPORT. The control opcodes of units: SELFTEST, FENCE, UNIT_RESET and DRAIN (R546, R547, R593, R598, R602; O36). -/
namespace Sys2Proof.Proofs

open Sys2Proof Sys2Proof.Machine Sys2Proof.Safety Sys2Proof.Laws

section
variable {u : State} {p : MqPkt}

/-! ### SELFTEST -/

/-- A self-test of units none of which is a fenced gallery begins with the first of them (R602). -/
theorem mgSelftest_begins {gs ss cs : List Nat} (h : selfUnits p.words = .ok (gs, ss, cs))
    (hg : ∀ g ∈ gs, (u.gal g).fenced = false) : u.mgSelftest p = selfNext (newSelf u p gs ss cs) 64 := by
  have hfind : gs.find? (fun g => (u.gal g).fenced) = none :=
    List.find?_eq_none.2 fun g hm => ne_true_of_eq_false (hg g hm)
  simp only [State.mgSelftest, h, hfind, newSelf]

/-! ### FENCE (R593) -/

/-- Without a failing check FENCE goes by what the gallery is and how many others serve. -/
theorem mgFence_eq (hr : rsvBad p.words 2 31 21 = none) (hg : p.arg % 32 ≤ 17) : u.mgFence p =
    if (u.gal (p.arg % 32)).fenced then u.endMq p St.fenced (p.arg % 32) 0
    else if u.servingWithout (p.arg % 32) < 8 then u.endMq p St.badState u.servingCount 0
    else (u.fenceGal (p.arg % 32) 4 false).mgOk p 0 := by
  have hrange : chk (decide (p.arg % 32 > 17)) (badAt 10) = none := chk_eq_none (decide_eq_false (by omega))
  simp only [State.mgFence, hr, hrange, firstBad_cons_none, firstBad_nil]

/-! ### UNIT_RESET (R546, R547) -/

section
variable {n kind : Nat}

/-- UNIT_RESET by its act: 0 quiesces the unit, 1 resets it where nothing forbids that, 2 returns it. -/
def unitActed (u : State) (p : MqPkt) (n kind : Nat) : Nat → State
  | 0 => (if kind = 0 then (u.setQuiesced kind n true).spillGal n else u.setQuiesced kind n true).mgOk p 0
  | 1 =>
    if kind = 0 ∧ (u.gal n).fenced then u.endMq p St.fenced n 0
    else if !u.unitQuiesced kind n then u.endMq p St.badState 0 0
    else if !u.unitIdle kind n then u.endMq p St.badState 1 0
    else if kind = 2 ∧ u.rbits Reg.RC_PIN 3 0 ≠ 0 then u.endMq p St.badState 2 0
    else if kind = 0 ∧ !(u.gal n).enabled then u.endMq p St.badState 3 0
    else ((u.bkCount 8).resetUnit kind n).putOp p (.unitReset kind n (u.unitReady kind))
  | _ => (u.setQuiesced kind n false).mgOk p 0

/-- The checks of a UNIT_RESET's fields. -/
def unitBad (p : MqPkt) : Option Ending :=
  firstBad [chk (decide (p.arg % 64 ≥ unitsOf (p.arg / 64 % 4))) (badAt 10), chk (p.arg / 256 % 4 == 3) (badAt 11),
    rsvBad p.words 2 31 26]

/-- UNIT_RESET by its packet's first failing check. -/
theorem mgUnitReset_eq (u : State) (p : MqPkt) : u.mgUnitReset p =
    match unitBad p with
    | some e => u.mgEnd p e
    | none => unitActed u p (p.arg % 64) (p.arg / 64 % 4) (p.arg / 256 % 4) := rfl

/-- Without a failing check UNIT_RESET goes by its act. -/
theorem mgUnitReset_acts (hn : n = p.arg % 64) (hk : kind = p.arg / 64 % 4) (hsize : n < unitsOf kind)
    (hr : rsvBad p.words 2 31 26 = none) (hact : p.arg / 256 % 4 ≠ 3) :
    u.mgUnitReset p = unitActed u p n kind (p.arg / 256 % 4) := by
  subst hn hk
  have hunit : chk (decide (p.arg % 64 ≥ unitsOf (p.arg / 64 % 4))) (badAt 10) = none :=
    chk_eq_none (decide_eq_false (Nat.not_le.2 hsize))
  have hkind : chk (p.arg / 256 % 4 == 3) (badAt 11) = none := chk_eq_none (beq_false_of_ne hact)
  have hbad : unitBad p = none := by
    rw [unitBad, hunit, hkind, hr, firstBad_cons_none, firstBad_cons_none, firstBad_cons_none, firstBad_nil]
  rw [mgUnitReset_eq, hbad]

/-- A quiesced, idle unit that nothing forbids to be reset is. -/
theorem unitActed_resets (hq : u.unitQuiesced kind n = true) (hi : u.unitIdle kind n = true)
    (hgal : kind = 0 → (u.gal n).fenced = false ∧ (u.gal n).enabled = true)
    (hpin : kind = 2 → u.rbits Reg.RC_PIN 3 0 = 0) :
    unitActed u p n kind 1 =
      ((u.bkCount 8).resetUnit kind n).putOp p (.unitReset kind n (u.unitReady kind)) := by
  have hfenced : ¬ (kind = 0 ∧ (u.gal n).fenced = true) := fun h => Bool.false_ne_true ((hgal h.1).1.symm.trans h.2)
  have hpinned : ¬ (kind = 2 ∧ u.rbits Reg.RC_PIN 3 0 ≠ 0) := fun h => h.2 (hpin h.1)
  have hspare : ¬ (kind = 0 ∧ (!(u.gal n).enabled) = true) := fun h => by simp [(hgal h.1).2] at h
  simp only [unitActed, if_neg hfenced, if_neg hpinned, if_neg hspare, hq, hi, Bool.not_true, Bool.false_eq_true,
    if_false]

end

/-! ### DRAIN (R598) -/

theorem mgDrain_drained (h : u.err.drain = .drained) : u.mgDrain p = u.mgOk p 0 := if_pos (by rw [h]; rfl)

theorem mgDrain_enters (h : u.err.drain ≠ .drained) : u.mgDrain p = (u.enterDraining 1).putOp p .drain :=
  if_neg (by simpa using h)

end

/-- Settles O36: each opcode by its packet's checks and the state of the units that it names. -/
theorem controlUnits : Obligations.ControlUnits := by
  unfold Obligations.ControlUnits
  refine ⟨?selftest, ?fence, ?unitReset, ?drain⟩
  case selftest =>
    intro s p ns u gs ss cs ht hu hself hunits hgals
    rw [exec_selftest_run hself]
    exact turn_go ht hu _ (mgSelftest_begins hunits hgals)
  case fence =>
    intro s p ns u ht hu hr hg
    refine ⟨fun hf h8 => turn_go ht hu _ ?_, fun hf => turn_go ht hu _ ?_, fun hf h8 => turn_go ht hu _ ?_⟩
    · rw [mgFence_eq hr hg, if_neg (ne_true_of_eq_false hf), if_neg (Nat.not_lt.2 h8)]
      rfl
    · rw [mgFence_eq hr hg, if_pos hf]
    · rw [mgFence_eq hr hg, if_neg (ne_true_of_eq_false hf), if_pos h8]
  case unitReset =>
    intro s p ns kind n u ht hu hn hk hsize hr
    have heq := fun hact => mgUnitReset_acts (u := u) hn hk hsize hr hact
    refine ⟨fun hact => turn_go ht hu _ ?_, fun hact => turn_go ht hu _ ?_,
      fun hact hq hi hgal hpin => turn_go ht hu _ ?_⟩
    · rw [heq (by omega), hact]
      rfl
    · rw [heq (by omega), hact]
      rfl
    · rw [heq (by omega), hact, unitActed_resets hq hi hgal hpin]
  case drain =>
    exact fun s p ns u ht hu =>
      ⟨fun h => turn_go ht hu _ (mgDrain_drained h), fun h => turn_go ht hu _ (mgDrain_enters h)⟩

end Sys2Proof.Proofs
end

section
/-! SUPPORT. Error records: their words, the log, ERR_PEND and the suppression of class 1 (R583 to R585, R588; O46). -/
namespace Sys2Proof.Proofs

open Sys2Proof Sys2Proof.Machine Sys2Proof.Laws

/-- A suppression entry has the event's key: its CODE, UNIT_KIND and UNIT (R584). -/
def keyed (e : Ev) (x : Nat × Nat × Nat × Nat × Nat) : Bool := x.1 == e.code && x.2.1 == e.kind && x.2.2.1 == e.unit

/-- The state in which the event's key was last recorded at an instant, with a count suppressed since. -/
def suppNoted (s : State) (e : Ev) (at_ n : Nat) : State :=
  { s with err := { s.err with
    supp := s.err.supp.filter (fun x => !keyed e x) ++ [(e.code, e.kind, e.unit, at_, n)] } }

section
variable {s : State} {e : Ev} {at_ n : Nat}

/-- An event of a class other than 1 always raises a record. -/
theorem raise_of_class_ne_one (hc : e.code / 16 ≠ 1) : s.raise e = s.putRecord e 0 := if_neg hc

/-- An event of class 1 whose key has been recorded raises a record once 1 ms has passed (R584). -/
theorem raise_of_recorded (hc : e.code / 16 = 1)
    (hf : s.err.supp.find? (keyed e) = some (e.code, e.kind, e.unit, at_, n)) :
    s.raise e =
      if s.now < at_ + 1000000 then (suppNoted s e at_ (n + 1)).bump Reg.ERR_SUPPRESS_CNT 1
      else (suppNoted s e s.now 0).putRecord e n := by
  refine (if_pos hc).trans ?_
  split
  next t m hsome =>
    obtain ⟨-, -, -, rfl, rfl⟩ : _ = e.code ∧ _ = e.kind ∧ _ = e.unit ∧ t = at_ ∧ m = n := by
      simpa only [Option.some.injEq, Prod.mk.injEq] using hsome.symm.trans hf
    rfl
  next hnone => exact (Option.some_ne_none _ (hf.symm.trans hnone)).elim

theorem raise_of_suppressed (hc : e.code / 16 = 1)
    (hf : s.err.supp.find? (keyed e) = some (e.code, e.kind, e.unit, at_, n)) (ht : s.now < at_ + 1000000) :
    s.raise e = (suppNoted s e at_ (n + 1)).bump Reg.ERR_SUPPRESS_CNT 1 :=
  (raise_of_recorded hc hf).trans (if_pos ht)

theorem raise_of_lapsed (hc : e.code / 16 = 1)
    (hf : s.err.supp.find? (keyed e) = some (e.code, e.kind, e.unit, at_, n)) (ht : at_ + 1000000 ≤ s.now) :
    s.raise e = (suppNoted s e s.now 0).putRecord e n :=
  (raise_of_recorded hc hf).trans (if_neg (Nat.not_lt.2 ht))

end

/-- Settles O46: an event is a record put, but for one of class 1 whose key was recorded less than 1 ms ago, and
`put_err` and `put_pend` say what a record leaves. -/
theorem errorRecords : Obligations.ErrorRecords := by
  unfold Obligations.ErrorRecords
  refine ⟨fun _ _ _ => rfl, ?recorded, fun s e at_ n hc hf => ⟨raise_of_suppressed hc hf, fun ht => ?lapsed⟩⟩
  case recorded =>
    intro s e hc hlt
    rw [raise_of_class_ne_one hc]
    obtain ⟨hlog, hseq, hsupp⟩ := put_err s e 0
    exact ⟨hlog, hseq, hsupp, put_pend s e 0 hlt⟩
  case lapsed =>
    rw [raise_of_lapsed hc hf ht]
    obtain ⟨hlog, hseq, -⟩ := put_err (suppNoted s e s.now 0) e n
    exact ⟨hlog, hseq⟩

end Sys2Proof.Proofs
end

section
/-! SUPPORT. Fatal errors, drains, and the handrail's commands for drains and fences (R588, R593, R598, R600, R601,
R609; O9). -/
namespace Sys2Proof.Proofs

open Sys2Proof Sys2Proof.Machine Sys2Proof.Safety Sys2Proof.Laws

section
variable {s : State} {path : Path} {w : Word}

/-! ### Forced drains (R598, R601) -/

theorem isDraining_iff : s.isDraining = true ↔ s.err.drain = .draining ∨ s.err.drain = .drained := by
  simp only [State.isDraining, Bool.or_eq_true, beq_iff_eq]

/-- An engine that drains already is not drained again (log 55). -/
theorem forceDrain_of_draining (n : Nat) (h : s.err.drain = .draining ∨ s.err.drain = .drained) :
    s.forceDrain n = s := if_pos (isDraining_iff.2 h)

theorem exec_fatal_ready (n : Nat) (hd : s.domHeld 1 = false) :
    exec (.fatal n) s = .next (kept s (((s.raise { code := 0xB0, d0 := n }).forceDrain 4).wake)) :=
  congrArg (ran s) (if_neg (ne_true_of_eq_false hd))

/-! ### ERR_DRAIN_CMD (R600, R609) -/

/-- Out of reset a write of ERR_DRAIN_CMD goes by whether its path may make it, and then by its key. -/
theorem drainCmd_ready (hd : s.domHeld 1 = false) : s.drainCmd path w =
    if s.laneRefused path then s.cmdRefused else if w.bits 31 16 = 0xD3A1 then (s.forceDrain 2).wake else s :=
  if_neg (ne_true_of_eq_false hd)

theorem drainCmd_refused (hd : s.domHeld 1 = false) (hl : s.laneRefused path = true) :
    s.drainCmd path w = s.cmdRefused := (drainCmd_ready hd).trans (if_pos hl)

theorem drainCmd_keyed (hd : s.domHeld 1 = false) (hl : s.laneRefused path = false) (hk : w.bits 31 16 = 0xD3A1) :
    s.drainCmd path w = (s.forceDrain 2).wake := by
  rw [drainCmd_ready hd, if_neg (ne_true_of_eq_false hl), if_pos hk]

/-- Without its key a write that its path may make does nothing, in reset or out of it. -/
theorem drainCmd_unkeyed (hl : s.laneRefused path = false) (hk : w.bits 31 16 ≠ 0xD3A1) : s.drainCmd path w = s := by
  cases hd : s.domHeld 1
  case true => exact if_pos hd
  case false => rw [drainCmd_ready hd, if_neg (ne_true_of_eq_false hl), if_neg hk]

theorem exec_errDrainCmd : exec (.errDrainCmd path w) s = .next (kept s (s.drainCmd path w)) := ran_eq s _

/-! ### ERR_FENCE_CMD (R593, R609) -/

/-- What has a write of ERR_FENCE_CMD refused: its path, its key, its gallery's number, a gallery fenced already, or
fewer than 8 that would still serve, which holds up the fence of a spare too (log 55). -/
def FenceRefused (s : State) (path : Path) (w : Word) : Prop :=
  s.laneRefused path = true ∨ w.bits 31 16 ≠ 0x5EC7 ∨ 17 < w.bits 4 0 ∨ (s.gal (w.bits 4 0)).fenced = true ∨
    s.servingWithout (w.bits 4 0) < 8

/-- `State.fenceCmd` refuses what `FenceRefused` says. -/
theorem fenceRefuses_iff : (s.laneRefused path || w.bits 31 16 != 0x5EC7 || decide (w.bits 4 0 > 17) ||
    (s.gal (w.bits 4 0)).fenced || decide (s.servingWithout (w.bits 4 0) < 8)) = true ↔ FenceRefused s path w := by
  simp only [FenceRefused, Bool.or_eq_true, bne_iff_ne, decide_eq_true_eq, gt_iff_lt, or_assoc]

theorem fenceCmd_refused (hd : s.domHeld 1 = false) (h : FenceRefused s path w) : s.fenceCmd path w = s.cmdRefused :=
  (if_neg (ne_true_of_eq_false hd)).trans (if_pos (fenceRefuses_iff.2 h))

theorem fenceCmd_taken (hd : s.domHeld 1 = false) (h : ¬ FenceRefused s path w) :
    s.fenceCmd path w = (s.fenceGal (w.bits 4 0) 4 false).wake :=
  (if_neg (ne_true_of_eq_false hd)).trans (if_neg fun hc => h (fenceRefuses_iff.1 hc))

/-- A keyed write that its path may make fences a gallery not fenced yet without which 8 still serve. -/
theorem not_fenceRefused (hl : s.laneRefused path = false) (hk : w.bits 31 16 = 0x5EC7) (hg : w.bits 4 0 ≤ 17)
    (hf : (s.gal (w.bits 4 0)).fenced = false) (h8 : 8 ≤ s.servingWithout (w.bits 4 0)) : ¬ FenceRefused s path w := by
  rintro (h | h | h | h | h)
  · exact ne_true_of_eq_false hl h
  · exact h hk
  · exact Nat.not_lt.2 hg h
  · exact ne_true_of_eq_false hf h
  · exact Nat.not_lt.2 h8 h

theorem exec_errFenceCmd : exec (.errFenceCmd path w) s = .next (kept s (s.fenceCmd path w)) := ran_eq s _

/-! ### ERR_PEND (R588) -/

theorem pendClear_ready (hd : s.domHeld 1 = false) :
    s.pendClear w = s.setReg Reg.ERR_PEND (s.reg Reg.ERR_PEND &&& ~~~ w) := if_neg (ne_true_of_eq_false hd)

/-! ### The end of a drain (R598) -/

/-- A drain ends once no context is held and no control packet but DRAIN is in hand: its DRAIN packets end. -/
theorem exec_drained_ends (hrun : s.rst.phase = .run) (hdr : s.err.drain = .draining) (hitems : s.conc.items = [])
    (hself : s.selftest = none) (hops : ∀ o ∈ s.conc.ops, o.kind = .drain) :
    exec .drained s = .next (kept s ((s.conc.ops.foldl (fun (u : State) o => (u.dropOp o.pkt.seq).mgOk o.pkt 0)
      (State.raise { s with err := { s.err with drain := .drained } }
        { code := 0x00, d0 := s.err.drainCause })).wake)) := by
  have hdrains : s.conc.ops.any (fun o => o.kind != .drain) = false :=
    List.any_eq_false.2 fun o ho => by simp only [hops o ho, bne_self_eq_false, Bool.false_eq_true, not_false_eq_true]
  change execDrained s = _
  simp only [execDrained, inReset_of_run hrun, hdr, hitems, hself, hdrains, bne_self_eq_false, List.isEmpty_nil,
    Option.isSome_none, Bool.not_true, Bool.or_false, Bool.false_eq_true, if_false, State.modErr, raise_conc, ran_eq]

theorem exec_drained_waits (h : s.err.drain ≠ .draining ∨ s.conc.items ≠ []) : exec .drained s = .next s := by
  refine congrArg (ran s) (if_pos ?_)
  rcases h with hdr | hitems
  · simp [hdr]
  · simp [hitems]

end

/-- Settles O9: each command by whether the handrail is out of reset, the path may make the write and the word carries
its key, and DRAINED by what the engine still has in hand. -/
theorem drainAndFenceRegisters : Obligations.DrainAndFenceRegisters := by
  unfold Obligations.DrainAndFenceRegisters
  refine ⟨fun _ => exec_fatal_ready, ?drain, ?unkeyed, fun _ => forceDrain_of_draining, ?fence, ?fenceRefused,
    ?drainRefused, ?pend, fun _ => exec_drained_ends, fun _ => exec_drained_waits⟩
  case drain =>
    intro s path w hd hl hk
    rw [exec_errDrainCmd, drainCmd_keyed hd hl hk]
  case unkeyed =>
    intro s path w hl hk
    rw [exec_errDrainCmd, drainCmd_unkeyed hl hk, kept_self]
  case fence =>
    intro s path w hd hl hk hg hf h8
    rw [exec_errFenceCmd, fenceCmd_taken hd (not_fenceRefused hl hk hg hf h8)]
  case fenceRefused =>
    intro s path w hd h
    rw [exec_errFenceCmd, fenceCmd_refused hd h]
    rfl
  case drainRefused =>
    intro s path w hd hl
    rw [exec_errDrainCmd, drainCmd_refused hd hl]
    rfl
  case pend => exact fun s _ _ hd => congrArg (ran s) (pendClear_ready hd)

end Sys2Proof.Proofs
end

section
/-! SUPPORT. Records over the lane, firmware's telemetry and the end of unit resets (R149, R454, R547, R586; O11). -/
namespace Sys2Proof.Proofs

open Sys2Proof Sys2Proof.Machine Sys2Proof.Config Sys2Proof.Safety Sys2Proof.Laws

section
variable {s : State}

/-! ### ERROR_RECORD (R586) -/

theorem exec_errorRecord_sends (hd : s.domHeld 1 = false) (h : s.err.sent < s.err.seq) :
    exec .errorRecord s = .next { s with
      outs := s.outs ++ [.lane 5 0 0 ((mapGet s.err.log (s.err.sent % 1024)).getD [])],
      err := { s.err with sent := s.err.sent + 1 } } := by
  refine congrArg (ran s) (if_neg ?_)
  simp [hd, h]

theorem exec_errorRecord_none (h : s.err.seq ≤ s.err.sent) : exec .errorRecord s = .next s := by
  refine congrArg (ran s) (if_pos ?_)
  simp [h]

/-! ### TELEMETRY and its window (R149) -/

/-- While firmware runs TELEMETRY goes by whether 2^DECIM instants have passed. -/
theorem exec_telemetry_running (hf : s.fwRuns = true) : exec .telemetry s = ran s
    (if s.conc.teleCount + 1 < 2 ^ s.conc.decim then s.modConc (fun c => { c with teleCount := c.teleCount + 1 })
    else (s.draw.emit (.lane 6 0 0 ((upto 0 (freeNat s.freeSeq % 16384)).map (telemetryWord s.freeSeq)))).modConc
      (fun c => { c with teleCount := 0 })) := by
  refine congrArg (ran s) (if_neg ?_)
  rw [hf]
  exact Bool.false_ne_true

theorem exec_telemetry_counts (hf : s.fwRuns = true) (h : s.conc.teleCount + 1 < 2 ^ s.conc.decim) :
    exec .telemetry s = .next { s with conc := { s.conc with teleCount := s.conc.teleCount + 1 } } :=
  (exec_telemetry_running hf).trans (congrArg (ran s) (if_pos h))

/-- The record's words are a free value (log 7). -/
theorem exec_telemetry_sends (hf : s.fwRuns = true) (h : 2 ^ s.conc.decim ≤ s.conc.teleCount + 1) :
    exec .telemetry s = .next { s with
      outs := s.outs ++ [.lane 6 0 0 ((upto 0 (freeNat s.freeSeq % 16384)).map (telemetryWord s.freeSeq))],
      conc := { s.conc with teleCount := 0 }, freeSeq := s.freeSeq + 1 } :=
  (exec_telemetry_running hf).trans (congrArg (ran s) (if_neg (Nat.not_lt.2 h)))

theorem exec_telemetryWindow_ready (hd : s.domHeld 4 = false) :
    exec .telemetryWindow s = .next { s with conc := Conc.noteMq { s.conc with
      decim := if s.conc.mqHigh = true then min 6 (s.conc.decim + 1)
        else if s.conc.mqLow = true then s.conc.decim - 1 else s.conc.decim,
      mqHigh := true, mqLow := true } } :=
  congrArg (ran s) (if_neg (ne_true_of_eq_false hd))

/-! ### UNIT_RESET_DONE (R454, R547) -/

/-- The packet, the unit and the time of a unit reset in hand. -/
def resetInHand (o : MgmtOp) : Option (MqPkt × Nat × Nat × Nat) :=
  match o.kind with
  | .unitReset k u t => some (o.pkt, k, u, t)
  | _ => none

theorem resetInHand_eq_none {o : MgmtOp} (h : ∀ k u t, o.kind ≠ .unitReset k u t) : resetInHand o = none := by
  unfold resetInHand
  split
  next k u t hk => exact absurd hk (h k u t)
  next => rfl

section
variable {pre post : List MgmtOp} {p : MqPkt} {kind u t : Nat}

/-- The oldest unit reset in hand is the one that only other packets stand before. -/
theorem findSome?_resetInHand (h : s.conc.ops = pre ++ { pkt := p, kind := .unitReset kind u t } :: post)
    (hpre : ∀ o ∈ pre, ∀ k v w, o.kind ≠ .unitReset k v w) :
    s.conc.ops.findSome? resetInHand = some (p, kind, u, t) := by
  have hnone : pre.findSome? resetInHand = none :=
    List.findSome?_eq_none_iff.2 fun o ho => resetInHand_eq_none (hpre o ho)
  rw [h, List.findSome?_append, hnone]
  rfl

/-- The oldest unit reset in hand ends at its time, a column's after its pending repairs. -/
theorem exec_unitResetDone_first (h : s.conc.ops.findSome? resetInHand = some (p, kind, u, t)) :
    exec .unitResetDone s = .next (keptAt s
      ((((if kind = 3 then (s.due t).colPending u else s.due t).dropOp p.seq).mgOk p 0).wake)) := by
  refine congrArg (came s) ?_
  split
  next p' kind' u' t' hsome =>
    obtain ⟨rfl, rfl, rfl, rfl⟩ : p' = p ∧ kind' = kind ∧ u' = u ∧ t' = t := by
      simpa only [Option.some.injEq, Prod.mk.injEq] using hsome.symm.trans h
    rfl
  next hnone => exact (Option.some_ne_none _ (h.symm.trans hnone)).elim

end

end

/-- Settles O11: a record goes while one has not been sent, telemetry by its count and its window's fill, and of the
unit resets in hand the oldest ends. -/
theorem recordsAndTelemetry : Obligations.RecordsAndTelemetry := by
  unfold Obligations.RecordsAndTelemetry
  refine ⟨fun _ => exec_errorRecord_sends, fun _ => exec_errorRecord_none, fun _ => exec_telemetry_counts,
    fun _ hf h => ⟨_, exec_telemetry_sends hf h⟩, fun _ => exec_telemetryWindow_ready, ?unit, ?column⟩
  case unit =>
    intro s pre post p kind u t h hpre hkind
    rw [exec_unitResetDone_first (findSome?_resetInHand h hpre), if_neg hkind]
    rfl
  case column =>
    intro s pre post p u t h hpre
    rw [exec_unitResetDone_first (findSome?_resetInHand h hpre), if_pos rfl]
    rfl

end Sys2Proof.Proofs
end
